-- ==== Sys2Proof/Word.lean ====
section
/-! DEFINITION. Words, bytes and the two sparse containers of the model: a memory of bytes and a table of records,
each a list of (key, value) pairs with strictly rising keys (00_scope.md R5: little-endian throughout). -/

namespace Sys2Proof

/-- A byte. -/
abbrev Byte := BitVec 8
/-- A 32-bit code word, literal word or FP32 pattern. -/
abbrev W32 := BitVec 32
/-- A scalar register's value, 05_registers.md R132. -/
abbrev X := BitVec 64
/-- A lane mask's value, 05_registers.md R132. -/
abbrev Mask := BitVec 256

/-- Bytes by address; an address that is not listed reads as 0 (log entry 2). -/
abbrev Memory := List (Nat × Byte)

/-- The byte at address `a`. -/
def Memory.get : Memory → Nat → Byte
  | [], _ => 0
  | (k, v) :: r, a => if a = k then v else if a < k then 0 else Memory.get r a

/-- `n` bytes from address `a` up, out of a list that holds no key below `a`. -/
def Memory.readFrom : Nat → Nat → Memory → List Byte
  | 0, _, _ => []
  | n + 1, a, [] => 0 :: Memory.readFrom n (a + 1) []
  | n + 1, a, (k, v) :: r =>
    if k = a then v :: Memory.readFrom n (a + 1) r else 0 :: Memory.readFrom n (a + 1) ((k, v) :: r)

/-- `n` bytes from address `a` up. -/
def Memory.read (m : Memory) (a n : Nat) : List Byte :=
  Memory.readFrom n a (m.dropWhile fun e => e.1 < a)

/-- Writes the bytes `bs` from address `a` up into a list that holds no key below `a`; `none` keeps the byte. -/
def Memory.merge : List (Option Byte) → Nat → Memory → Memory
  | [], _, m => m
  | b :: bs, a, [] =>
    if b.getD 0 = 0 then Memory.merge bs (a + 1) [] else (a, b.getD 0) :: Memory.merge bs (a + 1) []
  | b :: bs, a, (k, v) :: r =>
    if k = a then
      (if b.getD v = 0 then Memory.merge bs (a + 1) r else (a, b.getD v) :: Memory.merge bs (a + 1) r)
    else
      (if b.getD 0 = 0 then Memory.merge bs (a + 1) ((k, v) :: r)
       else (a, b.getD 0) :: Memory.merge bs (a + 1) ((k, v) :: r))

/-- Writes the bytes `bs` from address `a` up; `none` keeps the byte that stands there. -/
def Memory.write (m : Memory) (a : Nat) (bs : List (Option Byte)) : Memory :=
  (m.takeWhile fun e => e.1 < a) ++ Memory.merge bs a (m.dropWhile fun e => e.1 < a)

/-- The canonical form: keys strictly rising and no entry equal to what an unlisted address reads as. -/
def Memory.wf (m : Memory) : Bool :=
  decide (m.Pairwise fun a b => a.1 < b.1) && m.all fun e => e.2 != 0

/-- Records by number, keys strictly rising; a number that is not listed has the default record. -/
abbrev Table (α : Type) := List (Nat × α)

/-- The record of number `k`, `d` when it is not listed. -/
def Table.get {α : Type} (d : α) : Table α → Nat → α
  | [], _ => d
  | (j, v) :: r, k => if k = j then v else Table.get d r k

/-- Puts record `v` under number `k`. -/
def Table.put {α : Type} : Table α → Nat → α → Table α
  | [], k, v => [(k, v)]
  | (j, w) :: r, k, v =>
    if k < j then (k, v) :: (j, w) :: r else if k = j then (k, v) :: r else (j, w) :: Table.put r k v

/-- Keys strictly rising. -/
def Table.wf {α : Type} (m : Table α) : Bool :=
  decide (m.Pairwise fun a b => a.1 < b.1)

end Sys2Proof
end

