-- ==== Sys2Proof/Syntax.lean ====
section
/-! DEFINITION. The instructions: one constructor for each row of spec/opcode_table.json, with typed operands. The
syllables of the five slot classes (02_bundles.md Tables 2.8 to 2.10), the channel script commands (10_channels.md Table
10.5), the cobbler's micro-instructions (12_order.md Table 12.6), and the device's own steps, each with the unit it
concerns as argument. -/

namespace Sys2Proof

/-- A scalar register number, x0..x31. -/
abbrev XReg := BitVec 5
/-- A predicate number, p0..p15. -/
abbrev PReg := BitVec 4
/-- A lane mask number, q0..q7. -/
abbrev QReg := BitVec 3
/-- A vector register name, v0..v63. -/
abbrev VReg := BitVec 6

/-- The seven slots of a bundle in slot order, 02_bundles.md Table 2.2. -/
inductive Slot where
  | s | v0 | v1 | m | z | c0 | c1
  deriving DecidableEq, Repr

/-- The five syllable classes, 02_bundles.md R45. -/
inductive Cls where
  | s | v | m | z | c
  deriving DecidableEq, Repr

/-- The class a slot holds, 02_bundles.md R45. -/
def Slot.cls : Slot → Cls
  | .s => .s
  | .v0 => .v
  | .v1 => .v
  | .m => .m
  | .z => .z
  | .c0 => .c
  | .c1 => .c

/-- The slot's number in masks and records (02_bundles.md Table 2.2, 16_faults.md Table 16.2). -/
def Slot.num : Slot → Nat
  | .s => 0
  | .v0 => 1
  | .v1 => 2
  | .m => 3
  | .z => 4
  | .c0 => 5
  | .c1 => 6

/-- Compare conditions, 04_cycles.md Table 4.4. -/
inductive Cond where
  | eq | ne | lt | ge | le | gt | ltn | gen | len | gtn | tst | ntst
  deriving DecidableEq, Repr

/-- Vector compare conditions, 06_vector.md Table 6.5. -/
inductive VCond where
  | eq | ne | lt | le | gt | ge | un | ord
  deriving DecidableEq, Repr

/-- Vector lane types, 02_bundles.md Table 2.6. -/
inductive VTy where
  | f32 | bf16 | f16 | fta | fto | i32 | n32 | i16 | n16 | i8 | n8
  deriving DecidableEq, Repr

/-- Lane width in bytes, 02_bundles.md Table 2.6. -/
def VTy.bytes : VTy → Nat
  | .f32 => 4
  | .bf16 => 2
  | .f16 => 2
  | .fta => 1
  | .fto => 1
  | .i32 => 4
  | .n32 => 4
  | .i16 => 2
  | .n16 => 2
  | .i8 => 1
  | .n8 => 1

/-- Lane width in bits. -/
def VTy.bits (t : VTy) : Nat := 8 * t.bytes

/-- Number of lanes, 02_bundles.md Table 2.6. -/
def VTy.lanes (t : VTy) : Nat := 256 / t.bytes

/-- Type group FP of 06_vector.md Table 6.1. -/
def VTy.isFp : VTy → Bool
  | .f32 => true
  | .bf16 => true
  | .f16 => true
  | _ => false

/-- The signed integer types, group SINT of 06_vector.md Table 6.1. -/
def VTy.isSint : VTy → Bool
  | .i32 => true
  | .i16 => true
  | .i8 => true
  | _ => false

/-- The unsigned integer types. -/
def VTy.isNat : VTy → Bool
  | .n32 => true
  | .n16 => true
  | .n8 => true
  | _ => false

/-- Type group INT of 06_vector.md Table 6.1. -/
def VTy.isInt (t : VTy) : Bool := t.isSint || t.isNat

/-- The binary8 types of the format entry in force. -/
def VTy.isB8 : VTy → Bool
  | .fta => true
  | .fto => true
  | _ => false

/-- Operand B of a vector syllable, 02_bundles.md Table 2.4. -/
inductive OpB where
  | v (r : VReg)
  | lit (i : BitVec 3)
  | imm (v : BitVec 20)
  | win (w : BitVec 3) (i : BitVec 12)
  | x (r : XReg)
  deriving DecidableEq, Repr

/-- A two-source vector form: type, destination, A, operand B, lane mask. -/
structure VBin where
  t : VTy
  vd : VReg
  va : VReg
  b : OpB
  q : QReg
  deriving DecidableEq, Repr

/-- A three-source vector form. -/
structure VTri where
  t : VTy
  vd : VReg
  va : VReg
  b : OpB
  vc : VReg
  q : QReg
  deriving DecidableEq, Repr

/-- A one-source vector form. -/
structure VUn where
  t : VTy
  vd : VReg
  va : VReg
  q : QReg
  deriving DecidableEq, Repr

/-- A vector form whose one source is operand B (VMOV, VIOTA). -/
structure VOne where
  t : VTy
  vd : VReg
  b : OpB
  q : QReg
  deriving DecidableEq, Repr

/-- A vector compare into a lane mask. -/
structure VCmp where
  t : VTy
  qd : QReg
  va : VReg
  b : OpB
  cond : VCond
  q : QReg
  deriving DecidableEq, Repr

/-- CVT, 06_vector.md R168: source type `s`, target type `d`, saturate, stochastic, part `h`. -/
structure VCvt where
  s : VTy
  d : VTy
  sat : Bool
  sr : Bool
  vd : VReg
  va : VReg
  h : BitVec 2
  q : QReg
  deriving DecidableEq, Repr

/-- ZIP and UNZIP, 06_vector.md R170. -/
structure VZip where
  t : VTy
  vd : VReg
  va : VReg
  vb : OpB
  h : Bool
  q : QReg
  deriving DecidableEq, Repr

/-- VLD and VST: base register, expected tag register of the .tc form, offset (06_vector.md R175, R178). -/
structure VMem where
  t : VTy
  vd : VReg
  xb : XReg
  tc : Option XReg
  imm : BitVec 20
  q : QReg
  deriving DecidableEq, Repr

/-- VLDS and VSTS: base and stride registers (06_vector.md R176). -/
structure VStr where
  t : VTy
  vd : VReg
  xb : XReg
  xs : XReg
  imm : BitVec 20
  q : QReg
  deriving DecidableEq, Repr

/-- VGATH and VSCAT: index register va, base register (06_vector.md R177, R178). -/
structure VGat where
  t : VTy
  vd : VReg
  va : VReg
  xb : XReg
  tc : Option XReg
  imm : BitVec 20
  q : QReg
  deriving DecidableEq, Repr

/-- AMOL operations, 12_order.md Table 12.5. -/
inductive AmolOp where
  | swap | add | and | or | xor | mins | maxs | minn | maxn | cas
  deriving DecidableEq, Repr

/-- Scopes, 12_order.md Table 12.3. -/
inductive Scope where
  | core | device | pod | system
  deriving DecidableEq, Repr

/-- FENCE orders, 12_order.md Table 12.4. -/
inductive FenceOrd where
  | acq | rel | acqrel | sc
  deriving DecidableEq, Repr

/-- AMO orders, 12_order.md Table 12.4. -/
inductive AmoOrd where
  | none | acq | rel | acqrel
  deriving DecidableEq, Repr

/-- WAIT conditions, 04_cycles.md R127. -/
inductive WaitKind where
  | lcyc | pcc | tag
  deriving DecidableEq, Repr

/-- RDPOD variants, 14_time_power.md R315. -/
inductive PodVar where
  | pcc | run | slot
  deriving DecidableEq, Repr

/-- SLEW variants, 14_time_power.md R316. -/
inductive SlewVar where
  | auto | back | fwd
  deriving DecidableEq, Repr

/-- QSEND routes, 15_light.md Table 15.5. -/
inductive Route where
  | light | wire | auto
  deriving DecidableEq, Repr

/-- CPL, 09_pool.md Table 9.2: `fo` is the follow-on's literal pair, `dec` the decode table slot. -/
structure CplArgs where
  xa : XReg
  xb : XReg
  xc : XReg
  fo : Option (BitVec 2)
  dec : Option (BitVec 2)
  n : BitVec 28
  deriving DecidableEq, Repr

/-- CPV, 09_pool.md Table 9.2: `sp` is the stride pair, `rows` is R − 1, `m` the row length. -/
structure CpvArgs where
  xa : XReg
  xb : XReg
  xc : XReg
  fo : Option (BitVec 2)
  sp : BitVec 2
  rows : BitVec 8
  m : BitVec 20
  deriving DecidableEq, Repr

/-- SPB and FLA, 05_registers.md R150. -/
structure SpillArgs where
  xa : XReg
  vec : Bool
  tok : BitVec 3
  f : BitVec 6
  n : BitVec 7
  off : BitVec 15
  deriving DecidableEq, Repr

/-- CHR, 10_channels.md Tables 10.9 and 10.10. -/
structure ChrArgs where
  xa : XReg
  xc : XReg
  fo : Option (BitVec 2)
  dec : Option (BitVec 2)
  s : Bool
  l : Bool
  chan : BitVec 10
  q : BitVec 5
  n : BitVec 13
  deriving DecidableEq, Repr

/-- CHW, 10_channels.md Tables 10.9 and 10.10. -/
structure ChwArgs where
  xa : XReg
  s : Bool
  l : Bool
  chan : BitVec 10
  q : BitVec 5
  n : BitVec 13
  deriving DecidableEq, Repr

/-- LSEND, 15_light.md Table 15.5: `cnt` is count − 1, `m` the words of the last flit (0 means 16). -/
structure LsendArgs where
  xa : XReg
  xb : XReg
  xc : XReg
  s : Bool
  port : BitVec 2
  lane : BitVec 4
  cnt : BitVec 4
  m : BitVec 4
  deriving DecidableEq, Repr

/-- QSEND, 15_light.md Table 15.5. -/
structure QsendArgs where
  xa : XReg
  xb : XReg
  xc : XReg
  route : Route
  port : BitVec 2
  lane : BitVec 4
  cnt : BitVec 4
  deriving DecidableEq, Repr

/-- A burst address of a script command, 10_channels.md Table 10.4: group, bank, row, column, count − 1, tile order. -/
structure Burst where
  g : BitVec 2
  b : BitVec 2
  row : BitVec 16
  c : BitVec 5
  cnt : BitVec 7
  t : Bool
  deriving DecidableEq, Repr

/-- Units that hold state protected against soft errors, 16_faults.md Table 16.7, and what self-tests name. -/
inductive Unit' where
  /-- pool bank 0..23 of a core -/
  | poolBank (core bank : Nat)
  /-- instruction-memory quarter 0..3 of a core -/
  | imemQuarter (core quarter : Nat)
  /-- core-internal state of a core -/
  | coreState (core : Nat)
  /-- a burst of a channel, by its burst number within the channel -/
  | hbmBurst (chan burst : Nat)
  /-- rows of a channel -/
  | hbmRows (chan first last : Nat)
  /-- a whole channel -/
  | channel (chan : Nat)
  /-- a whole stack -/
  | stack (s : Nat)
  /-- a mesh router of a die -/
  | router (die : Nat)
  deriving DecidableEq, Repr

/-- A management request's caller: PF0 or virtual function n (19_host.md R405). -/
inductive Fn where
  | pf0
  | vf (n : Nat)
  deriving DecidableEq, Repr

/-- What partition creation sets, 19_host.md R403 and Table 19.4 request 0x01; `create = false` deletes. -/
structure PartSpec where
  create : Bool
  coreGroups : BitVec 64
  parityGroups : BitVec 64
  laneSets : BitVec 14
  confidential : Bool
  deriving DecidableEq, Repr

/-- A partition's settings of request 0x14 (19_host.md Table 19.4). -/
structure Limits where
  fenceLimit : Option Nat
  qsendThreshold : Option Nat
  counterThreshold : Option (BitVec 16)
  expert : Option Bool
  votes : Option (List Nat)
  deriving DecidableEq, Repr

/-- A cask definition of request 0x12 (15_light.md R348). -/
structure CaskSpec where
  core : Nat
  base : Nat
  n : Nat
  deriving DecidableEq, Repr

/-- Request 0x20, 10_channels.md R267 and R268. -/
inductive PageReq where
  | read (chan page : Nat)
  | clear (chan page : Nat)
  /-- moves the page at a partition-virtual address to a host address -/
  | toHost (va : Nat) (host : Nat)
  /-- moves the page at a partition-virtual address from host memory to tiles of a channel -/
  | toHbm (va : Nat) (tile : Nat)
  deriving DecidableEq, Repr

/-- A repaired kind of line failure, 15_light.md Table 15.7. -/
inductive LineFail where
  /-- a comb line 0..31 of the lane, or the spare line behind it, dead or drifted; the retune fits a guard -/
  | dead (line : Nat)
  /-- the retune would take longer than a guard -/
  | slowRetune
  /-- heater at its range limit; `lost` when the margin fails -/
  | heater (lost : Bool)
  deriving DecidableEq, Repr

/-- What a receiver hears of one flit (15_light.md R335): its 160 bytes, for a bulk flit its Reed-Solomon group as received, and for a
short flit the bytes of the replay copy. -/
structure FlitIn where
  port : Nat
  wave : Nat
  slot : Nat
  pos : Nat
  srcLane : Nat
  bytes : List Byte
  /-- the bulk flits at the four positions of the group, with their check fields, empty where there is none, and its parity beat -/
  group : List (List Byte)
  parity : List Byte
  replay : List Byte
  deriving DecidableEq, Repr

/-- Where an uncorrectable error is found, 16_faults.md Table 16.7. -/
inductive Uncorrected where
  /-- pool address `addr` of core `core`, read by an engine operation of the syllable when `eng` -/
  | pool (core addr : Nat) (eng : Bool)
  /-- an instruction word of a core -/
  | imem (core addr : Nat)
  /-- a register or table entry of the reading core -/
  | state
  /-- a burst of a channel, by its burst number within the channel, at its next read -/
  | hbm (chan burst : Nat)
  deriving DecidableEq, Repr

/-- A message of the electrical pod network, 15_light.md R352. -/
inductive Wire where
  /-- an arm message: partition, device and T0 of the gang's last -/
  | arm (part dev t0 : Nat)
  | abort (part : Nat) (tickA : Nat)
  /-- a wire-routed counted flit: source rank, tag, payload -/
  | flit (part src : Nat) (tag : BitVec 16) (bytes : List Byte)
  | credit (part src n : Nat)
  /-- ESEND and EMCAST: source device, core, pool address, tag, payload -/
  | bytes (part src core addr : Nat) (tag : BitVec 16) (bytes : List Byte)
  /-- a far read, write, AMO or QAPP sent by device `dev`, with its request number there. The home is a tile and an offset in it;
  `lim` is the tick by which a QAPP must have its answer. With `dev` 32 the access comes from this device's own host port, and the
  tile stands for a page of the partition's virtual memory -/
  | farRead (dev req part tile off size : Nat)
  | farWrite (dev req part tile off : Nat) (bytes : List Byte)
  | amo (dev req part tile off va handler : Nat) (h0 h1 : BitVec 64)
  | qapp (dev req part tile off lim : Nat) (bytes : List Byte)
  /-- the answer to a far access: request number, value, and 0, or 1 for a failed seal, 2 for a handler error, 3 for XLATE, 4 for
  PEER_UNREACHABLE -/
  | answer (req : Nat) (value : BitVec 64) (err : Nat)
  /-- the answer to a read of more than 8 bytes -/
  | data (req : Nat) (bytes : List Byte)
  /-- an EMCAST on its way to the replication point: group, pool address, tag, the device of each rank, payload, 12_order.md
  R301 -/
  | replicate (part group addr : Nat) (tag : BitVec 16) (devs : List (Option Nat)) (bytes : List Byte)
  /-- the digest of a loaded racking table on another device, 15_light.md R337 -/
  | rackDigest (part dev id : Nat) (d : List Byte)
  /-- a link key for a lane set with its flip slot, sealed by the session that device `dev` has with this one, 15_light.md R357 -/
  | linkKey (dev set slot : Nat) (record : List Byte)
  /-- an SPDM message of the controller of device `dev`: request or response code and body, 19_host.md R408 -/
  | spdm (dev code : Nat) (body : List Byte)
  deriving DecidableEq, Repr

/-- A beacon, 15_light.md R332: the PCC it carries, its source rank, and the residual that its edges give in sixteenths of a
tick. -/
structure Beacon where
  pcc : Nat
  rank : Nat
  off : Int
  deriving DecidableEq, Repr

/-- The instructions and steps of the table: first those with operands, then those without. A step that concerns a unit
without naming it as an operand takes it from the machine's context (`State.ctx`). -/
inductive Instr where
  /-- 19_host.md R401 -/
  | lqTailWrite (vf : Nat) (v : BitVec 32)
  /-- 19_host.md R402 -/
  | cqHeadWrite (vf : Nat) (v : BitVec 32)
  /-- 19_host.md R401 -/
  | hostRegisterWrite (vf off : Nat) (v : BitVec 64)
  /-- 01_machine.md R26 -/
  | armMessage (part : Nat) (arm : Nat × Nat)
  /-- 16_faults.md R374 -/
  | abortNotice (part tickA : Nat)
  /-- 05_registers.md R140 -/
  | add (xd xa xb : XReg)
  | addi (xd xa : XReg) (imm : BitVec 32)
  | sub (xd xa xb : XReg)
  | subi (xd xa : XReg) (imm : BitVec 32)
  | mul (xd xa xb : XReg)
  | muli (xd xa : XReg) (imm : BitVec 32)
  | mulh (xd xa xb : XReg) (nat : Bool)
  /-- 05_registers.md R141 -/
  | div (xd xa xb : XReg) (nat : Bool)
  | rem (xd xa xb : XReg) (nat : Bool)
  /-- 05_registers.md R140 -/
  | and (xd xa xb : XReg)
  | andi (xd xa : XReg) (imm : BitVec 32)
  | or (xd xa xb : XReg)
  | ori (xd xa : XReg) (imm : BitVec 32)
  | xor (xd xa xb : XReg)
  | xori (xd xa : XReg) (imm : BitVec 32)
  | andn (xd xa xb : XReg)
  | shl (xd xa xb : XReg)
  | shli (xd xa : XReg) (n : BitVec 6)
  | shr (xd xa xb : XReg)
  | shri (xd xa : XReg) (n : BitVec 6)
  | sha (xd xa xb : XReg)
  | shai (xd xa : XReg) (n : BitVec 6)
  | rot (xd xa xb : XReg)
  | roti (xd xa : XReg) (n : BitVec 6)
  | min (xd xa xb : XReg) (nat : Bool)
  | max (xd xa xb : XReg) (nat : Bool)
  | clz (xd xa : XReg)
  | ctz (xd xa : XReg)
  | popc (xd xa : XReg)
  /-- 05_registers.md R142 -/
  | bfx (xd xa : XReg) (sign : Bool) (pos : BitVec 6) (len : BitVec 7)
  | bfi (xd xa : XReg) (pos : BitVec 6) (len : BitVec 7)
  /-- 04_cycles.md R121 -/
  | sel (xd xa xb : XReg) (pn : PReg)
  /-- 04_cycles.md R119 -/
  | cmp (c : Cond) (pd : PReg) (xa xb : XReg)
  | cmpi (c : Cond) (pd : PReg) (xa : XReg) (imm : BitVec 32)
  /-- 05_registers.md R143 -/
  | li (xd : XReg) (z : Bool) (imm : BitVec 32)
  | lih (xd : XReg) (imm : BitVec 32)
  | lea (xd xa xb : XReg) (s : BitVec 3) (imm : BitVec 32)
  /-- 04_cycles.md R120 -/
  | pand (pd pa pb : PReg) (na nb : Bool)
  | por (pd pa pb : PReg) (na nb : Bool)
  | pxor (pd pa pb : PReg) (na nb : Bool)
  | pnot (pd pa : PReg)
  | pmov (pd pa : PReg)
  | pmovGet (xd : XReg)
  | pmovPut (xa : XReg)
  /-- 05_registers.md R144 -/
  | ld (xd xa : XReg) (sign : Bool) (size : BitVec 2) (imm : BitVec 32)
  | st (xa xb : XReg) (size : BitVec 2) (imm : BitVec 32)
  /-- 05_registers.md R149 -/
  | ldk (xd xa : XReg) (sign : Bool) (w : BitVec 3) (imm : BitVec 32)
  /-- 12_order.md R287; the scope is present on an acquire -/
  | ldf (xd xa : XReg) (acq : Option Scope) (sign : Bool) (size : BitVec 2) (imm : BitVec 32)
  /-- 12_order.md R287; the scope is present on a release -/
  | stf (xa xb : XReg) (rel : Option Scope) (size : BitVec 2) (imm : BitVec 32)
  /-- 12_order.md R291 -/
  | amo (xd xa xb : XReg) (o : AmoOrd) (sc : Scope) (h : BitVec 5)
  /-- 12_order.md R290 -/
  | amol (op : AmolOp) (xd xa xb : XReg) (w8 : Bool) (imm : BitVec 24)
  /-- 12_order.md R288 -/
  | fence (xd : XReg) (o : FenceOrd) (sc : Scope)
  /-- 04_cycles.md R117 -/
  | br (xa : XReg) (imm : BitVec 32)
  | bri (imm : BitVec 32)
  | call (xd xa : XReg) (imm : BitVec 32)
  | calli (xd : XReg) (imm : BitVec 32)
  /-- 04_cycles.md R118 -/
  | loop (lv : BitVec 3) (xa xb : XReg) (rot pad : Bool) (off : BitVec 32)
  | loopi (lv : BitVec 3) (xb : XReg) (rot pad : Bool) (cnt off : BitVec 16)
  /-- 04_cycles.md R122 -/
  | rdsr (xd : XReg) (i : BitVec 12)
  /-- 04_cycles.md R123 -/
  | wrsr (xa : XReg) (i : BitVec 12)
  /-- 14_time_power.md R315 -/
  | rdpod (xd : XReg) (v : PodVar)
  /-- 14_time_power.md R316 -/
  | slew (xd : XReg) (v : SlewVar)
  /-- 14_time_power.md R319 -/
  | phase (xa : XReg) (elastic : Bool) (mask : BitVec 4) (n : BitVec 5) (hold : Bool)
  /-- 04_cycles.md R127 -/
  | wait (k : WaitKind) (xd xa xb : XReg) (imm : BitVec 32)
  /-- 12_order.md R297 -/
  | barArr (xd : XReg) (c : BitVec 3)
  | barWait (xd xa : XReg) (c : BitVec 3)
  | barAw (xd : XReg) (c : BitVec 3)
  /-- 04_cycles.md R126 -/
  | trap (code : BitVec 32)
  | brk (code : BitVec 32)
  /-- 04_cycles.md R128 -/
  | launch (xd xa : XReg)
  /-- 05_registers.md R153 -/
  | tkwait (xd : XReg) (m : BitVec 8)
  /-- 05_registers.md R155 -/
  | pushm (f : XReg) (n : BitVec 6)
  | popm (f : XReg) (n : BitVec 6)
  /-- 16_faults.md R368 -/
  | rdfrCore (xd xa : XReg) (w : BitVec 3)
  | rdfrCause (xd : XReg) (w : BitVec 3)
  /-- 16_faults.md R369 -/
  | thaw (xd : XReg)
  /-- 16_faults.md R372 -/
  | abort (code : BitVec 32)
  /-- 04_cycles.md R124 -/
  | wfld (xd : XReg) (sign : Bool) (i : BitVec 3)
  /-- 06_vector.md R162 -/
  | fadd (f : VBin)
  | fsub (f : VBin)
  | fmul (f : VBin)
  | fma (f : VTri)
  | fms (f : VTri)
  | fnma (f : VTri)
  /-- 06_vector.md R163 -/
  | fmin (f : VBin)
  | fmax (f : VBin)
  | fabs (f : VUn)
  | fneg (f : VUn)
  /-- 06_vector.md R164 -/
  | fcmp (f : VCmp)
  /-- 06_vector.md R165 -/
  | frcp (f : VUn)
  | frsq (f : VUn)
  | fexp2 (f : VUn)
  | flog2 (f : VUn)
  /-- 06_vector.md R166 -/
  | iadd (f : VBin)
  | isub (f : VBin)
  | imul (f : VBin)
  | imulh (f : VBin)
  | imin (f : VBin)
  | imax (f : VBin)
  | iabs (f : VUn)
  | vand (f : VBin)
  | vor (f : VBin)
  | vxor (f : VBin)
  /-- 06_vector.md R167 -/
  | vshl (f : VBin)
  | vshr (f : VBin)
  | vsha (f : VBin)
  /-- 06_vector.md R166 -/
  | vpopc (f : VUn)
  | vclz (f : VUn)
  /-- 06_vector.md R164 -/
  | icmp (f : VCmp)
  /-- 06_vector.md R166 -/
  | iadds (f : VBin)
  | isubs (f : VBin)
  /-- 06_vector.md R169 -/
  | vmov (f : VOne)
  /-- 06_vector.md R168 -/
  | cvt (f : VCvt)
  /-- 06_vector.md R169 -/
  | vsel (f : VBin) (qs : QReg)
  | viota (f : VOne)
  /-- 06_vector.md R170 -/
  | perm (f : VBin)
  | rotl (f : VUn) (i : BitVec 8)
  | bcast (f : VUn) (i : BitVec 8)
  | zip (f : VZip)
  | unzip (f : VZip)
  /-- 06_vector.md R171 -/
  | rsum (f : VUn)
  | rmin (f : VUn)
  | rmax (f : VUn)
  | rmini (f : VUn)
  /-- 06_vector.md R172 -/
  | scan (f : VUn)
  /-- 06_vector.md R173 -/
  | vext (t : VTy) (xd : XReg) (va : VReg) (i : BitVec 8) (q : QReg)
  | vins (f : VOne) (i : BitVec 8)
  /-- 06_vector.md R174 -/
  | vhash (f : VBin)
  /-- 06_vector.md R175 -/
  | vld (f : VMem)
  | vst (f : VMem)
  /-- 06_vector.md R176 -/
  | vlds (f : VStr)
  | vsts (f : VStr)
  /-- 06_vector.md R177 -/
  | vgath (f : VGat)
  | vscat (f : VGat)
  /-- 06_vector.md R179 -/
  | vgathk (f : VUn) (w : BitVec 3) (imm : BitVec 20)
  /-- 06_vector.md R181 -/
  | spush (t : VTy) (va : VReg) (k : BitVec 2) (q : QReg)
  /-- 06_vector.md R182 -/
  | spop (t : VTy) (vd : VReg) (qd : QReg) (k : BitVec 2)
  /-- 06_vector.md R183 -/
  | scnt (t : VTy) (xd : XReg) (k : BitVec 2) (q : QReg)
  /-- 06_vector.md R184 -/
  | qand (qd qa qb : QReg)
  | qor (qd qa qb : QReg)
  | qxor (qd qa qb : QReg)
  | qnot (qd qa : QReg)
  | qpopMask (t : VTy) (xd : XReg) (qa : QReg)
  | qfirst (t : VTy) (xd : XReg) (qa : QReg)
  | qany (t : VTy) (pd : PReg) (qa : QReg)
  /-- 08_matrix.md R197 -/
  | mma (aD : BitVec 3) (ta tb : BitVec 4) (bf z : Bool)
  | mmat (aD : BitVec 3) (ta tb : BitVec 4) (bf z : Bool)
  /-- 08_matrix.md R199; `tile` chooses tD, else aD -/
  | mzero (tile : Bool) (d : BitVec 4)
  | mld (tD : BitVec 4) (tc : Option (BitVec 4)) (xb : BitVec 4) (imm : BitVec 32)
  | mst (ta xb : BitVec 4) (imm : BitVec 32)
  | macs (xb : BitVec 4) (aS : BitVec 3) (imm : BitVec 32)
  /-- 08_matrix.md R201 -/
  | mcvt (tD : BitVec 4) (aS : BitVec 3) (bf h : Bool) (sc : BitVec 4)
  /-- 08_matrix.md R199 -/
  | mlda (aD : BitVec 3) (xb : BitVec 4) (imm : BitVec 32)
  | mtrn (tD ta : BitVec 4)
  /-- 08_matrix.md R203 -/
  | zscla (va : VReg) (h : BitVec 2)
  | zsclb (va : VReg) (h : BitVec 2)
  /-- 08_matrix.md R202 -/
  | ztab (i : BitVec 4) (v : BitVec 16)
  | zfmt (i : BitVec 4) (v : BitVec 32)
  | zfsel (follow : Bool) (base : BitVec 4) (level : BitVec 3)
  /-- 09_pool.md R220 -/
  | cpl (a : CplArgs)
  | cpv (a : CpvArgs)
  /-- 09_pool.md R227 -/
  | cpi (xa : XReg)
  /-- 09_pool.md R226 -/
  | dtab (xa : XReg) (slot : BitVec 2)
  /-- 05_registers.md R151 -/
  | spb (a : SpillArgs)
  | fla (a : SpillArgs)
  /-- 10_channels.md R261 to R263 -/
  | chr (a : ChrArgs)
  /-- 10_channels.md R264, R265 -/
  | chw (a : ChwArgs)
  /-- 10_channels.md R236 -/
  | act (g b : BitVec 2) (row : BitVec 16)
  | rd (a : Burst) (q : BitVec 5) (k x : Bool)
  | wr (a : Burst) (q : BitVec 5) (p x : Bool)
  | pre (g b : BitVec 2)
  /-- 10_channels.md R244 -/
  | refpb (g b : BitVec 2)
  /-- 10_channels.md R257 -/
  | sealrd (b : BitVec 2) (row : BitVec 16) (l : Bool)
  | sealwr (b : BitVec 2) (row : BitVec 16) (l : Bool)
  /-- 10_channels.md R250 -/
  | parrmw (a : Burst)
  /-- 10_channels.md R253 -/
  | gopen (len : BitVec 28)
  /-- 10_channels.md R240 -/
  | fetch (b : BitVec 2) (row : BitVec 16) (c : BitVec 5)
  /-- 10_channels.md R236: a landing in slot `q` of channel `cn` -/
  | rdLanding (cn q : Nat) (data : List Byte) (poison : Bool)
  /-- 12_order.md R294 -/
  | cobLdw (d : BitVec 2) (i : BitVec 3)
  | cobStw (a : BitVec 2) (i : BitVec 16)
  | cobAdd (d a b : BitVec 2)
  | cobSub (d a b : BitVec 2)
  | cobAnd (d a b : BitVec 2)
  | cobOr (d a b : BitVec 2)
  | cobXor (d a b : BitVec 2)
  | cobMins (d a b : BitVec 2)
  | cobMaxs (d a b : BitVec 2)
  | cobMinn (d a b : BitVec 2)
  | cobMaxn (d a b : BitVec 2)
  | cobCeq (a b : BitVec 2)
  | cobSkipT (n : BitVec 5)
  | cobSkipF (n : BitVec 5)
  | cobMov (d a : BitVec 2)
  | cobMovi (d : BitVec 2) (i : BitVec 16)
  | cobRet (a : BitVec 2)
  /-- 12_order.md R299 -/
  | qapp (xa xb xc : XReg)
  /-- 15_light.md R345 -/
  | lsend (a : LsendArgs)
  /-- 15_light.md R347 -/
  | lrecv (xa xc : XReg) (d : BitVec 20)
  /-- 15_light.md R350 -/
  | qsend (a : QsendArgs)
  /-- 15_light.md R351 -/
  | qpopCask (xa xb xc : XReg)
  /-- 15_light.md R353 -/
  | esend (xa xb xc : XReg) (len : BitVec 9)
  | emcast (xa xb xc : XReg) (group : BitVec 6) (len : BitVec 9)
  /-- 15_light.md R354 -/
  | drainMark (xa xc : XReg)
  | drainPoll (xa xc : XReg)
  | drainRelease (xa xc : XReg)
  /-- 15_light.md R335 -/
  | flitReceive (f : FlitIn)
  /-- 15_light.md R353 -/
  | wireDelivery (w : Wire)
  /-- 14_time_power.md R312: the timekeeper's beacon of a slot, if one was received -/
  | beaconUpdate (b : Option Beacon)
  /-- 14_time_power.md R325, 16_faults.md R376: an error, and the access that reads it: that of core `by_` by its syllable in slot
  `slot` of the bundle at `head` -/
  | poolUe (e : Uncorrected) (by_ slot head : Nat)
  /-- 16_faults.md R376 -/
  | correctedError (u : Unit')
  /-- 16_faults.md R373: whether the test passed -/
  | selfTestVerdict (u : Unit') (passed : Bool)
  /-- 15_light.md R356: lane index -/
  | lineFailure (lane : Nat) (k : LineFail)
  | combFailure (port : Nat)
  /-- 19_host.md R403 -/
  | partitionCreateDelete (fn : Fn) (part : Nat) (p : PartSpec)
  | vfBind (fn : Fn) (vf : Nat) (part : Option Nat)
  /-- 12_order.md R279, 18_prog_rings.md R390 -/
  | setPageTableRoot (fn : Fn) (part root : Nat) (preload : List Nat)
  /-- 12_order.md R293 -/
  | loadHandlerTable (fn : Fn) (part : Nat) (words : List (BitVec 32))
  /-- 15_light.md R337, R348 -/
  | loadRackingTable (fn : Fn) (part : Nat) (image : List Byte) (cask : Option CaskSpec)
  /-- 15_light.md R355: plane, start slot with the dark interval where the request names one, table, reach map -/
  | reconfigurePlane (fn : Fn) (part plane : Nat) (dark : Nat × Option Nat) (table : Nat) (reach : BitVec 32)
  /-- 19_host.md R405 -/
  | setLimits (fn : Fn) (part : Nat) (l : Limits)
  /-- 12_order.md R301 -/
  | writeMulticastGroup (fn : Fn) (part g : Nat) (bitmap : BitVec 32) (core commit : Nat)
  /-- 10_channels.md R267, R268 -/
  | pageCountersMigrate (fn : Fn) (part : Nat) (r : PageReq)
  /-- 10_channels.md R269: to or from a host address -/
  | checkpointRestore (fn : Fn) (part : Nat) (restore : Bool) (host : Nat)
  /-- 19_host.md R409, R410 -/
  | loadMemoryKey (fn : Fn) (part : Nat) (key : Option (BitVec 256)) (rotate : Bool)
  /-- 19_host.md R408 -/
  | getCertificate (fn : Fn) (slot : Nat)
  | challenge (fn : Fn) (nonce : BitVec 256)
  | getMeasurements (fn : Fn) (index : Nat)
  | keyExchange (fn : Fn) (share : BitVec 768)
  /-- 19_host.md R408; in the context: fn, session, verify -/
  | finish
  /-- 10_channels.md R250: parity burst `i` of the command -/
  | parrmwWrite (cn : Nat) (a : Burst) (i : Nat)
  /-- 15_light.md R336: path port, rank, flight time in ticks -/
  | linkBringUp (port rank flight : Nat)
  /-- 19_host.md R399: stream number and key; no key when the stream is lost (R404) -/
  | ideKm (fn : Fn) (session stream : Nat) (key : Option (BitVec 256))
  /-- 14_time_power.md R326: lane index and requested power in mW -/
  | laneFloorRequest (lane mw : Nat)
  /-- 19_host.md R407 -/
  | powerUp
  /-- 01_machine.md R11; in the context: vf -/
  | lastTaken
  /-- 01_machine.md R27; in the context: run -/
  | runStart
  | quorumCheck
  /-- 01_machine.md R18; in the context: core -/
  | taskStart
  /-- 01_machine.md R19; in the context: core -/
  | budgetExpiry
  /-- 01_machine.md R20; in the context: core -/
  | lengthExpiry
  /-- 01_machine.md R23; in the context: core -/
  | gateTick
  /-- 04_cycles.md R94; in the context: core -/
  | bundleIssue
  /-- 04_cycles.md R98 -/
  | resultWriteback
  /-- 01_machine.md R28; in the context: run -/
  | runFreeze
  /-- 16_faults.md R364; in the context: run -/
  | recoveryStart
  /-- 16_faults.md R370; in the context: run -/
  | runRestart
  /-- 01_machine.md R32; in the context: run -/
  | gangAbortTick
  /-- 01_machine.md R9; in the context: run -/
  | runEnd
  /-- 01_machine.md R33; in the context: run -/
  | preemptRequest
  | preemptFreeze
  /-- 01_machine.md R34; in the context: run -/
  | yieldGapExpiry
  /-- 16_faults.md R375; in the context: run -/
  | preemptResume
  /-- 02_bundles.md R55 -/
  | nop
  | vnop
  | mnop
  | znop
  | cnop
  /-- 04_cycles.md R125 -/
  | tend
  /-- 08_matrix.md R197; in the context: core, op -/
  | mmaResultWrite
  /-- 08_matrix.md R205; in the context: core, op -/
  | followOnIssue
  /-- 09_pool.md R220; in the context: core, op, idx -/
  | copyBeat
  /-- 09_pool.md R224; in the context: core, op, idx -/
  | decodeContainer
  /-- 05_registers.md R151; in the context: core, op, idx -/
  | spillFillGroup
  /-- 10_channels.md R247; in the context: core, op, idx -/
  | chrCollect
  /-- 10_channels.md R264; in the context: core, op, idx -/
  | chwArrival
  /-- 10_channels.md R263; in the context: core, op, idx -/
  | sealVerdict
  /-- 10_channels.md R265; in the context: core, op, idx -/
  | sealLatchUpdate
  /-- 10_channels.md R236 -/
  | prea
  /-- 10_channels.md R244 -/
  | ref
  /-- 10_channels.md R253 -/
  | gclose
  /-- 10_channels.md R241 -/
  | gsync
  | scriptEnd
  /-- 10_channels.md R240; in the context: chan -/
  | fetchComplete
  /-- 10_channels.md R241; in the context: chan -/
  | epochStart
  /-- 10_channels.md R247; in the context: chan, idx (the slot) -/
  | slotAgeExpiry
  /-- 10_channels.md R250; in the context: chan -/
  | keptCopyExpiry
  /-- 10_channels.md R250; in the context: idx (the parity group) -/
  | deltaAgeExpiry
  /-- 10_channels.md R244; in the context: chan -/
  | refreshInterval
  /-- 10_channels.md R253; in the context: chan -/
  | guestWindowEnd
  /-- 10_channels.md R254; in the context: req -/
  | guestAccess
  /-- 10_channels.md R241; in the context: run -/
  | scriptRunonLimit
  /-- 12_order.md R292; in the context: req -/
  | handlerRun
  /-- 12_order.md R287; in the context: req -/
  | translationAnswer
  | farDataReturn
  /-- 12_order.md R281; in the context: req -/
  | farStorePerform
  /-- 12_order.md R289; in the context: core -/
  | fenceComplete
  /-- 12_order.md R291; in the context: req -/
  | amoResult
  /-- 04_cycles.md R96; in the context: core -/
  | waitEnd
  /-- 04_cycles.md R128; in the context: core -/
  | launchAnswer
  /-- 12_order.md R296; in the context: run, idx (the barrier context) -/
  | barrierFlip
  /-- 12_order.md R299; in the context: req -/
  | qappAnswer
  /-- 12_order.md R300; in the context: part, idx (the header's partition-virtual address) -/
  | queueDelivery
  /-- 15_light.md R347; in the context: core, idx (the expectation) -/
  | expectationCheck
  /-- 15_light.md R338 -/
  | slotBoundary
  /-- 15_light.md R350; in the context: lane, idx (the position) -/
  | countedFlitDepart
  /-- 15_light.md R350; in the context: part, idx (the rank) -/
  | wireFlitDepart
  /-- 15_light.md R354; in the context: lane, idx (the position) -/
  | drainMarkerSend
  /-- 15_light.md R341; in the context: core -/
  | flitLanding
  /-- 15_light.md R351; in the context: part, idx (the rank) -/
  | creditMessage
  /-- 15_light.md R332 -/
  | timekeeperTakeover
  /-- 14_time_power.md R316 -/
  | slewStep
  /-- 14_time_power.md R322; in the context: core -/
  | railWakeComplete
  /-- 14_time_power.md R323; in the context: idx (the rail) -/
  | voteRiseComplete
  /-- 14_time_power.md R318; in the context: core -/
  | clockRecompute
  /-- 15_light.md R357; in the context: idx (the lane set) -/
  | keyFlip
  /-- 15_light.md R355; in the context: plane -/
  | reconfigDarkStart
  | relockComplete
  /-- 19_host.md R409, R410; in the context: part -/
  | keyRotationCommit
  | resealScan
  /-- 15_light.md R358; in the context: fn, part -/
  | lockInterface
  | startInterface
  | stopInterface
  /-- 19_host.md R404; in the context: vf -/
  | functionLevelReset
  /-- 19_host.md R408; in the context: fn -/
  | getVersion
  | getCapabilities
  | negotiateAlgorithms
  | getDigests
  /-- 19_host.md R408; in the context: fn, session -/
  | keyUpdate
  | heartbeat
  | endSession
  /-- 01_machine.md R13; in the context: vf -/
  | armDeadline
  /-- 08_matrix.md R197; in the context: core, op, idx -/
  | arraySample
  /-- 08_matrix.md R199, R201; in the context: core, op, idx -/
  | tileMoverGroup
  /-- 05_registers.md R146; in the context: core, op -/
  | vaultSample
  /-- 09_pool.md R227; in the context: core, op, idx -/
  | codeImageLoad
  /-- 09_pool.md R226; in the context: core, op -/
  | decodeTableLoad
  /-- 19_host.md R409 -/
  | powerLoss
  /-- 19_host.md R408; in the context: fn, session -/
  | heartbeatFailure
  deriving DecidableEq, Repr

/-- A syllable: guard sense, guard predicate and the instruction, 02_bundles.md R45, R46. -/
structure Syllable where
  gs : Bool
  gp : PReg
  instr : Instr
  deriving DecidableEq, Repr

end Sys2Proof
end

