-- ==== Sys2Proof/Decode.lean ====
section
/-! DEFINITION. The decoder, total on any bits, and after it the encoder: syllables (02_bundles.md Table 2.3), bundle
headers (Table 2.2), script commands (10_channels.md Table 10.4), cobbler words (12_order.md R294). -/

namespace Sys2Proof

/-! ## Field helpers -/

/-- Bits `lo` .. `lo + n − 1`. -/
def bits {w : Nat} (x : BitVec w) (lo n : Nat) : BitVec n := x.extractLsb' lo n

/-- What decoding a syllable gives, in the order of 02_bundles.md Table 2.11 step 3. -/
inductive Dec where
  | ok (i : Instr)
  | illegalOp
  | illegalEnc
  deriving DecidableEq, Repr

/-- The instruction when the encoding's checks hold, else ILLEGAL_ENC (02_bundles.md R47). -/
def enc (c : Bool) (i : Instr) : Dec := if c then .ok i else .illegalEnc

/-- As `enc`, with an operand that may fail to decode. -/
def encO {α : Type} (o : Option α) (c : Bool) (f : α → Instr) : Dec :=
  match o with
  | some a => enc c (f a)
  | none => .illegalEnc

/-- 04_cycles.md Table 4.4. -/
def Cond.dec (v : BitVec 4) : Option Cond :=
  match v.toNat with
  | 0 => some .eq
  | 1 => some .ne
  | 2 => some .lt
  | 3 => some .ge
  | 4 => some .le
  | 5 => some .gt
  | 6 => some .ltn
  | 7 => some .gen
  | 8 => some .len
  | 9 => some .gtn
  | 10 => some .tst
  | 11 => some .ntst
  | _ => none

/-- 04_cycles.md Table 4.4. -/
def Cond.code : Cond → BitVec 4
  | .eq => 0
  | .ne => 1
  | .lt => 2
  | .ge => 3
  | .le => 4
  | .gt => 5
  | .ltn => 6
  | .gen => 7
  | .len => 8
  | .gtn => 9
  | .tst => 10
  | .ntst => 11

/-- 06_vector.md Table 6.5. -/
def VCond.dec (v : BitVec 6) : Option VCond :=
  match v.toNat with
  | 0 => some .eq
  | 1 => some .ne
  | 2 => some .lt
  | 3 => some .le
  | 4 => some .gt
  | 5 => some .ge
  | 6 => some .un
  | 7 => some .ord
  | _ => none

/-- 06_vector.md Table 6.5. -/
def VCond.code : VCond → BitVec 6
  | .eq => 0
  | .ne => 1
  | .lt => 2
  | .le => 3
  | .gt => 4
  | .ge => 5
  | .un => 6
  | .ord => 7

/-- 02_bundles.md Table 2.6. -/
def VTy.dec (v : BitVec 4) : Option VTy :=
  match v.toNat with
  | 0 => some .f32
  | 1 => some .bf16
  | 2 => some .f16
  | 3 => some .fta
  | 4 => some .fto
  | 5 => some .i32
  | 6 => some .n32
  | 7 => some .i16
  | 8 => some .n16
  | 9 => some .i8
  | 10 => some .n8
  | _ => none

/-- 02_bundles.md Table 2.6. -/
def VTy.code : VTy → BitVec 4
  | .f32 => 0
  | .bf16 => 1
  | .f16 => 2
  | .fta => 3
  | .fto => 4
  | .i32 => 5
  | .n32 => 6
  | .i16 => 7
  | .n16 => 8
  | .i8 => 9
  | .n8 => 10

/-- 12_order.md Table 12.5. -/
def AmolOp.dec (v : BitVec 4) : Option AmolOp :=
  match v.toNat with
  | 0 => some .swap
  | 1 => some .add
  | 2 => some .and
  | 3 => some .or
  | 4 => some .xor
  | 5 => some .mins
  | 6 => some .maxs
  | 7 => some .minn
  | 8 => some .maxn
  | 9 => some .cas
  | _ => none

/-- 12_order.md Table 12.5. -/
def AmolOp.code : AmolOp → BitVec 4
  | .swap => 0
  | .add => 1
  | .and => 2
  | .or => 3
  | .xor => 4
  | .mins => 5
  | .maxs => 6
  | .minn => 7
  | .maxn => 8
  | .cas => 9

/-- 12_order.md Table 12.3. -/
def Scope.dec (v : BitVec 2) : Scope :=
  if v = 0 then .core else if v = 1 then .device else if v = 2 then .pod else .system

/-- 12_order.md Table 12.3. -/
def Scope.code : Scope → BitVec 2
  | .core => 0
  | .device => 1
  | .pod => 2
  | .system => 3

/-- 12_order.md Table 12.4. -/
def FenceOrd.dec (v : BitVec 2) : FenceOrd :=
  if v = 0 then .acq else if v = 1 then .rel else if v = 2 then .acqrel else .sc

/-- 12_order.md Table 12.4. -/
def FenceOrd.code : FenceOrd → BitVec 2
  | .acq => 0
  | .rel => 1
  | .acqrel => 2
  | .sc => 3

/-- 12_order.md Table 12.4. -/
def AmoOrd.dec (v : BitVec 2) : AmoOrd :=
  if v = 0 then .none else if v = 1 then .acq else if v = 2 then .rel else .acqrel

/-- 12_order.md Table 12.4. -/
def AmoOrd.code : AmoOrd → BitVec 2
  | .none => 0
  | .acq => 1
  | .rel => 2
  | .acqrel => 3

/-- 04_cycles.md R127. -/
def WaitKind.code : WaitKind → BitVec 4
  | .lcyc => 0
  | .pcc => 1
  | .tag => 2

/-- 14_time_power.md Table 14.2. -/
def PodVar.code : PodVar → BitVec 4
  | .pcc => 0
  | .run => 1
  | .slot => 2

/-- 14_time_power.md Table 14.2. -/
def SlewVar.code : SlewVar → BitVec 4
  | .auto => 0
  | .back => 1
  | .fwd => 2

/-- 15_light.md Table 15.5. -/
def Route.code : Route → BitVec 2
  | .light => 0
  | .wire => 1
  | .auto => 2

/-- A bit as a one-bit field. -/
def bit (b : Bool) : BitVec 1 := BitVec.ofBool b

/-! ## S class -/

/-- The S-class fields of 02_bundles.md Table 2.3. -/
structure SF where
  op : BitVec 8
  d : BitVec 5
  a : BitVec 5
  b : BitVec 5
  v : BitVec 4
  imm : BitVec 32
  deriving DecidableEq, Repr

/-- The S-class fields of a syllable's low 59 bits. -/
def SF.of (w : BitVec 59) : SF :=
  { op := bits w 51 8, d := bits w 46 5, a := bits w 41 5, b := bits w 36 5, v := bits w 32 4, imm := bits w 0 32 }

/-- The low 59 bits of an S-class syllable. -/
def packS (op : BitVec 8) (d a b : BitVec 5) (v : BitVec 4) (imm : BitVec 32) : BitVec 59 :=
  op ++ d ++ a ++ b ++ v ++ imm

/-- A bit-field's position and length are in range, 05_registers.md R142. -/
def fieldOk (pos : BitVec 6) (len : BitVec 7) : Bool :=
  len != 0 && decide (len.toNat ≤ 64) && decide (pos.toNat + len.toNat ≤ 64)

/-- The S-class decoder: 02_bundles.md Table 2.8 with the field tables of 04_cycles.md Table 4.3, 05_registers.md Table
5.6, 12_order.md Table 12.4, 14_time_power.md Table 14.2 and R319, 16_faults.md Table 16.5. -/
def decodeS (f : SF) : Dec :=
  let zd := f.d == 0
  let za := f.a == 0
  let zb := f.b == 0
  let zv := f.v == 0
  let zi := f.imm == 0
  let nat := f.v == 1
  let sn := zv || nat
  let pd := bits f.d 0 4
  let pa := bits f.a 0 4
  let pb := bits f.b 0 4
  let pdOk := decide (f.d.toNat < 16)
  let paOk := decide (f.a.toNat < 16)
  let pbOk := decide (f.b.toNat < 16)
  let lv := bits f.d 0 3
  let lvOk := decide (f.d.toNat < 8)
  let v0 := f.v.getLsbD 0
  let v1 := f.v.getLsbD 1
  let amt := bits f.imm 0 6
  let amtOk := bits f.imm 6 26 == 0
  match f.op.toNat with
  | 0x00 => enc (zd && za && zb && zv && zi) .nop
  | 0x02 => enc (zv && zi) (.add f.d f.a f.b)
  | 0x03 => enc (zb && zv) (.addi f.d f.a f.imm)
  | 0x04 => enc (zv && zi) (.sub f.d f.a f.b)
  | 0x05 => enc (zb && zv) (.subi f.d f.a f.imm)
  | 0x06 => enc (zv && zi) (.mul f.d f.a f.b)
  | 0x07 => enc (zb && zv) (.muli f.d f.a f.imm)
  | 0x08 => enc (sn && zi) (.mulh f.d f.a f.b nat)
  | 0x0A => enc (sn && zi) (.div f.d f.a f.b nat)
  | 0x0C => enc (sn && zi) (.rem f.d f.a f.b nat)
  | 0x0E => enc (zv && zi) (.and f.d f.a f.b)
  | 0x0F => enc (zb && zv) (.andi f.d f.a f.imm)
  | 0x10 => enc (zv && zi) (.or f.d f.a f.b)
  | 0x11 => enc (zb && zv) (.ori f.d f.a f.imm)
  | 0x12 => enc (zv && zi) (.xor f.d f.a f.b)
  | 0x13 => enc (zb && zv) (.xori f.d f.a f.imm)
  | 0x14 => enc (zv && zi) (.andn f.d f.a f.b)
  | 0x16 => enc (zv && zi) (.shl f.d f.a f.b)
  | 0x17 => enc (zb && zv && amtOk) (.shli f.d f.a amt)
  | 0x18 => enc (zv && zi) (.shr f.d f.a f.b)
  | 0x19 => enc (zb && zv && amtOk) (.shri f.d f.a amt)
  | 0x1A => enc (zv && zi) (.sha f.d f.a f.b)
  | 0x1B => enc (zb && zv && amtOk) (.shai f.d f.a amt)
  | 0x1C => enc (zv && zi) (.rot f.d f.a f.b)
  | 0x1D => enc (zb && zv && amtOk) (.roti f.d f.a amt)
  | 0x1E => enc (sn && zi) (.min f.d f.a f.b nat)
  | 0x20 => enc (sn && zi) (.max f.d f.a f.b nat)
  | 0x22 => enc (zb && zv && zi) (.clz f.d f.a)
  | 0x23 => enc (zb && zv && zi) (.ctz f.d f.a)
  | 0x24 => enc (zb && zv && zi) (.popc f.d f.a)
  | 0x26 => enc (zb && sn && bits f.imm 15 17 == 0 && bits f.imm 6 2 == 0 && fieldOk (bits f.imm 0 6) (bits f.imm 8 7))
      (.bfx f.d f.a nat (bits f.imm 0 6) (bits f.imm 8 7))
  | 0x27 => enc (zb && zv && bits f.imm 15 17 == 0 && bits f.imm 6 2 == 0 && fieldOk (bits f.imm 0 6) (bits f.imm 8 7))
      (.bfi f.d f.a (bits f.imm 0 6) (bits f.imm 8 7))
  | 0x28 => enc zi (.sel f.d f.a f.b f.v)
  | 0x2A => encO (Cond.dec f.v) (pdOk && zi) fun c => .cmp c pd f.a f.b
  | 0x2B => encO (Cond.dec f.v) (pdOk && zb) fun c => .cmpi c pd f.a f.imm
  | 0x2C => enc (za && zb && sn) (.li f.d nat f.imm)
  | 0x2D => enc (za && zb && zv) (.lih f.d f.imm)
  | 0x2E => enc (!f.v.getLsbD 3) (.lea f.d f.a f.b (bits f.v 0 3) f.imm)
  | 0x34 => enc (pdOk && paOk && pbOk && bits f.v 2 2 == 0 && zi) (.pand pd pa pb v0 v1)
  | 0x35 => enc (pdOk && paOk && pbOk && bits f.v 2 2 == 0 && zi) (.por pd pa pb v0 v1)
  | 0x36 => enc (pdOk && paOk && pbOk && bits f.v 2 2 == 0 && zi) (.pxor pd pa pb v0 v1)
  | 0x37 => enc (pdOk && paOk && zb && zv && zi) (.pnot pd pa)
  | 0x38 =>
    if f.v == 0 then enc (pdOk && paOk && zb && zi) (.pmov pd pa)
    else if f.v == 1 then enc (za && zb && zi) (.pmovGet f.d)
    else enc (f.v == 2 && zd && zb && zi) (.pmovPut f.a)
  | 0x40 => enc (zb && !f.v.getLsbD 3 && !(f.v.getLsbD 2 && bits f.v 0 2 == 3))
      (.ld f.d f.a (f.v.getLsbD 2) (bits f.v 0 2) f.imm)
  | 0x41 => enc (zd && bits f.v 2 2 == 0) (.st f.a f.b (bits f.v 0 2) f.imm)
  | 0x42 => enc zb (.ldk f.d f.a (f.v.getLsbD 3) (bits f.v 0 3) f.imm)
  | 0x48 => enc (bits f.b 2 3 == 0 && (f.v.getLsbD 3 || zb) && !(f.v.getLsbD 2 && bits f.v 0 2 == 3))
      (.ldf f.d f.a (if f.v.getLsbD 3 then some (Scope.dec (bits f.b 0 2)) else none) (f.v.getLsbD 2) (bits f.v 0 2) f.imm)
  | 0x49 => enc (bits f.d 2 3 == 0 && (f.v.getLsbD 3 || zd) && !f.v.getLsbD 2)
      (.stf f.a f.b (if f.v.getLsbD 3 then some (Scope.dec (bits f.d 0 2)) else none) (bits f.v 0 2) f.imm)
  | 0x4A => enc (bits f.imm 5 27 == 0)
      (.amo f.d f.a f.b (AmoOrd.dec (bits f.v 2 2)) (Scope.dec (bits f.v 0 2)) (bits f.imm 0 5))
  | 0x4B => encO (AmolOp.dec f.v) (bits f.imm 25 7 == 0) fun o =>
      .amol o f.d f.a f.b (f.imm.getLsbD 24) (bits f.imm 0 24)
  | 0x4C => enc (za && zb && zi) (.fence f.d (FenceOrd.dec (bits f.v 2 2)) (Scope.dec (bits f.v 0 2)))
  | 0x50 => enc (zd && zb && zv) (.br f.a f.imm)
  | 0x51 => enc (zd && za && zb && zv) (.bri f.imm)
  | 0x52 => enc (zb && zv) (.call f.d f.a f.imm)
  | 0x53 => enc (za && zb && zv) (.calli f.d f.imm)
  | 0x54 => enc (lvOk && bits f.v 2 2 == 0 && (v0 || zb)) (.loop lv f.a f.b v1 v0 f.imm)
  | 0x55 => enc (lvOk && za && bits f.v 2 2 == 0 && (v0 || zb) && bits f.imm 0 16 != 0)
      (.loopi lv f.b v1 v0 (bits f.imm 16 16) (bits f.imm 0 16))
  | 0x60 => enc (za && zb && zv && bits f.imm 12 20 == 0) (.rdsr f.d (bits f.imm 0 12))
  | 0x61 => enc (zd && zb && zv && bits f.imm 12 20 == 0) (.wrsr f.a (bits f.imm 0 12))
  | 0x62 =>
    if f.v == 0 then enc (za && zb && zi) (.rdpod f.d .pcc)
    else if f.v == 1 then enc (za && zb && zi) (.rdpod f.d .run)
    else enc (f.v == 2 && za && zb && zi) (.rdpod f.d .slot)
  | 0x63 =>
    if f.v == 0 then enc (za && zb && zi) (.slew f.d .auto)
    else if f.v == 1 then enc (za && zb && zi) (.slew f.d .back)
    else enc (f.v == 2 && za && zb && zi) (.slew f.d .fwd)
  | 0x64 => enc (zd && zb && bits f.v 1 3 == 0 && bits f.imm 10 22 == 0 &&
        (if v0 then decide (4 ≤ (bits f.imm 4 5).toNat) && decide ((bits f.imm 4 5).toNat ≤ 16)
         else bits f.imm 4 6 == 0))
      (.phase f.a v0 (bits f.imm 0 4) (bits f.imm 4 5) (f.imm.getLsbD 9))
  | 0x65 =>
    if f.v == 0 then enc zb (.wait .lcyc f.d f.a f.b f.imm)
    else if f.v == 1 then enc zb (.wait .pcc f.d f.a f.b f.imm)
    else enc (f.v == 2) (.wait .tag f.d f.a f.b f.imm)
  | 0x66 =>
    if f.v == 0 then enc (za && zb && bits f.imm 3 29 == 0) (.barArr f.d (bits f.imm 0 3))
    else if f.v == 1 then enc (zb && bits f.imm 3 29 == 0) (.barWait f.d f.a (bits f.imm 0 3))
    else enc (f.v == 2 && za && zb && bits f.imm 3 29 == 0) (.barAw f.d (bits f.imm 0 3))
  | 0x67 => enc (zd && za && zb && zv && zi) .tend
  | 0x68 => enc (zd && za && zb && zv) (.trap f.imm)
  | 0x69 => enc (zd && za && zb && zv) (.brk f.imm)
  | 0x6A => enc (zb && zv && zi) (.launch f.d f.a)
  | 0x6B => enc (za && zb && zv && bits f.imm 8 24 == 0) (.tkwait f.d (bits f.imm 0 8))
  | 0x6C => enc (zd && zb && zv && bits f.imm 6 26 == 0 && amt != 0 && decide (amt.toNat ≤ 32) &&
        decide (f.a.toNat + amt.toNat ≤ 32)) (.pushm f.a amt)
  | 0x6D => enc (za && zb && zv && bits f.imm 6 26 == 0 && amt != 0 && decide (amt.toNat ≤ 32) &&
        decide (f.d.toNat + amt.toNat ≤ 32)) (.popm f.d amt)
  | 0x6E =>
    if f.v == 0 then enc (zb && bits f.imm 3 29 == 0) (.rdfrCore f.d f.a (bits f.imm 0 3))
    else enc (f.v == 1 && za && zb && bits f.imm 3 29 == 0) (.rdfrCause f.d (bits f.imm 0 3))
  | 0x6F => enc (za && zb && zv && zi) (.thaw f.d)
  | 0x70 => enc (zd && za && zb && zv) (.abort f.imm)
  | 0x72 => enc (za && zb && sn && decide (f.imm.toNat < 6)) (.wfld f.d nat (bits f.imm 0 3))
  | _ => .illegalOp

/-! ## V class -/

/-- The V-class fields of 02_bundles.md Table 2.3. -/
structure VF where
  op : BitVec 7
  vd : BitVec 6
  va : BitVec 6
  b : BitVec 7
  vc : BitVec 6
  ty : BitVec 4
  q : BitVec 3
  imm : BitVec 20
  deriving DecidableEq, Repr

/-- The V-class fields of a syllable's low 59 bits. -/
def VF.of (w : BitVec 59) : VF :=
  { op := bits w 52 7, vd := bits w 46 6, va := bits w 40 6, b := bits w 33 7, vc := bits w 27 6, ty := bits w 23 4,
    q := bits w 20 3, imm := bits w 0 20 }

/-- The low 59 bits of a V-class syllable. -/
def packV (op : BitVec 7) (vd va : BitVec 6) (b : BitVec 7) (vc : BitVec 6) (ty : BitVec 4) (q : BitVec 3)
    (imm : BitVec 20) : BitVec 59 :=
  op ++ vd ++ va ++ b ++ vc ++ ty ++ q ++ imm

/-- Operand B from its code and imm20 in a bundle of `nlit` literal words, 02_bundles.md Table 2.4. When `free`, the form
uses imm20 for itself as well and the field is not checked (06_vector.md R173). -/
def OpB.dec (nlit : Nat) (free : Bool) (b : BitVec 7) (imm : BitVec 20) : Option OpB :=
  let z := free || imm == 0
  if b.toNat < 0x40 then (if z then some (.v (bits b 0 6)) else none)
  else if b.toNat < 0x48 then (if z && decide ((bits b 0 3).toNat < nlit) then some (.lit (bits b 0 3)) else none)
  else if b.toNat = 0x48 then some (.imm imm)
  else if b.toNat < 0x50 then none
  else if b.toNat < 0x58 then (if bits imm 12 8 == 0 then some (.win (bits b 0 3) (bits imm 0 12)) else none)
  else if b.toNat < 0x60 then none
  else if z then some (.x (bits b 0 5)) else none

/-- The code of operand B, 02_bundles.md Table 2.4. -/
def OpB.code : OpB → BitVec 7
  | .v r => 0#1 ++ r
  | .lit i => 0x8#4 ++ i
  | .imm _ => 0x48
  | .win w _ => 0xA#4 ++ w
  | .x r => 3#2 ++ r

/-- The imm20 field an operand B fills, 02_bundles.md Table 2.4. -/
def OpB.field : OpB → BitVec 20
  | .imm i => i
  | .win _ i => 0#8 ++ i
  | _ => 0

/-- The base register of a memory form, 06_vector.md R160. -/
def baseReg (b : BitVec 7) : Option XReg := if 0x60 ≤ b.toNat then some (bits b 0 5) else none

/-- The type when it is of the group, 02_bundles.md R51. -/
def tyIn (g : VTy → Bool) (ty : BitVec 4) : Option VTy :=
  match VTy.dec ty with
  | some t => if g t then some t else none
  | none => none

/-- Two-source forms. -/
def decBin (nlit : Nat) (f : VF) (g : VTy → Bool) (k : VBin → Instr) : Dec :=
  match tyIn g f.ty, OpB.dec nlit false f.b f.imm with
  | some t, some b => enc (f.vc == 0) (k { t := t, vd := f.vd, va := f.va, b := b, q := f.q })
  | _, _ => .illegalEnc

/-- Three-source forms. -/
def decTri (nlit : Nat) (f : VF) (k : VTri → Instr) : Dec :=
  match tyIn VTy.isFp f.ty, OpB.dec nlit false f.b f.imm with
  | some t, some b => .ok (k { t := t, vd := f.vd, va := f.va, b := b, vc := f.vc, q := f.q })
  | _, _ => .illegalEnc

/-- One-source forms. -/
def decUn (f : VF) (g : VTy → Bool) (k : VUn → Instr) : Dec :=
  match tyIn g f.ty with
  | some t => enc (f.b == 0 && f.vc == 0 && f.imm == 0) (k { t := t, vd := f.vd, va := f.va, q := f.q })
  | none => .illegalEnc

/-- Compares into a lane mask. -/
def decCmp (nlit : Nat) (f : VF) (g : VTy → Bool) (fp : Bool) (k : VCmp → Instr) : Dec :=
  match tyIn g f.ty, OpB.dec nlit false f.b f.imm, VCond.dec f.vc with
  | some t, some b, some c =>
    enc (bits f.vd 3 3 == 0 && (fp || decide (f.vc.toNat < 6)))
      (k { t := t, qd := bits f.vd 0 3, va := f.va, b := b, cond := c, q := f.q })
  | _, _, _ => .illegalEnc

/-- A type with an immediate lane index in range, 06_vector.md R160. -/
def laneOk (t : VTy) (imm : BitVec 20) : Bool := bits imm 8 12 == 0 && decide ((bits imm 0 8).toNat < t.lanes)

/-- Every type, group ALL of 06_vector.md Table 6.1. -/
def anyTy (_ : VTy) : Bool := true

/-- The expected-tag register of a .tc form, 06_vector.md R178: `none` is a bad field. -/
def tcField (vc : BitVec 6) : Option (Option XReg) :=
  if vc.getLsbD 5 then some (some (bits vc 0 5)) else if vc == 0 then some none else none

/-- Lane-mask register forms: no type, no mask. -/
def decQ (f : VF) (two : Bool) (k : QReg → QReg → QReg → Instr) : Dec :=
  enc (bits f.vd 3 3 == 0 && bits f.va 3 3 == 0 && f.b == 0 && f.ty == 0 && f.q == 0 && f.imm == 0 &&
      (if two then bits f.vc 3 3 == 0 else f.vc == 0))
    (k (bits f.vd 0 3) (bits f.va 0 3) (bits f.vc 0 3))

/-- The V-class decoder: 02_bundles.md Table 2.9 with 06_vector.md Table 6.2, in a bundle of `nlit` literal words. SCNT and
VEXT take any lane mask, which they do not use (06_vector.md R160 names SPOP and the mask forms alone as needing q0; DESIGN
CHOICE, log 28). -/
def decodeV (nlit : Nat) (f : VF) : Dec :=
  let fint := fun t => VTy.isFp t || VTy.isInt t
  match f.op.toNat with
  | 0x00 => enc (f.vd == 0 && f.va == 0 && f.b == 0 && f.vc == 0 && f.ty == 0 && f.q == 0 && f.imm == 0) .vnop
  | 0x01 => decBin nlit f VTy.isFp .fadd
  | 0x02 => decBin nlit f VTy.isFp .fsub
  | 0x03 => decBin nlit f VTy.isFp .fmul
  | 0x04 => decTri nlit f .fma
  | 0x05 => decTri nlit f .fms
  | 0x06 => decTri nlit f .fnma
  | 0x07 => decBin nlit f VTy.isFp .fmin
  | 0x08 => decBin nlit f VTy.isFp .fmax
  | 0x09 => decUn f VTy.isFp .fabs
  | 0x0A => decUn f VTy.isFp .fneg
  | 0x0B => decCmp nlit f VTy.isFp true .fcmp
  | 0x0C => decUn f VTy.isFp .frcp
  | 0x0D => decUn f VTy.isFp .frsq
  | 0x0E => decUn f VTy.isFp .fexp2
  | 0x0F => decUn f VTy.isFp .flog2
  | 0x18 => decBin nlit f VTy.isInt .iadd
  | 0x19 => decBin nlit f VTy.isInt .isub
  | 0x1A => decBin nlit f VTy.isInt .imul
  | 0x1B => decBin nlit f VTy.isInt .imulh
  | 0x1C => decBin nlit f VTy.isInt .imin
  | 0x1D => decBin nlit f VTy.isInt .imax
  | 0x1E => decUn f VTy.isSint .iabs
  | 0x1F => decBin nlit f VTy.isInt .vand
  | 0x20 => decBin nlit f VTy.isInt .vor
  | 0x21 => decBin nlit f VTy.isInt .vxor
  | 0x22 => decBin nlit f VTy.isInt .vshl
  | 0x23 => decBin nlit f VTy.isInt .vshr
  | 0x24 => decBin nlit f VTy.isInt .vsha
  | 0x25 => decUn f VTy.isInt .vpopc
  | 0x26 => decUn f VTy.isInt .vclz
  | 0x27 => decCmp nlit f VTy.isInt false .icmp
  | 0x28 => decBin nlit f VTy.isInt .iadds
  | 0x29 => decBin nlit f VTy.isInt .isubs
  | 0x30 =>
    match VTy.dec f.ty, OpB.dec nlit false f.b f.imm with
    | some t, some b => enc (f.va == 0 && f.vc == 0) (.vmov { t := t, vd := f.vd, b := b, q := f.q })
    | _, _ => .illegalEnc
  | 0x31 =>
    match VTy.dec f.ty, VTy.dec (bits f.vc 0 4) with
    | some s, some d =>
      enc (f.b == 0 && bits f.imm 2 18 == 0 &&
          decide ((bits f.imm 0 2).toNat * Nat.min s.bytes d.bytes < Nat.max s.bytes d.bytes) &&
          !(f.vc.getLsbD 5 && !(d == .bf16 || d == .f16 || d.isB8)))
        (.cvt { s := s, d := d, sat := f.vc.getLsbD 4, sr := f.vc.getLsbD 5, vd := f.vd, va := f.va,
                h := bits f.imm 0 2, q := f.q })
    | _, _ => .illegalEnc
  | 0x32 =>
    match VTy.dec f.ty, OpB.dec nlit false f.b f.imm with
    | some t, some b => enc (bits f.vc 3 3 == 0) (.vsel { t := t, vd := f.vd, va := f.va, b := b, q := f.q } (bits f.vc 0 3))
    | _, _ => .illegalEnc
  | 0x33 =>
    match tyIn VTy.isInt f.ty, OpB.dec nlit false f.b f.imm with
    | some t, some b => enc (f.va == 0 && f.vc == 0) (.viota { t := t, vd := f.vd, b := b, q := f.q })
    | _, _ => .illegalEnc
  | 0x38 => decBin nlit f anyTy .perm
  | 0x39 =>
    match VTy.dec f.ty with
    | some t => enc (f.b == 0 && f.vc == 0 && laneOk t f.imm)
        (.rotl { t := t, vd := f.vd, va := f.va, q := f.q } (bits f.imm 0 8))
    | none => .illegalEnc
  | 0x3A =>
    match VTy.dec f.ty with
    | some t => enc (f.b == 0 && f.vc == 0 && laneOk t f.imm)
        (.bcast { t := t, vd := f.vd, va := f.va, q := f.q } (bits f.imm 0 8))
    | none => .illegalEnc
  | 0x3B =>
    match VTy.dec f.ty, OpB.dec nlit true f.b f.imm with
    | some t, some b => enc (f.vc == 0 && bits f.imm 1 19 == 0)
        (.zip { t := t, vd := f.vd, va := f.va, vb := b, h := f.imm.getLsbD 0, q := f.q })
    | _, _ => .illegalEnc
  | 0x3C =>
    match VTy.dec f.ty, OpB.dec nlit true f.b f.imm with
    | some t, some b => enc (f.vc == 0 && bits f.imm 1 19 == 0)
        (.unzip { t := t, vd := f.vd, va := f.va, vb := b, h := f.imm.getLsbD 0, q := f.q })
    | _, _ => .illegalEnc
  | 0x40 => decUn f fint .rsum
  | 0x41 => decUn f fint .rmin
  | 0x42 => decUn f fint .rmax
  | 0x43 => decUn f fint .rmini
  | 0x44 => decUn f fint .scan
  | 0x46 =>
    match VTy.dec f.ty with
    | some t => enc (f.vd.getLsbD 5 == false && f.b == 0 && f.vc == 0 && laneOk t f.imm)
        (.vext t (bits f.vd 0 5) f.va (bits f.imm 0 8) f.q)
    | none => .illegalEnc
  | 0x47 =>
    match VTy.dec f.ty, OpB.dec nlit true f.b f.imm with
    | some t, some b => enc (f.va == 0 && f.vc == 0 && laneOk t f.imm)
        (.vins { t := t, vd := f.vd, b := b, q := f.q } (bits f.imm 0 8))
    | _, _ => .illegalEnc
  | 0x48 => decBin nlit f (fun t => t == .i32 || t == .n32) .vhash
  | 0x50 =>
    match VTy.dec f.ty, baseReg f.b, tcField f.vc with
    | some t, some xb, some tc => enc (f.va == 0)
        (.vld { t := t, vd := f.vd, xb := xb, tc := tc, imm := f.imm, q := f.q })
    | _, _, _ => .illegalEnc
  | 0x51 =>
    match VTy.dec f.ty, baseReg f.b with
    | some t, some xb => enc (f.va == 0 && f.vc == 0)
        (.vst { t := t, vd := f.vd, xb := xb, tc := none, imm := f.imm, q := f.q })
    | _, _ => .illegalEnc
  | 0x52 =>
    match VTy.dec f.ty, baseReg f.b with
    | some t, some xb => enc (f.va == 0 && f.vc.getLsbD 5 == false)
        (.vlds { t := t, vd := f.vd, xb := xb, xs := bits f.vc 0 5, imm := f.imm, q := f.q })
    | _, _ => .illegalEnc
  | 0x53 =>
    match VTy.dec f.ty, baseReg f.b with
    | some t, some xb => enc (f.va == 0 && f.vc.getLsbD 5 == false)
        (.vsts { t := t, vd := f.vd, xb := xb, xs := bits f.vc 0 5, imm := f.imm, q := f.q })
    | _, _ => .illegalEnc
  | 0x54 =>
    match VTy.dec f.ty, baseReg f.b, tcField f.vc with
    | some t, some xb, some tc => .ok
        (.vgath { t := t, vd := f.vd, va := f.va, xb := xb, tc := tc, imm := f.imm, q := f.q })
    | _, _, _ => .illegalEnc
  | 0x55 =>
    match VTy.dec f.ty, baseReg f.b with
    | some t, some xb => enc (f.vc == 0)
        (.vscat { t := t, vd := f.vd, va := f.va, xb := xb, tc := none, imm := f.imm, q := f.q })
    | _, _ => .illegalEnc
  | 0x56 =>
    match tyIn VTy.isInt f.ty with
    | some t => enc (f.b == 0 && bits f.vc 3 3 == 0)
        (.vgathk { t := t, vd := f.vd, va := f.va, q := f.q } (bits f.vc 0 3) f.imm)
    | none => .illegalEnc
  | 0x58 =>
    match VTy.dec f.ty with
    | some t => enc (f.vd == 0 && f.b == 0 && bits f.vc 2 4 == 0 && f.imm == 0) (.spush t f.va (bits f.vc 0 2) f.q)
    | none => .illegalEnc
  | 0x59 =>
    match VTy.dec f.ty with
    | some t => enc (f.va == 0 && f.b == 0 && f.vc.getLsbD 5 == false && f.q == 0 && f.imm == 0)
        (.spop t f.vd (bits f.vc 2 3) (bits f.vc 0 2))
    | none => .illegalEnc
  | 0x5A =>
    match VTy.dec f.ty with
    | some t => enc (f.vd.getLsbD 5 == false && f.va == 0 && f.b == 0 && bits f.vc 2 4 == 0 && f.imm == 0)
        (.scnt t (bits f.vd 0 5) (bits f.vc 0 2) f.q)
    | none => .illegalEnc
  | 0x60 => decQ f true .qand
  | 0x61 => decQ f true .qor
  | 0x62 => decQ f true .qxor
  | 0x63 => decQ f false fun d a _ => .qnot d a
  | 0x64 =>
    match VTy.dec f.ty with
    | some t => enc (f.vd.getLsbD 5 == false && bits f.va 3 3 == 0 && f.b == 0 && f.vc == 0 && f.q == 0 && f.imm == 0)
        (.qpopMask t (bits f.vd 0 5) (bits f.va 0 3))
    | none => .illegalEnc
  | 0x65 =>
    match VTy.dec f.ty with
    | some t => enc (f.vd.getLsbD 5 == false && bits f.va 3 3 == 0 && f.b == 0 && f.vc == 0 && f.q == 0 && f.imm == 0)
        (.qfirst t (bits f.vd 0 5) (bits f.va 0 3))
    | none => .illegalEnc
  | 0x66 =>
    match VTy.dec f.ty with
    | some t => enc (bits f.vd 4 2 == 0 && bits f.va 3 3 == 0 && f.b == 0 && f.vc == 0 && f.q == 0 && f.imm == 0)
        (.qany t (bits f.vd 0 4) (bits f.va 0 3))
    | none => .illegalEnc
  | _ => .illegalOp

/-! ## M and Z classes -/

/-- The M-class fields of 02_bundles.md Table 2.3. -/
structure MF where
  op : BitVec 8
  d : BitVec 4
  a : BitVec 4
  b : BitVec 4
  acc : BitVec 3
  v : BitVec 4
  imm : BitVec 32
  deriving DecidableEq, Repr

/-- The M-class fields of a syllable's low 59 bits. -/
def MF.of (w : BitVec 59) : MF :=
  { op := bits w 51 8, d := bits w 47 4, a := bits w 43 4, b := bits w 39 4, acc := bits w 36 3, v := bits w 32 4,
    imm := bits w 0 32 }

/-- The low 59 bits of an M-class syllable. -/
def packM (op : BitVec 8) (d a b : BitVec 4) (acc : BitVec 3) (v : BitVec 4) (imm : BitVec 32) : BitVec 59 :=
  op ++ d ++ a ++ b ++ acc ++ v ++ imm

/-- The M-class decoder, 08_matrix.md Table 8.3. -/
def decodeM (f : MF) : Dec :=
  let aOk := f.d.getLsbD 3 == false
  let aD := bits f.d 0 3
  let z1 := bits f.v 1 3 == 0
  let v0 := f.v.getLsbD 0
  match f.op.toNat with
  | 0x00 => enc (f.d == 0 && f.a == 0 && f.b == 0 && f.acc == 0 && f.v == 0 && f.imm == 0) .mnop
  | 0x01 => enc (aOk && f.acc == 0 && bits f.v 2 2 == 0 && f.imm == 0) (.mma aD f.a f.b (f.v.getLsbD 1) v0)
  | 0x02 => enc (aOk && f.acc == 0 && bits f.v 2 2 == 0 && f.imm == 0) (.mmat aD f.a f.b (f.v.getLsbD 1) v0)
  | 0x03 => enc ((v0 || aOk) && f.a == 0 && f.b == 0 && f.acc == 0 && z1 && f.imm == 0) (.mzero v0 f.d)
  | 0x04 => enc ((v0 || f.a == 0) && f.acc == 0 && z1) (.mld f.d (if v0 then some f.a else none) f.b f.imm)
  | 0x05 => enc (f.d == 0 && f.acc == 0 && f.v == 0) (.mst f.a f.b f.imm)
  | 0x06 => enc (f.d == 0 && f.a == 0 && f.v == 0) (.macs f.b f.acc f.imm)
  | 0x07 => enc (f.a == 0 && f.b == 0 && z1 && bits f.imm 5 27 == 0 && (v0 || !f.imm.getLsbD 4))
      (.mcvt f.d f.acc v0 (f.imm.getLsbD 4) (bits f.imm 0 4))
  | 0x08 => enc (aOk && f.a == 0 && f.acc == 0 && f.v == 0) (.mlda aD f.b f.imm)
  | 0x09 => enc (f.b == 0 && f.acc == 0 && f.v == 0 && f.imm == 0) (.mtrn f.d f.a)
  | _ => .illegalOp

/-- The Z-class fields of 02_bundles.md Table 2.3. -/
structure ZF where
  op : BitVec 8
  va : BitVec 6
  idx : BitVec 4
  v : BitVec 4
  mbz : BitVec 5
  imm : BitVec 32
  deriving DecidableEq, Repr

/-- The Z-class fields of a syllable's low 59 bits. -/
def ZF.of (w : BitVec 59) : ZF :=
  { op := bits w 51 8, va := bits w 45 6, idx := bits w 41 4, v := bits w 37 4, mbz := bits w 32 5, imm := bits w 0 32 }

/-- The low 59 bits of a Z-class syllable. -/
def packZ (op : BitVec 8) (va : BitVec 6) (idx : BitVec 4) (imm : BitVec 32) : BitVec 59 :=
  op ++ va ++ idx ++ (0#9) ++ imm

/-- A format-table entry that the table accepts, 03_numbers.md R87. -/
def fmtOk (v : BitVec 32) : Bool :=
  bits v 0 3 != 0 && bits v 5 3 != 0 && bits v 10 3 != 0 && bits v 16 2 != 3 && bits v 19 2 != 3 && bits v 21 11 == 0

/-- The Z-class decoder, 08_matrix.md Table 8.4, with the value checks of R202. -/
def decodeZ (f : ZF) : Dec :=
  let zz := f.v == 0 && f.mbz == 0
  match f.op.toNat with
  | 0x00 => enc (f.va == 0 && f.idx == 0 && zz && f.imm == 0) .znop
  | 0x01 => enc (decide (f.idx.toNat < 4) && zz && f.imm == 0) (.zscla f.va (bits f.idx 0 2))
  | 0x02 => enc (decide (f.idx.toNat < 4) && zz && f.imm == 0) (.zsclb f.va (bits f.idx 0 2))
  | 0x03 => enc (f.va == 0 && zz && bits f.imm 16 16 == 0) (.ztab f.idx (bits f.imm 0 16))
  | 0x04 => enc (f.va == 0 && zz && fmtOk f.imm) (.zfmt f.idx f.imm)
  | 0x05 => enc (f.va == 0 && f.idx == 0 && zz && bits f.imm 9 23 == 0 && f.imm.getLsbD 3 == false &&
        !(f.imm.getLsbD 8 && decide (6 ≤ (bits f.imm 0 3).toNat)))
      (.zfsel (f.imm.getLsbD 8) (bits f.imm 4 4) (bits f.imm 0 3))
  | _ => .illegalOp

/-! ## C class -/

/-- The C-class fields of 02_bundles.md Table 2.3. -/
structure CF where
  op : BitVec 8
  xa : BitVec 5
  xb : BitVec 5
  xc : BitVec 5
  fl : BitVec 8
  imm : BitVec 28
  deriving DecidableEq, Repr

/-- The C-class fields of a syllable's low 59 bits. -/
def CF.of (w : BitVec 59) : CF :=
  { op := bits w 51 8, xa := bits w 46 5, xb := bits w 41 5, xc := bits w 36 5, fl := bits w 28 8, imm := bits w 0 28 }

/-- The low 59 bits of a C-class syllable. -/
def packC (op : BitVec 8) (xa xb xc : BitVec 5) (fl : BitVec 8) (imm : BitVec 28) : BitVec 59 :=
  op ++ xa ++ xb ++ xc ++ fl ++ imm

/-- The follow-on pair of 09_pool.md Table 9.3 in a bundle of `nlit` literal words; `none` is a bad field. -/
def foField (nlit : Nat) (fl : BitVec 8) : Option (Option (BitVec 2)) :=
  if fl.getLsbD 7 then
    (if 2 * (bits fl 5 2).toNat + 2 ≤ nlit then some (some (bits fl 5 2)) else none)
  else if bits fl 5 2 == 0 then some none else none

/-- The decode slot of 09_pool.md Table 9.3; `none` is a bad field. -/
def decField (fl : BitVec 8) : Option (Option (BitVec 2)) :=
  if fl.getLsbD 4 then some (some (bits fl 2 2)) else if bits fl 2 2 == 0 then some none else none

/-- The seven flag bits FO, FP, DEC and slot of 09_pool.md Table 9.3. -/
def foDecBits (fo dec : Option (BitVec 2)) : BitVec 6 :=
  bit fo.isSome ++ fo.getD 0 ++ bit dec.isSome ++ dec.getD 0

/-- A C-class count field in range, 15_light.md R344. -/
def cntOk (c : BitVec 4) : Bool := decide (c.toNat < 12)

/-- A lane field in range, 15_light.md R344. -/
def laneFieldOk (l : BitVec 4) : Bool := decide (l.toNat < 14)

/-- The C-class decoder: 02_bundles.md Table 2.10 with 05_registers.md R150, 09_pool.md Table 9.2, 10_channels.md Table
10.9, 12_order.md R299 and 15_light.md Table 15.5, in a bundle of `nlit` literal words. -/
def decodeC (nlit : Nat) (f : CF) : Dec :=
  match f.op.toNat with
  | 0x00 => enc (f.xa == 0 && f.xb == 0 && f.xc == 0 && f.fl == 0 && f.imm == 0) .cnop
  | 0x01 =>
    match foField nlit f.fl, decField f.fl with
    | some fo, some dec =>
      enc (bits f.fl 0 2 == 0 && f.imm != 0 && decide (f.imm.toNat ≤ 0x180000) &&
          (dec.isNone || bits f.imm 0 12 == 0))
        (.cpl { xa := f.xa, xb := f.xb, xc := f.xc, fo := fo, dec := dec, n := f.imm })
    | _, _ => .illegalEnc
  | 0x02 =>
    match foField nlit f.fl with
    | some fo =>
      enc (bits f.fl 2 3 == 0 && bits f.imm 0 20 != 0 && decide (2 * (bits f.fl 0 2).toNat + 2 ≤ nlit) &&
          fo != some (bits f.fl 0 2))
        (.cpv { xa := f.xa, xb := f.xb, xc := f.xc, fo := fo, sp := bits f.fl 0 2, rows := bits f.imm 20 8,
                m := bits f.imm 0 20 })
    | none => .illegalEnc
  | 0x03 =>
    match foField nlit f.fl, decField f.fl with
    | some fo, some dec =>
      enc (f.xb == 0 && !(dec.isSome && f.fl.getLsbD 1) && (f.fl.getLsbD 1 || !f.fl.getLsbD 0) && bits f.imm 0 13 != 0)
        (.chr { xa := f.xa, xc := f.xc, fo := fo, dec := dec, s := f.fl.getLsbD 1, l := f.fl.getLsbD 0,
                chan := bits f.imm 18 10, q := bits f.imm 13 5, n := bits f.imm 0 13 })
    | _, _ => .illegalEnc
  | 0x04 => enc (f.xb == 0 && f.xc == 0 && bits f.fl 2 6 == 0 && (f.fl.getLsbD 1 || !f.fl.getLsbD 0) && bits f.imm 0 13 != 0)
      (.chw { xa := f.xa, s := f.fl.getLsbD 1, l := f.fl.getLsbD 0, chan := bits f.imm 18 10, q := bits f.imm 13 5,
              n := bits f.imm 0 13 })
  | 0x05 => enc (f.xb == 0 && f.xc == 0 && f.fl == 0 && f.imm == 0) (.cpi f.xa)
  | 0x06 => enc (f.xb == 0 && f.xc == 0 && f.fl == 0 && bits f.imm 2 26 == 0) (.dtab f.xa (bits f.imm 0 2))
  | 0x08 => enc (f.xb == 0 && f.xc == 0 && bits f.fl 0 4 == 0 && spillOk (f.fl.getLsbD 7) f.imm)
      (.spb (spillArgs f))
  | 0x09 => enc (f.xb == 0 && f.xc == 0 && bits f.fl 0 4 == 0 && spillOk (f.fl.getLsbD 7) f.imm)
      (.fla (spillArgs f))
  | 0x10 => enc (bits f.fl 1 7 == 0 && bits f.imm 0 14 == 0 && cntOk (bits f.imm 18 4) && laneFieldOk (bits f.imm 22 4) &&
        !(f.fl.getLsbD 0 && !(bits f.imm 18 4 == 0 && bits f.imm 14 4 == 0)))
      (.lsend { xa := f.xa, xb := f.xb, xc := f.xc, s := f.fl.getLsbD 0, port := bits f.imm 26 2, lane := bits f.imm 22 4,
                cnt := bits f.imm 18 4, m := bits f.imm 14 4 })
  | 0x11 => enc (f.xb == 0 && f.fl == 0 && bits f.imm 20 8 == 0 && bits f.imm 0 20 != 0) (.lrecv f.xa f.xc (bits f.imm 0 20))
  | 0x12 => enc (bits f.fl 2 6 == 0 && bits f.fl 0 2 != 3 && bits f.imm 0 18 == 0 && cntOk (bits f.imm 18 4) &&
        laneFieldOk (bits f.imm 22 4))
      (.qsend { xa := f.xa, xb := f.xb, xc := f.xc,
                route := if bits f.fl 0 2 == 0 then .light else if bits f.fl 0 2 == 1 then .wire else .auto,
                port := bits f.imm 26 2, lane := bits f.imm 22 4, cnt := bits f.imm 18 4 })
  | 0x13 => enc (f.fl == 0 && f.imm == 0) (.qpopCask f.xa f.xb f.xc)
  | 0x14 => enc (f.fl == 0 && bits f.imm 9 19 == 0 && decide ((bits f.imm 0 9).toNat < 256))
      (.esend f.xa f.xb f.xc (bits f.imm 0 9))
  | 0x15 => enc (f.fl == 0 && bits f.imm 15 13 == 0 && decide ((bits f.imm 0 9).toNat < 256))
      (.emcast f.xa f.xb f.xc (bits f.imm 9 6) (bits f.imm 0 9))
  | 0x18 => enc (f.fl == 0 && f.imm == 0) (.qapp f.xa f.xb f.xc)
  | 0x19 =>
    if bits f.fl 0 2 == 0 then enc (f.xb == 0 && bits f.fl 2 6 == 0 && f.imm == 0) (.drainMark f.xa f.xc)
    else if bits f.fl 0 2 == 1 then enc (f.xb == 0 && bits f.fl 2 6 == 0 && f.imm == 0) (.drainPoll f.xa f.xc)
    else enc (bits f.fl 0 2 == 2 && f.xb == 0 && bits f.fl 2 6 == 0 && f.imm == 0) (.drainRelease f.xa f.xc)
  | _ => .illegalOp
where
  /-- The operand record of SPB and FLA, 05_registers.md R150. -/
  spillArgs (f : CF) : SpillArgs :=
    { xa := f.xa, vec := f.fl.getLsbD 7, tok := bits f.fl 4 3, f := bits f.imm 22 6, n := bits f.imm 15 7,
      off := bits f.imm 0 15 }
  /-- The decode checks of SPB and FLA, 05_registers.md R150. -/
  spillOk (vec : Bool) (imm : BitVec 28) : Bool :=
    bits imm 15 7 != 0 && decide ((bits imm 15 7).toNat ≤ 64) &&
      (if vec then bits imm 0 6 == 0
       else decide ((bits imm 22 6).toNat + (bits imm 15 7).toNat ≤ 32) && bits imm 0 3 == 0)

/-! ## Bundles -/

/-- The header word of a bundle, 02_bundles.md Table 2.2. -/
structure Header where
  yieldPt : Bool
  lastOnly : BitVec 7
  firstOnly : BitVec 7
  stall : BitVec 5
  nlit : BitVec 3
  mask : BitVec 7
  deriving DecidableEq, Repr

/-- The header of a word, `none` for ILLEGAL_ENC (02_bundles.md Table 2.2). -/
def Header.dec (w : BitVec 32) : Option Header :=
  let h : Header :=
    { yieldPt := w.getLsbD 29, lastOnly := bits w 22 7, firstOnly := bits w 15 7, stall := bits w 10 5, nlit := bits w 7 3,
      mask := bits w 0 7 }
  if bits w 30 2 == 0 && (h.lastOnly &&& ~~~ h.mask) == 0 && (h.firstOnly &&& ~~~ h.mask) == 0 then some h else none

/-- The header's word, 02_bundles.md Table 2.2. -/
def Header.enc (h : Header) : BitVec 32 :=
  0#2 ++ bit h.yieldPt ++ h.lastOnly ++ h.firstOnly ++ h.stall ++ h.nlit ++ h.mask

/-- The slots of a mask in slot order, 02_bundles.md R41. -/
def Header.slots (h : Header) : List Slot :=
  [Slot.s, .v0, .v1, .m, .z, .c0, .c1].filter fun s => h.mask.getLsbD s.num

/-- The length in words of a bundle, 02_bundles.md R41. -/
def Header.length (h : Header) : Nat := 1 + 2 * h.slots.length + h.nlit.toNat

/-- What decoding a whole syllable gives. -/
inductive SylDec where
  | ok (s : Syllable)
  | illegalOp
  | illegalEnc
  deriving DecidableEq, Repr

/-- The instruction of a syllable's low 59 bits in a class. -/
def decodeBody (c : Cls) (nlit : Nat) (w : BitVec 59) : Dec :=
  match c with
  | .s => decodeS (SF.of w)
  | .v => decodeV nlit (VF.of w)
  | .m => decodeM (MF.of w)
  | .z => decodeZ (ZF.of w)
  | .c => decodeC nlit (CF.of w)

/-- The syllable of 64 bits in a class, in a bundle of `nlit` literal words (02_bundles.md R45). -/
def decodeSyl (c : Cls) (nlit : Nat) (w : BitVec 64) : SylDec :=
  match decodeBody c nlit (bits w 0 59) with
  | .ok i => .ok { gs := w.getLsbD 63, gp := bits w 59 4, instr := i }
  | .illegalOp => .illegalOp
  | .illegalEnc => .illegalEnc

/-! ## The encoder of syllables -/

/-- Flags and immediate of a spill or fill, 05_registers.md R150. -/
def spillFlags (a : SpillArgs) : BitVec 8 := bit a.vec ++ a.tok ++ 0#4

/-- Flags and immediate of a spill or fill, 05_registers.md R150. -/
def spillImm (a : SpillArgs) : BitVec 28 := a.f ++ a.n ++ a.off

/-- Type-and-mask forms of the V class. -/
def packBin (op : BitVec 7) (f : VBin) (vc : BitVec 6) : BitVec 59 :=
  packV op f.vd f.va f.b.code vc f.t.code f.q f.b.field

/-- One-source forms of the V class. -/
def packUn (op : BitVec 7) (f : VUn) (vc : BitVec 6) (imm : BitVec 20) : BitVec 59 :=
  packV op f.vd f.va 0 vc f.t.code f.q imm

/-- Compare forms of the V class. -/
def packCmp (op : BitVec 7) (f : VCmp) : BitVec 59 :=
  packV op (0#3 ++ f.qd) f.va f.b.code f.cond.code f.t.code f.q f.b.field

/-- The tag field of a .tc form, 06_vector.md R178. -/
def tcBits (tc : Option XReg) : BitVec 6 := bit tc.isSome ++ tc.getD 0

/-- The low 59 bits of a syllable; `none` for the instructions that are not syllables. -/
def encodeBody : Instr → Option (BitVec 59)
  | .nop => some (packS 0x00 0 0 0 0 0)
  | .vnop => some (packV 0x00 0 0 0 0 0 0 0)
  | .mnop => some (packM 0x00 0 0 0 0 0 0)
  | .znop => some (packZ 0x00 0 0 0)
  | .cnop => some (packC 0x00 0 0 0 0 0)
  | .add d a b => some (packS 0x02 d a b 0 0)
  | .addi d a i => some (packS 0x03 d a 0 0 i)
  | .sub d a b => some (packS 0x04 d a b 0 0)
  | .subi d a i => some (packS 0x05 d a 0 0 i)
  | .mul d a b => some (packS 0x06 d a b 0 0)
  | .muli d a i => some (packS 0x07 d a 0 0 i)
  | .mulh d a b n => some (packS 0x08 d a b (0#3 ++ bit n) 0)
  | .div d a b n => some (packS 0x0A d a b (0#3 ++ bit n) 0)
  | .rem d a b n => some (packS 0x0C d a b (0#3 ++ bit n) 0)
  | .and d a b => some (packS 0x0E d a b 0 0)
  | .andi d a i => some (packS 0x0F d a 0 0 i)
  | .or d a b => some (packS 0x10 d a b 0 0)
  | .ori d a i => some (packS 0x11 d a 0 0 i)
  | .xor d a b => some (packS 0x12 d a b 0 0)
  | .xori d a i => some (packS 0x13 d a 0 0 i)
  | .andn d a b => some (packS 0x14 d a b 0 0)
  | .shl d a b => some (packS 0x16 d a b 0 0)
  | .shli d a n => some (packS 0x17 d a 0 0 (0#26 ++ n))
  | .shr d a b => some (packS 0x18 d a b 0 0)
  | .shri d a n => some (packS 0x19 d a 0 0 (0#26 ++ n))
  | .sha d a b => some (packS 0x1A d a b 0 0)
  | .shai d a n => some (packS 0x1B d a 0 0 (0#26 ++ n))
  | .rot d a b => some (packS 0x1C d a b 0 0)
  | .roti d a n => some (packS 0x1D d a 0 0 (0#26 ++ n))
  | .min d a b n => some (packS 0x1E d a b (0#3 ++ bit n) 0)
  | .max d a b n => some (packS 0x20 d a b (0#3 ++ bit n) 0)
  | .clz d a => some (packS 0x22 d a 0 0 0)
  | .ctz d a => some (packS 0x23 d a 0 0 0)
  | .popc d a => some (packS 0x24 d a 0 0 0)
  | .bfx d a s p l => some (packS 0x26 d a 0 (0#3 ++ bit s) (0#17 ++ l ++ 0#2 ++ p))
  | .bfi d a p l => some (packS 0x27 d a 0 0 (0#17 ++ l ++ 0#2 ++ p))
  | .sel d a b p => some (packS 0x28 d a b p 0)
  | .cmp c p a b => some (packS 0x2A (0#1 ++ p) a b c.code 0)
  | .cmpi c p a i => some (packS 0x2B (0#1 ++ p) a 0 c.code i)
  | .li d z i => some (packS 0x2C d 0 0 (0#3 ++ bit z) i)
  | .lih d i => some (packS 0x2D d 0 0 0 i)
  | .lea d a b s i => some (packS 0x2E d a b (0#1 ++ s) i)
  | .pand p a b na nb => some (packS 0x34 (0#1 ++ p) (0#1 ++ a) (0#1 ++ b) (0#2 ++ bit nb ++ bit na) 0)
  | .por p a b na nb => some (packS 0x35 (0#1 ++ p) (0#1 ++ a) (0#1 ++ b) (0#2 ++ bit nb ++ bit na) 0)
  | .pxor p a b na nb => some (packS 0x36 (0#1 ++ p) (0#1 ++ a) (0#1 ++ b) (0#2 ++ bit nb ++ bit na) 0)
  | .pnot p a => some (packS 0x37 (0#1 ++ p) (0#1 ++ a) 0 0 0)
  | .pmov p a => some (packS 0x38 (0#1 ++ p) (0#1 ++ a) 0 0 0)
  | .pmovGet d => some (packS 0x38 d 0 0 1 0)
  | .pmovPut a => some (packS 0x38 0 a 0 2 0)
  | .ld d a s z i => some (packS 0x40 d a 0 (0#1 ++ bit s ++ z) i)
  | .st a b z i => some (packS 0x41 0 a b (0#2 ++ z) i)
  | .ldk d a s w i => some (packS 0x42 d a 0 (bit s ++ w) i)
  | .ldf d a q s z i => some (packS 0x48 d a (0#3 ++ (q.map Scope.code).getD 0) (bit q.isSome ++ bit s ++ z) i)
  | .stf a b r z i => some (packS 0x49 (0#3 ++ (r.map Scope.code).getD 0) a b (bit r.isSome ++ 0#1 ++ z) i)
  | .amo d a b o s h => some (packS 0x4A d a b (o.code ++ s.code) (0#27 ++ h))
  | .amol o d a b w i => some (packS 0x4B d a b o.code (0#7 ++ bit w ++ i))
  | .fence d o s => some (packS 0x4C d 0 0 (o.code ++ s.code) 0)
  | .br a i => some (packS 0x50 0 a 0 0 i)
  | .bri i => some (packS 0x51 0 0 0 0 i)
  | .call d a i => some (packS 0x52 d a 0 0 i)
  | .calli d i => some (packS 0x53 d 0 0 0 i)
  | .loop l a b r p i => some (packS 0x54 (0#2 ++ l) a b (0#2 ++ bit r ++ bit p) i)
  | .loopi l b r p c o => some (packS 0x55 (0#2 ++ l) 0 b (0#2 ++ bit r ++ bit p) (c ++ o))
  | .rdsr d i => some (packS 0x60 d 0 0 0 (0#20 ++ i))
  | .wrsr a i => some (packS 0x61 0 a 0 0 (0#20 ++ i))
  | .rdpod d v => some (packS 0x62 d 0 0 v.code 0)
  | .slew d v => some (packS 0x63 d 0 0 v.code 0)
  | .phase a e m n h => some (packS 0x64 0 a 0 (0#3 ++ bit e) (0#22 ++ bit h ++ n ++ m))
  | .wait k d a b i => some (packS 0x65 d a b k.code i)
  | .barArr d c => some (packS 0x66 d 0 0 0 (0#29 ++ c))
  | .barWait d a c => some (packS 0x66 d a 0 1 (0#29 ++ c))
  | .barAw d c => some (packS 0x66 d 0 0 2 (0#29 ++ c))
  | .tend => some (packS 0x67 0 0 0 0 0)
  | .trap c => some (packS 0x68 0 0 0 0 c)
  | .brk c => some (packS 0x69 0 0 0 0 c)
  | .launch d a => some (packS 0x6A d a 0 0 0)
  | .tkwait d m => some (packS 0x6B d 0 0 0 (0#24 ++ m))
  | .pushm f n => some (packS 0x6C 0 f 0 0 (0#26 ++ n))
  | .popm f n => some (packS 0x6D f 0 0 0 (0#26 ++ n))
  | .rdfrCore d a w => some (packS 0x6E d a 0 0 (0#29 ++ w))
  | .rdfrCause d w => some (packS 0x6E d 0 0 1 (0#29 ++ w))
  | .thaw d => some (packS 0x6F d 0 0 0 0)
  | .abort c => some (packS 0x70 0 0 0 0 c)
  | .wfld d s i => some (packS 0x72 d 0 0 (0#3 ++ bit s) (0#29 ++ i))
  | .fadd f => some (packBin 0x01 f 0)
  | .fsub f => some (packBin 0x02 f 0)
  | .fmul f => some (packBin 0x03 f 0)
  | .fma f => some (packV 0x04 f.vd f.va f.b.code f.vc f.t.code f.q f.b.field)
  | .fms f => some (packV 0x05 f.vd f.va f.b.code f.vc f.t.code f.q f.b.field)
  | .fnma f => some (packV 0x06 f.vd f.va f.b.code f.vc f.t.code f.q f.b.field)
  | .fmin f => some (packBin 0x07 f 0)
  | .fmax f => some (packBin 0x08 f 0)
  | .fabs f => some (packUn 0x09 f 0 0)
  | .fneg f => some (packUn 0x0A f 0 0)
  | .fcmp f => some (packCmp 0x0B f)
  | .frcp f => some (packUn 0x0C f 0 0)
  | .frsq f => some (packUn 0x0D f 0 0)
  | .fexp2 f => some (packUn 0x0E f 0 0)
  | .flog2 f => some (packUn 0x0F f 0 0)
  | .iadd f => some (packBin 0x18 f 0)
  | .isub f => some (packBin 0x19 f 0)
  | .imul f => some (packBin 0x1A f 0)
  | .imulh f => some (packBin 0x1B f 0)
  | .imin f => some (packBin 0x1C f 0)
  | .imax f => some (packBin 0x1D f 0)
  | .iabs f => some (packUn 0x1E f 0 0)
  | .vand f => some (packBin 0x1F f 0)
  | .vor f => some (packBin 0x20 f 0)
  | .vxor f => some (packBin 0x21 f 0)
  | .vshl f => some (packBin 0x22 f 0)
  | .vshr f => some (packBin 0x23 f 0)
  | .vsha f => some (packBin 0x24 f 0)
  | .vpopc f => some (packUn 0x25 f 0 0)
  | .vclz f => some (packUn 0x26 f 0 0)
  | .icmp f => some (packCmp 0x27 f)
  | .iadds f => some (packBin 0x28 f 0)
  | .isubs f => some (packBin 0x29 f 0)
  | .vmov f => some (packV 0x30 f.vd 0 f.b.code 0 f.t.code f.q f.b.field)
  | .cvt f => some (packV 0x31 f.vd f.va 0 (bit f.sr ++ bit f.sat ++ f.d.code) f.s.code f.q (0#18 ++ f.h))
  | .vsel f qs => some (packBin 0x32 f (0#3 ++ qs))
  | .viota f => some (packV 0x33 f.vd 0 f.b.code 0 f.t.code f.q f.b.field)
  | .perm f => some (packBin 0x38 f 0)
  | .rotl f i => some (packUn 0x39 f 0 (0#12 ++ i))
  | .bcast f i => some (packUn 0x3A f 0 (0#12 ++ i))
  | .zip f => some (packV 0x3B f.vd f.va f.vb.code 0 f.t.code f.q (0#19 ++ bit f.h))
  | .unzip f => some (packV 0x3C f.vd f.va f.vb.code 0 f.t.code f.q (0#19 ++ bit f.h))
  | .rsum f => some (packUn 0x40 f 0 0)
  | .rmin f => some (packUn 0x41 f 0 0)
  | .rmax f => some (packUn 0x42 f 0 0)
  | .rmini f => some (packUn 0x43 f 0 0)
  | .scan f => some (packUn 0x44 f 0 0)
  | .vext t d a i q => some (packV 0x46 (0#1 ++ d) a 0 0 t.code q (0#12 ++ i))
  | .vins f i => some (packV 0x47 f.vd 0 f.b.code 0 f.t.code f.q (0#12 ++ i))
  | .vhash f => some (packBin 0x48 f 0)
  | .vld f => some (packV 0x50 f.vd 0 (3#2 ++ f.xb) (tcBits f.tc) f.t.code f.q f.imm)
  | .vst f => some (packV 0x51 f.vd 0 (3#2 ++ f.xb) 0 f.t.code f.q f.imm)
  | .vlds f => some (packV 0x52 f.vd 0 (3#2 ++ f.xb) (0#1 ++ f.xs) f.t.code f.q f.imm)
  | .vsts f => some (packV 0x53 f.vd 0 (3#2 ++ f.xb) (0#1 ++ f.xs) f.t.code f.q f.imm)
  | .vgath f => some (packV 0x54 f.vd f.va (3#2 ++ f.xb) (tcBits f.tc) f.t.code f.q f.imm)
  | .vscat f => some (packV 0x55 f.vd f.va (3#2 ++ f.xb) 0 f.t.code f.q f.imm)
  | .vgathk f w i => some (packUn 0x56 f (0#3 ++ w) i)
  | .spush t a k q => some (packV 0x58 0 a 0 (0#4 ++ k) t.code q 0)
  | .spop t d qd k => some (packV 0x59 d 0 0 (0#1 ++ qd ++ k) t.code 0 0)
  | .scnt t d k q => some (packV 0x5A (0#1 ++ d) 0 0 (0#4 ++ k) t.code q 0)
  | .qand d a b => some (packV 0x60 (0#3 ++ d) (0#3 ++ a) 0 (0#3 ++ b) 0 0 0)
  | .qor d a b => some (packV 0x61 (0#3 ++ d) (0#3 ++ a) 0 (0#3 ++ b) 0 0 0)
  | .qxor d a b => some (packV 0x62 (0#3 ++ d) (0#3 ++ a) 0 (0#3 ++ b) 0 0 0)
  | .qnot d a => some (packV 0x63 (0#3 ++ d) (0#3 ++ a) 0 0 0 0 0)
  | .qpopMask t d a => some (packV 0x64 (0#1 ++ d) (0#3 ++ a) 0 0 t.code 0 0)
  | .qfirst t d a => some (packV 0x65 (0#1 ++ d) (0#3 ++ a) 0 0 t.code 0 0)
  | .qany t d a => some (packV 0x66 (0#2 ++ d) (0#3 ++ a) 0 0 t.code 0 0)
  | .mma d a b bf z => some (packM 0x01 (0#1 ++ d) a b 0 (0#2 ++ bit bf ++ bit z) 0)
  | .mmat d a b bf z => some (packM 0x02 (0#1 ++ d) a b 0 (0#2 ++ bit bf ++ bit z) 0)
  | .mzero t d => some (packM 0x03 d 0 0 0 (0#3 ++ bit t) 0)
  | .mld d tc b i => some (packM 0x04 d (tc.getD 0) b 0 (0#3 ++ bit tc.isSome) i)
  | .mst a b i => some (packM 0x05 0 a b 0 0 i)
  | .macs b s i => some (packM 0x06 0 0 b s 0 i)
  | .mcvt d s bf h sc => some (packM 0x07 d 0 0 s (0#3 ++ bit bf) (0#27 ++ bit h ++ sc))
  | .mlda d b i => some (packM 0x08 (0#1 ++ d) 0 b 0 0 i)
  | .mtrn d a => some (packM 0x09 d a 0 0 0 0)
  | .zscla a h => some (packZ 0x01 a (0#2 ++ h) 0)
  | .zsclb a h => some (packZ 0x02 a (0#2 ++ h) 0)
  | .ztab i v => some (packZ 0x03 0 i (0#16 ++ v))
  | .zfmt i v => some (packZ 0x04 0 i v)
  | .zfsel f b l => some (packZ 0x05 0 0 (0#23 ++ bit f ++ b ++ 0#1 ++ l))
  | .cpl a => some (packC 0x01 a.xa a.xb a.xc (foDecBits a.fo a.dec ++ 0#2) a.n)
  | .cpv a => some (packC 0x02 a.xa a.xb a.xc (foDecBits a.fo none ++ a.sp) (a.rows ++ a.m))
  | .chr a => some (packC 0x03 a.xa 0 a.xc (foDecBits a.fo a.dec ++ bit a.s ++ bit a.l) (a.chan ++ a.q ++ a.n))
  | .chw a => some (packC 0x04 a.xa 0 0 (0#6 ++ bit a.s ++ bit a.l) (a.chan ++ a.q ++ a.n))
  | .cpi a => some (packC 0x05 a 0 0 0 0)
  | .dtab a s => some (packC 0x06 a 0 0 0 (0#26 ++ s))
  | .spb a => some (packC 0x08 a.xa 0 0 (spillFlags a) (spillImm a))
  | .fla a => some (packC 0x09 a.xa 0 0 (spillFlags a) (spillImm a))
  | .lsend a => some (packC 0x10 a.xa a.xb a.xc (0#7 ++ bit a.s) (a.port ++ a.lane ++ a.cnt ++ a.m ++ 0#14))
  | .lrecv a c d => some (packC 0x11 a 0 c 0 (0#8 ++ d))
  | .qsend a => some (packC 0x12 a.xa a.xb a.xc (0#6 ++ a.route.code) (a.port ++ a.lane ++ a.cnt ++ 0#18))
  | .qpopCask a b c => some (packC 0x13 a b c 0 0)
  | .esend a b c l => some (packC 0x14 a b c 0 (0#19 ++ l))
  | .emcast a b c g l => some (packC 0x15 a b c 0 (0#13 ++ g ++ l))
  | .qapp a b c => some (packC 0x18 a b c 0 0)
  | .drainMark a c => some (packC 0x19 a 0 c (0#8) 0)
  | .drainPoll a c => some (packC 0x19 a 0 c (0#6 ++ 1#2) 0)
  | .drainRelease a c => some (packC 0x19 a 0 c (0#6 ++ 2#2) 0)
  | _ => none

/-- The 64 bits of a syllable. -/
def encodeSyl (s : Syllable) : Option (BitVec 64) :=
  (encodeBody s.instr).map fun b => bit s.gs ++ s.gp ++ b

/-! ## Script commands -/

/-- The command word's burst fields, 10_channels.md Table 10.4. -/
def Burst.of (w : BitVec 64) : Burst :=
  { g := bits w 42 2, b := bits w 40 2, row := bits w 24 16, c := bits w 19 5, cnt := bits w 12 7, t := w.getLsbD 6 }

/-- The stamp offset d of a command word, 10_channels.md Table 10.4. -/
def cmdStamp (w : BitVec 64) : Nat := (bits w 44 16).toNat

/-- A burst count within its row's columns, 10_channels.md R236. -/
def Burst.fits (a : Burst) : Bool :=
  if a.t then decide (a.c.toNat + a.cnt.toNat / 4 ≤ 31) else decide (a.c.toNat + a.cnt.toNat + 1 ≤ 32)

/-- The command of a word, `none` for SCRIPT_TIMING (10_channels.md R235, R236). -/
def decodeCmd (w : BitVec 64) : Option Instr :=
  let g := bits w 42 2
  let b := bits w 40 2
  let row := bits w 24 16
  let c := bits w 19 5
  let n := bits w 12 7
  let q := bits w 7 5
  let t := w.getLsbD 6
  let k := w.getLsbD 5
  let p := w.getLsbD 4
  let x := w.getLsbD 3
  let l := w.getLsbD 2
  let zg := g == 0
  let zb := b == 0
  let zrow := row == 0
  let zc := c == 0
  let zn := n == 0
  let zq := q == 0
  let z0 := bits w 0 2 == 0
  let a := Burst.of w
  let mk := fun (ok : Bool) (i : Instr) => if ok && z0 then some i else none
  match (bits w 60 4).toNat with
  | 1 => mk (zc && zn && zq && !t && !k && !p && !x && !l) (.act g b row)
  | 2 => mk (!p && !l && a.fits && !(x && k)) (.rd a q k x)
  | 3 => mk (!k && !l && a.fits && !(x && p)) (.wr a q p x)
  | 4 => mk (zrow && zc && zn && zq && !t && !k && !p && !x && !l) (.pre g b)
  | 5 => mk (zg && zb && zrow && zc && zn && zq && !t && !k && !p && !x && !l) .prea
  | 6 => mk (zrow && zc && zn && zq && !t && !k && !p && !x && !l) (.refpb g b)
  | 7 => mk (zg && zb && zrow && zc && zn && zq && !t && !k && !p && !x && !l) .ref
  | 8 => mk (zg && zc && zn && zq && !t && !k && !p && !x) (.sealrd b row l)
  | 9 => mk (zg && zc && zn && zq && !t && !k && !p && !x) (.sealwr b row l)
  | 10 => mk (zq && !k && !p && !x && !l && a.fits && decide (n.toNat < 32)) (.parrmw a)
  | 11 => mk (zg && zb && zq && !t && !k && !p && !x && !l) (.gopen (bits w 12 28))
  | 12 => mk (zg && zb && zrow && zc && zn && zq && !t && !k && !p && !x && !l) .gclose
  | 13 => mk (zg && zn && zq && !t && !k && !p && !x && !l && bits c 0 2 == 0) (.fetch b row c)
  | 14 => mk (zg && zb && zrow && zc && zn && zq && !t && !k && !p && !x && !l) .gsync
  | 15 => mk (zg && zb && zrow && zc && zn && zq && !t && !k && !p && !x && !l) .scriptEnd
  | _ => none

/-- The low 44 bits of a burst command. -/
def packBurst (a : Burst) (q : BitVec 5) (k p x : Bool) : BitVec 44 :=
  a.g ++ a.b ++ a.row ++ a.c ++ a.cnt ++ q ++ bit a.t ++ bit k ++ bit p ++ bit x ++ 0#3

/-- The command word of a script command with stamp offset `d`; `none` for other instructions. -/
def encodeCmd (d : BitVec 16) : Instr → Option (BitVec 64)
  | .act g b row => some (1#4 ++ d ++ g ++ b ++ row ++ 0#24)
  | .rd a q k x => some (2#4 ++ d ++ packBurst a q k false x)
  | .wr a q p x => some (3#4 ++ d ++ packBurst a q false p x)
  | .pre g b => some (4#4 ++ d ++ g ++ b ++ 0#40)
  | .prea => some (5#4 ++ d ++ 0#44)
  | .refpb g b => some (6#4 ++ d ++ g ++ b ++ 0#40)
  | .ref => some (7#4 ++ d ++ 0#44)
  | .sealrd b row l => some (8#4 ++ d ++ 0#2 ++ b ++ row ++ 0#21 ++ bit l ++ 0#2)
  | .sealwr b row l => some (9#4 ++ d ++ 0#2 ++ b ++ row ++ 0#21 ++ bit l ++ 0#2)
  | .parrmw a => some (10#4 ++ d ++ packBurst a 0 false false false)
  | .gopen n => some (11#4 ++ d ++ 0#4 ++ n ++ 0#12)
  | .gclose => some (12#4 ++ d ++ 0#44)
  | .fetch b row c => some (13#4 ++ d ++ 0#2 ++ b ++ row ++ c ++ 0#19)
  | .gsync => some (14#4 ++ d ++ 0#44)
  | .scriptEnd => some (15#4 ++ d ++ 0#44)
  | _ => none

/-! ## Cobbler micro-instructions -/

/-- The micro-instruction of a word, `none` for a handler error (12_order.md R294, R295). -/
def decodeCob (w : BitVec 32) : Option Instr :=
  let d := bits w 26 2
  let a := bits w 24 2
  let b := bits w 22 2
  let imm := bits w 0 16
  let zd := d == 0
  let za := a == 0
  let zb := b == 0
  let zi := imm == 0
  let mk := fun (ok : Bool) (i : Instr) => if ok && bits w 16 6 == 0 then some i else none
  match (bits w 28 4).toNat with
  | 0 => mk (za && zb && bits imm 3 13 == 0) (.cobLdw d (bits imm 0 3))
  | 1 => mk (zd && zb) (.cobStw a imm)
  | 2 => mk zi (.cobAdd d a b)
  | 3 => mk zi (.cobSub d a b)
  | 4 => mk zi (.cobAnd d a b)
  | 5 => mk zi (.cobOr d a b)
  | 6 => mk zi (.cobXor d a b)
  | 7 => mk zi (.cobMins d a b)
  | 8 => mk zi (.cobMaxs d a b)
  | 9 => mk zi (.cobMinn d a b)
  | 10 => mk zi (.cobMaxn d a b)
  | 11 => mk (zd && zi) (.cobCeq a b)
  | 12 =>
    if imm.getLsbD 8 then mk (zd && za && zb && bits imm 9 7 == 0 && bits imm 5 3 == 0) (.cobSkipT (bits imm 0 5))
    else mk (zd && za && zb && bits imm 9 7 == 0 && bits imm 5 3 == 0) (.cobSkipF (bits imm 0 5))
  | 13 => mk (zb && zi) (.cobMov d a)
  | 14 => mk (za && zb) (.cobMovi d imm)
  | _ => mk (zd && zb && zi) (.cobRet a)

/-- The word of a micro-instruction; `none` for other instructions. -/
def encodeCob : Instr → Option (BitVec 32)
  | .cobLdw d i => some (0#4 ++ d ++ 0#4 ++ 0#6 ++ 0#13 ++ i)
  | .cobStw a i => some (1#4 ++ 0#2 ++ a ++ 0#2 ++ 0#6 ++ i)
  | .cobAdd d a b => some (2#4 ++ d ++ a ++ b ++ 0#22)
  | .cobSub d a b => some (3#4 ++ d ++ a ++ b ++ 0#22)
  | .cobAnd d a b => some (4#4 ++ d ++ a ++ b ++ 0#22)
  | .cobOr d a b => some (5#4 ++ d ++ a ++ b ++ 0#22)
  | .cobXor d a b => some (6#4 ++ d ++ a ++ b ++ 0#22)
  | .cobMins d a b => some (7#4 ++ d ++ a ++ b ++ 0#22)
  | .cobMaxs d a b => some (8#4 ++ d ++ a ++ b ++ 0#22)
  | .cobMinn d a b => some (9#4 ++ d ++ a ++ b ++ 0#22)
  | .cobMaxn d a b => some (10#4 ++ d ++ a ++ b ++ 0#22)
  | .cobCeq a b => some (11#4 ++ 0#2 ++ a ++ b ++ 0#22)
  | .cobSkipT n => some (12#4 ++ 0#19 ++ 1#1 ++ 0#3 ++ n)
  | .cobSkipF n => some (12#4 ++ 0#23 ++ n)
  | .cobMov d a => some (13#4 ++ d ++ a ++ 0#24)
  | .cobMovi d i => some (14#4 ++ d ++ 0#10 ++ i)
  | .cobRet a => some (15#4 ++ 0#2 ++ a ++ 0#24)
  | _ => none

/-! ## The words of the opcode table -/

/-- The instruction read from the `nbits` bits `w` as spec/opcode_table.json numbers them: 32 bits are a cobbler word, 64
bits an S-class syllable. -/
def decodeTableWord (nbits w : Nat) : Option Instr :=
  if nbits = 32 then decodeCob (BitVec.ofNat 32 w)
  else if nbits = 64 then
    match decodeSyl .s 0 (BitVec.ofNat 64 w) with
    | .ok s => some s.instr
    | _ => none
  else none

end Sys2Proof
end

