-- ==== Sys2Proof/Config.lean ====
section
/-! DEFINITION. What is fixed for the part, and the free values: constants without a body, which nothing can evaluate
or prove a value of (logged under notes/assumptions). -/

namespace Sys2Proof.Config

/-- Cores of the device, 00_scope.md Table 0.1. -/
def cores : Nat := 512
/-- Bytes of a pool, 09_pool.md R208. -/
def poolBytes : Nat := 0x180000
/-- Words of instruction memory, 02_bundles.md R37. -/
def imemWords : Nat := 32768
/-- Channels of the device, 10_channels.md R230. -/
def channels : Nat := 768
/-- Rows of a bank, 10_channels.md Table 10.1. -/
def rows : Nat := 49152
/-- First row of the seal region, 10_channels.md Table 10.2. -/
def sealRow : Nat := 48768
/-- First row of the device controller's own region, 10_channels.md Table 10.2. -/
def ownRow : Nat := 49149
/-- Data tiles of a channel, 10_channels.md Table 10.2. -/
def tiles : Nat := 195072
/-- Timing registers in the order of 10_channels.md Table 10.6. -/
def trcd : Nat := 16
def trp : Nat := 16
def tras : Nat := 31
def trc : Nat := 47
def trrds : Nat := 2
def trrdl : Nat := 4
def tfaw : Nat := 14
def tccds : Nat := 1
def tccdl : Nat := 2
def twr : Nat := 18
def twtrs : Nat := 3
def twtrl : Nat := 8
def trtw : Nat := 6
def trtp : Nat := 5
def trfc : Nat := 385
def trfcpb : Nat := 176
def trrefd : Nat := 9
def trefi : Nat := 4290
def rld : Nat := 24
/-- TDP in mW, 00_scope.md Table 0.1. -/
def tdp : Nat := 2600000
/-- Partitions of the device, 19_host.md R403. -/
def partitions : Nat := 40
/-- Virtual functions of the device, 19_host.md R399. -/
def vfs : Nat := 256

/-- A duration or a choice the spec bounds but does not fix (log entry 3): the value of the n-th such choice. -/
opaque freeNat : Nat → Nat
/-- A byte of a peer's memory: device, page, offset in it and tick of the read (log entry 34). -/
opaque peerByte : Nat → Nat → Nat → Nat → Byte
/-- A key drawn from the controller's DRBG, 19_host.md R409 (log entry 4). -/
opaque drbgKey : Nat → BitVec 256
/-- SHAKE256 taken to n bytes, 19_host.md R407, R408 (log entry 5). -/
opaque shake256 : List Byte → Nat → List Byte
/-- Ed448 verification of a signature over a message under a certificate chain, 19_host.md R407 (log entry 5). -/
opaque ed448Verify : List Byte → List Byte → List Byte → Bool
/-- Verification of a certificate chain to the root digest, 19_host.md R407 (log entry 5). -/
opaque chainVerify : List Byte → List Byte → Bool
/-- Ed448 signing under a 57-byte seed, 19_host.md R408 (log entry 5). -/
opaque ed448Sign : List Byte → List Byte → List Byte
/-- The Ed448 public key of a 57-byte seed, 19_host.md R407 (log entry 5). -/
opaque ed448Public : List Byte → List Byte
/-- The fuzzy extractor of the PUF: what the SRAM bytes and the helper data give, `none` on failure, 19_host.md R407
(log entry 5). -/
opaque pufExtract : List Byte → List Byte → Option (List Byte)
/-- The responder's share and the session secret of a key exchange, 19_host.md R408 (log entry 5). -/
opaque ecdhe : Nat → BitVec 768 → List Byte
/-- The share that the controller sends in its n-th key exchange with a peer, and the secret that follows from the peer's share,
19_host.md R408 (log entry 5). -/
opaque dheShare : Nat → List Byte
opaque dheSecret : Nat → List Byte → List Byte
/-- The uninitialised contents of the PUF SRAM at the n-th power-up, 19_host.md R406 (log entry 5). -/
opaque pufSram : Nat → List Byte
/-- The boot ROM's contents, 19_host.md Table 19.6 (log entry 5). -/
opaque bootRom : List Byte
/-- The verify data of a FINISH under a session's secret and transcript hash, 19_host.md R408 (log entry 5). -/
opaque finishData : List Byte → List Byte → List Byte
/-- The secret that follows another in a session: at FINISH from the transcript hash, at KEY_UPDATE from nothing (log entry 5). -/
opaque nextSecret : List Byte → List Byte → List Byte
/-- The digest of the root key held in the boot ROM, 19_host.md R406 (log entry 5). -/
opaque romDigest : List Byte
/-- Power of one core at clock n in mW, 16_faults.md Table 16.8 (device figures; log entry 6). -/
opaque corePower : Nat → Nat
/-- Settle time of a circuit switch plane in slots, 16_faults.md Table 16.8 (log entry 6). -/
opaque darkSlots : Nat → Nat
/-- Power allotment of a partition in mW, 14_time_power.md R326 (log entry 6). -/
opaque allotment : Nat → Nat
/-- A plane's kind: true for an optical circuit switch plane, 15_light.md R329 (log entry 6). -/
opaque circuitPlane : Nat → Bool
/-- Devices of the pod, 15_light.md R339 (log entry 6); a pod has 1 to 32 (00_scope.md Table 0.1), which power-up keeps to. -/
opaque podSize : Nat
/-- The timekeeper that the pod configuration assigns to this device's pod, if it does, 15_light.md R332 (log entry 6). -/
opaque timekeeper : Option Nat
/-- The fixed training pattern of beats 75 to 79 of a slot, 15_light.md R332 (log entry 38). -/
opaque training : Nat → List Byte
/-- The n-th link key that a controller derives in a session with this secret, 15_light.md R357 (log entry 5). -/
opaque linkKey : List Byte → Nat → BitVec 256
/-- A link key as a session's record carries it, and what a record opens to, 19_host.md R408 (log entry 5). -/
opaque sealRecord : List Byte → BitVec 256 → List Byte
opaque openRecord : List Byte → List Byte → Option (BitVec 256)
/-- SHA3-512 of a message, 19_host.md R408 (log entry 5). -/
opaque sha3 : List Byte → List Byte

end Sys2Proof.Config
end

