-- ==== Sys2Proof/WellFormed.lean ====
section
/-! DEFINITION. Well-formed instructions: what of the operands an encoding cannot hold or the decoder refuses with
ILLEGAL_ENC, SCRIPT_TIMING or a handler error, in a bundle of `n` literal words. The class an instruction belongs to. -/

namespace Sys2Proof

/-- A literal operand names a literal word of the bundle, 02_bundles.md R50. -/
def OpB.wf (n : Nat) : OpB → Bool
  | .lit i => decide (i.toNat < n)
  | .v _ => true
  | .imm _ => true
  | .win _ _ => true
  | .x _ => true

/-- An operand B that shares the field imm20 with the form's own value `i`, 06_vector.md R170, R173. -/
def OpB.shares (i : BitVec 20) : OpB → Bool
  | .imm k => k == i
  | .win _ j => 0#8 ++ j == i
  | .v _ => true
  | .lit _ => true
  | .x _ => true

/-- A follow-on pair within the bundle's literals, 09_pool.md Table 9.3. -/
def foWf (n : Nat) (fo : Option (BitVec 2)) : Bool :=
  match fo with
  | some p => decide (2 * p.toNat + 2 ≤ n)
  | none => true

/-- What an instruction is: a syllable of a class, a script command, a cobbler word, or a step of the device. -/
inductive Kind where
  | syl (c : Cls)
  | cmd
  | cob
  | step
  deriving DecidableEq, Repr

/-- The kind of an instruction, 02_bundles.md Tables 2.8 to 2.10, 10_channels.md Table 10.5, 12_order.md Table 12.6. -/
def Instr.kind : Instr → Kind
  | .add .. | .addi .. | .sub .. | .subi .. | .mul .. | .muli .. | .mulh .. | .div .. | .rem .. | .and ..
  | .andi .. | .or .. | .ori .. | .xor .. | .xori .. | .andn .. | .shl .. | .shli .. | .shr .. | .shri ..
  | .sha .. | .shai .. | .rot .. | .roti .. | .min .. | .max .. | .clz .. | .ctz .. | .popc .. | .bfx ..
  | .bfi .. | .sel .. | .cmp .. | .cmpi .. | .li .. | .lih .. | .lea .. | .pand .. | .por .. | .pxor ..
  | .pnot .. | .pmov .. | .pmovGet .. | .pmovPut .. | .ld .. | .st .. | .ldk .. | .ldf .. | .stf .. | .amo ..
  | .amol .. | .fence .. | .br .. | .bri .. | .call .. | .calli .. | .loop .. | .loopi .. | .rdsr .. | .wrsr ..
  | .rdpod .. | .slew .. | .phase .. | .wait .. | .barArr .. | .barWait .. | .barAw .. | .trap .. | .brk ..
  | .launch .. | .tkwait .. | .pushm .. | .popm .. | .rdfrCore .. | .rdfrCause .. | .thaw .. | .abort ..
  | .wfld .. | .nop | .tend => .syl .s
  | .fadd .. | .fsub .. | .fmul .. | .fma .. | .fms .. | .fnma .. | .fmin .. | .fmax .. | .fabs .. | .fneg ..
  | .fcmp .. | .frcp .. | .frsq .. | .fexp2 .. | .flog2 .. | .iadd .. | .isub .. | .imul .. | .imulh ..
  | .imin .. | .imax .. | .iabs .. | .vand .. | .vor .. | .vxor .. | .vshl .. | .vshr .. | .vsha .. | .vpopc ..
  | .vclz .. | .icmp .. | .iadds .. | .isubs .. | .vmov .. | .cvt .. | .vsel .. | .viota .. | .perm ..
  | .rotl .. | .bcast .. | .zip .. | .unzip .. | .rsum .. | .rmin .. | .rmax .. | .rmini .. | .scan ..
  | .vext .. | .vins .. | .vhash .. | .vld .. | .vst .. | .vlds .. | .vsts .. | .vgath .. | .vscat ..
  | .vgathk .. | .spush .. | .spop .. | .scnt .. | .qand .. | .qor .. | .qxor .. | .qnot .. | .qpopMask ..
  | .qfirst .. | .qany .. | .vnop => .syl .v
  | .mma .. | .mmat .. | .mzero .. | .mld .. | .mst .. | .macs .. | .mcvt .. | .mlda .. | .mtrn .. | .mnop => .syl .m
  | .zscla .. | .zsclb .. | .ztab .. | .zfmt .. | .zfsel .. | .znop => .syl .z
  | .cpl .. | .cpv .. | .cpi .. | .dtab .. | .spb .. | .fla .. | .chr .. | .chw .. | .qapp .. | .lsend ..
  | .lrecv .. | .qsend .. | .qpopCask .. | .esend .. | .emcast .. | .drainMark .. | .drainPoll ..
  | .drainRelease .. | .cnop => .syl .c
  | .act .. | .rd .. | .wr .. | .pre .. | .refpb .. | .sealrd .. | .sealwr .. | .parrmw .. | .gopen ..
  | .fetch .. | .prea | .ref | .gclose | .gsync | .scriptEnd => .cmd
  | .cobLdw .. | .cobStw .. | .cobAdd .. | .cobSub .. | .cobAnd .. | .cobOr .. | .cobXor .. | .cobMins ..
  | .cobMaxs .. | .cobMinn .. | .cobMaxn .. | .cobCeq .. | .cobSkipT .. | .cobSkipF .. | .cobMov ..
  | .cobMovi .. | .cobRet .. => .cob
  | .lqTailWrite .. | .cqHeadWrite .. | .hostRegisterWrite .. | .armMessage .. | .abortNotice ..
  | .rdLanding .. | .flitReceive .. | .wireDelivery .. | .beaconUpdate .. | .poolUe .. | .correctedError ..
  | .selfTestVerdict .. | .lineFailure .. | .combFailure .. | .partitionCreateDelete .. | .vfBind ..
  | .setPageTableRoot .. | .loadHandlerTable .. | .loadRackingTable .. | .reconfigurePlane .. | .setLimits ..
  | .writeMulticastGroup .. | .pageCountersMigrate .. | .checkpointRestore .. | .loadMemoryKey ..
  | .getCertificate .. | .challenge .. | .getMeasurements .. | .keyExchange .. | .parrmwWrite ..
  | .linkBringUp .. | .ideKm .. | .laneFloorRequest .. | .powerUp | .lastTaken | .runStart | .quorumCheck
  | .taskStart | .budgetExpiry | .lengthExpiry | .gateTick | .bundleIssue | .resultWriteback | .runFreeze
  | .recoveryStart | .runRestart | .gangAbortTick | .runEnd | .preemptRequest | .preemptFreeze
  | .yieldGapExpiry | .preemptResume | .mmaResultWrite | .followOnIssue | .copyBeat | .decodeContainer
  | .spillFillGroup | .chrCollect | .chwArrival | .sealVerdict | .sealLatchUpdate | .fetchComplete
  | .epochStart | .slotAgeExpiry | .keptCopyExpiry | .deltaAgeExpiry | .refreshInterval | .guestWindowEnd
  | .guestAccess | .scriptRunonLimit | .handlerRun | .translationAnswer | .farDataReturn | .farStorePerform
  | .fenceComplete | .amoResult | .waitEnd | .launchAnswer | .barrierFlip | .qappAnswer | .queueDelivery
  | .expectationCheck | .slotBoundary | .countedFlitDepart | .wireFlitDepart | .drainMarkerSend | .flitLanding
  | .creditMessage | .timekeeperTakeover | .slewStep | .railWakeComplete | .voteRiseComplete | .clockRecompute
  | .keyFlip | .reconfigDarkStart | .relockComplete | .keyRotationCommit | .resealScan | .lockInterface
  | .startInterface | .stopInterface | .functionLevelReset | .getVersion | .getCapabilities
  | .negotiateAlgorithms | .getDigests | .finish | .keyUpdate | .heartbeat | .endSession | .armDeadline
  | .arraySample | .tileMoverGroup | .vaultSample | .codeImageLoad | .decodeTableLoad | .powerLoss
  | .heartbeatFailure => .step

/-- Well-formed in a bundle of `n` literal words: 02_bundles.md R47, R51 and the operand tables named in `Decode.lean`. -/
def Instr.wf (n : Nat) : Instr → Bool
  | .bfx _ _ _ p l => fieldOk p l
  | .bfi _ _ p l => fieldOk p l
  | .ld _ _ s z _ => !(s && z == 3)
  | .ldf _ _ _ s z _ => !(s && z == 3)
  | .loop _ _ b _ pad _ => pad || b == 0
  | .loopi _ b _ pad _ o => (pad || b == 0) && o != 0
  | .phase _ e _ k h => if e then decide (4 ≤ k.toNat) && decide (k.toNat ≤ 16) else k == 0 && !h
  | .wait k _ _ b _ => k == .tag || b == 0
  | .pushm f k => k != 0 && decide (k.toNat ≤ 32) && decide (f.toNat + k.toNat ≤ 32)
  | .popm f k => k != 0 && decide (k.toNat ≤ 32) && decide (f.toNat + k.toNat ≤ 32)
  | .wfld _ _ i => decide (i.toNat < 6)
  | .fadd f => f.t.isFp && f.b.wf n
  | .fsub f => f.t.isFp && f.b.wf n
  | .fmul f => f.t.isFp && f.b.wf n
  | .fma f => f.t.isFp && f.b.wf n
  | .fms f => f.t.isFp && f.b.wf n
  | .fnma f => f.t.isFp && f.b.wf n
  | .fmin f => f.t.isFp && f.b.wf n
  | .fmax f => f.t.isFp && f.b.wf n
  | .fabs f => f.t.isFp
  | .fneg f => f.t.isFp
  | .fcmp f => f.t.isFp && f.b.wf n
  | .frcp f => f.t.isFp
  | .frsq f => f.t.isFp
  | .fexp2 f => f.t.isFp
  | .flog2 f => f.t.isFp
  | .iadd f => f.t.isInt && f.b.wf n
  | .isub f => f.t.isInt && f.b.wf n
  | .imul f => f.t.isInt && f.b.wf n
  | .imulh f => f.t.isInt && f.b.wf n
  | .imin f => f.t.isInt && f.b.wf n
  | .imax f => f.t.isInt && f.b.wf n
  | .iabs f => f.t.isSint
  | .vand f => f.t.isInt && f.b.wf n
  | .vor f => f.t.isInt && f.b.wf n
  | .vxor f => f.t.isInt && f.b.wf n
  | .vshl f => f.t.isInt && f.b.wf n
  | .vshr f => f.t.isInt && f.b.wf n
  | .vsha f => f.t.isInt && f.b.wf n
  | .vpopc f => f.t.isInt
  | .vclz f => f.t.isInt
  | .icmp f => f.t.isInt && f.b.wf n && f.cond != .un && f.cond != .ord
  | .iadds f => f.t.isInt && f.b.wf n
  | .isubs f => f.t.isInt && f.b.wf n
  | .vmov f => f.b.wf n
  | .cvt f => decide (f.h.toNat * Nat.min f.s.bytes f.d.bytes < Nat.max f.s.bytes f.d.bytes) &&
    (!f.sr || f.d == .bf16 || f.d == .f16 || f.d.isB8)
  | .vsel f _ => f.b.wf n
  | .viota f => f.t.isInt && f.b.wf n
  | .perm f => f.b.wf n
  | .rotl f i => decide (i.toNat < f.t.lanes)
  | .bcast f i => decide (i.toNat < f.t.lanes)
  | .zip f => f.vb.wf n && f.vb.shares (0#19 ++ bit f.h)
  | .unzip f => f.vb.wf n && f.vb.shares (0#19 ++ bit f.h)
  | .rsum f => f.t.isFp || f.t.isInt
  | .rmin f => f.t.isFp || f.t.isInt
  | .rmax f => f.t.isFp || f.t.isInt
  | .rmini f => f.t.isFp || f.t.isInt
  | .scan f => f.t.isFp || f.t.isInt
  | .vext t _ _ i _ => decide (i.toNat < t.lanes)
  | .vins f i => f.b.wf n && f.b.shares (0#12 ++ i) && decide (i.toNat < f.t.lanes)
  | .vhash f => (f.t == .i32 || f.t == .n32) && f.b.wf n
  | .vst f => f.tc.isNone
  | .vscat f => f.tc.isNone
  | .vgathk f _ _ => f.t.isInt
  | .mzero tile d => tile || !d.getLsbD 3
  | .mcvt _ _ bf h _ => bf || !h
  | .zfmt _ v => fmtOk v
  | .zfsel fl _ l => !(fl && decide (6 ≤ l.toNat))
  | .cpl c => c.n != 0 && decide (c.n.toNat ≤ 0x180000) && foWf n c.fo && (c.dec.isNone || bits c.n 0 12 == 0)
  | .cpv c => c.m != 0 && decide (2 * c.sp.toNat + 2 ≤ n) && foWf n c.fo && c.fo != some c.sp
  | .spb c => c.n != 0 && decide (c.n.toNat ≤ 64) &&
    (if c.vec then bits c.off 0 6 == 0 else decide (c.f.toNat + c.n.toNat ≤ 32) && bits c.off 0 3 == 0)
  | .fla c => c.n != 0 && decide (c.n.toNat ≤ 64) &&
    (if c.vec then bits c.off 0 6 == 0 else decide (c.f.toNat + c.n.toNat ≤ 32) && bits c.off 0 3 == 0)
  | .chr c => c.n != 0 && foWf n c.fo && !(c.dec.isSome && c.s) && (c.s || !c.l)
  | .chw c => c.n != 0 && (c.s || !c.l)
  | .rd c _ k x => c.fits && !(x && k)
  | .wr c _ p x => c.fits && !(x && p)
  | .parrmw c => c.fits && decide (c.cnt.toNat < 32)
  | .fetch _ _ c => bits c 0 2 == 0
  | .lsend c => cntOk c.cnt && laneFieldOk c.lane && (!c.s || (c.cnt == 0 && c.m == 0))
  | .lrecv _ _ d => d != 0
  | .qsend c => cntOk c.cnt && laneFieldOk c.lane
  | .esend _ _ _ l => decide (l.toNat < 256)
  | .emcast _ _ _ _ l => decide (l.toNat < 256)
  | .lqTailWrite .. | .cqHeadWrite .. | .hostRegisterWrite .. | .armMessage .. | .abortNotice .. | .add ..
  | .addi .. | .sub .. | .subi .. | .mul .. | .muli .. | .mulh .. | .div .. | .rem .. | .and .. | .andi ..
  | .or .. | .ori .. | .xor .. | .xori .. | .andn .. | .shl .. | .shli .. | .shr .. | .shri .. | .sha ..
  | .shai .. | .rot .. | .roti .. | .min .. | .max .. | .clz .. | .ctz .. | .popc .. | .sel .. | .cmp ..
  | .cmpi .. | .li .. | .lih .. | .lea .. | .pand .. | .por .. | .pxor .. | .pnot .. | .pmov .. | .pmovGet ..
  | .pmovPut .. | .st .. | .ldk .. | .stf .. | .amo .. | .amol .. | .fence .. | .br .. | .bri .. | .call ..
  | .calli .. | .rdsr .. | .wrsr .. | .rdpod .. | .slew .. | .barArr .. | .barWait .. | .barAw ..
  | .trap .. | .brk .. | .launch .. | .tkwait .. | .rdfrCore .. | .rdfrCause .. | .thaw .. | .abort ..
  | .vld .. | .vlds .. | .vsts .. | .vgath .. | .spush .. | .spop .. | .scnt .. | .qand .. | .qor .. | .qxor ..
  | .qnot .. | .qpopMask .. | .qfirst .. | .qany .. | .mma .. | .mmat .. | .mld .. | .mst .. | .macs ..
  | .mlda .. | .mtrn .. | .zscla .. | .zsclb .. | .ztab .. | .cpi .. | .dtab .. | .act .. | .pre .. | .refpb ..
  | .sealrd .. | .sealwr .. | .gopen .. | .rdLanding .. | .cobLdw .. | .cobStw .. | .cobAdd .. | .cobSub ..
  | .cobAnd .. | .cobOr .. | .cobXor .. | .cobMins .. | .cobMaxs .. | .cobMinn .. | .cobMaxn .. | .cobCeq ..
  | .cobSkipT .. | .cobSkipF .. | .cobMov .. | .cobMovi .. | .cobRet .. | .qapp .. | .qpopCask ..
  | .drainMark .. | .drainPoll .. | .drainRelease .. | .flitReceive .. | .wireDelivery .. | .beaconUpdate ..
  | .poolUe .. | .correctedError .. | .selfTestVerdict .. | .lineFailure .. | .combFailure ..
  | .partitionCreateDelete .. | .vfBind .. | .setPageTableRoot .. | .loadHandlerTable .. | .loadRackingTable ..
  | .reconfigurePlane .. | .setLimits .. | .writeMulticastGroup .. | .pageCountersMigrate ..
  | .checkpointRestore .. | .loadMemoryKey .. | .getCertificate .. | .challenge .. | .getMeasurements ..
  | .keyExchange .. | .parrmwWrite .. | .linkBringUp .. | .ideKm .. | .laneFloorRequest .. | .powerUp
  | .lastTaken | .runStart | .quorumCheck | .taskStart | .budgetExpiry | .lengthExpiry | .gateTick
  | .bundleIssue | .resultWriteback | .runFreeze | .recoveryStart | .runRestart | .gangAbortTick | .runEnd
  | .preemptRequest | .preemptFreeze | .yieldGapExpiry | .preemptResume | .nop | .vnop | .mnop | .znop | .cnop
  | .tend | .mmaResultWrite | .followOnIssue | .copyBeat | .decodeContainer | .spillFillGroup | .chrCollect
  | .chwArrival | .sealVerdict | .sealLatchUpdate | .prea | .ref | .gclose | .gsync | .scriptEnd
  | .fetchComplete | .epochStart | .slotAgeExpiry | .keptCopyExpiry | .deltaAgeExpiry | .refreshInterval
  | .guestWindowEnd | .guestAccess | .scriptRunonLimit | .handlerRun | .translationAnswer | .farDataReturn
  | .farStorePerform | .fenceComplete | .amoResult | .waitEnd | .launchAnswer | .barrierFlip | .qappAnswer
  | .queueDelivery | .expectationCheck | .slotBoundary | .countedFlitDepart | .wireFlitDepart
  | .drainMarkerSend | .flitLanding | .creditMessage | .timekeeperTakeover | .slewStep | .railWakeComplete
  | .voteRiseComplete | .clockRecompute | .keyFlip | .reconfigDarkStart | .relockComplete | .keyRotationCommit
  | .resealScan | .lockInterface | .startInterface | .stopInterface | .functionLevelReset | .getVersion
  | .getCapabilities | .negotiateAlgorithms | .getDigests | .finish | .keyUpdate | .heartbeat | .endSession
  | .armDeadline | .arraySample | .tileMoverGroup | .vaultSample | .codeImageLoad | .decodeTableLoad
  | .powerLoss | .heartbeatFailure => true

end Sys2Proof
end

