-- ==== Sys2Proof/Machine/State.lean ====
section
/-! DEFINITION. The machine's state: one device of a pod, with everything the specification gives it. Every field's
comment names the rule that gives it and its value at reset (the field's default here); peers, the host and the
physical world reach the device through `State.inbox`. Times are pod ticks or core cycles, as the comment says. -/

namespace Sys2Proof.Machine

/-- Why a step stops the whole model. -/
inductive Fault where
  /-- raised by `step` while the device has no power and no power-up is due (19_host.md R406); safe: nothing runs -/
  | noPower
  deriving DecidableEq, Repr

/-- Why an instruction is refused. -/
inductive Refusal where
  /-- an instruction without a meaning in `Dispatch.lean`, by mnemonic; safe: it has no next state -/
  | notModelled (mnemonic : String)
  deriving DecidableEq, Repr

/-- Fault codes of the architecture, 16_faults.md Table 16.1. -/
inductive FCode where
  | illegalEnc | illegalOp | badTarget | delayBranch | badReg | slotConflict | earlyRead | writeCollision | schedTag
  | deadline | deviation | loopWrite | taskOverhang | arrayCollision | unboundWindow | poolBounds | decodeOverrun
  | scriptTiming | refreshDebt | parityDebt | dataqOverrun | sealFail | sealWrap | sealOrder | channelBounds | xlate
  | peerUnreachable | wrongSlot | linkLoss | gangAbort | memUe | sendqFull | lockDrift | railDown | elasticOnly
  | softTrap | breakpoint | preempt
  deriving DecidableEq, Repr

/-- A code's number, 16_faults.md Table 16.1. -/
def FCode.num (f : FCode) : Nat := f.ctorIdx + 1

/-- The producer of a write, an operation or a fault: the bundle and slot, or the receive index of a landing
(04_cycles.md R100, 16_faults.md Table 16.2). `cyc` and `tick` are the issue cycle and its tick. -/
structure Src where
  core : Nat := 0
  slot : Nat := 7
  head : Nat := 0
  cyc : Nat := 0
  tick : Nat := 0
  delay : Bool := false
  eng : Bool := false
  /-- a follow-on matrix command, 08_matrix.md R205 -/
  fo : Bool := false
  /-- the spill-and-fill engine, whose writes do not come from the fabric, 14_time_power.md R322 -/
  own : Bool := false
  /-- a fault of the bundle's issue: steps 1 to 5 of 02_bundles.md Table 2.11 -/
  atIssue : Bool := false
  rx : Option Nat := none
  deriving DecidableEq, Repr

/-- The clock that counts a write's due time: a core's cycles, a recovery task's cycles on a core, or pod ticks
(00_scope.md R3, 16_faults.md R365). -/
inductive Clk where
  | core (c : Nat)
  | recov (c : Nat)
  | tick
  deriving DecidableEq, Repr

/-- The clock of one of the cores `cs`. -/
def Clk.ofAny (cs : List Nat) : Clk → Bool
  | .core c => cs.contains c
  | .recov c => cs.contains c
  | .tick => false

/-- One loop level, 04_cycles.md Table 4.2, with its iteration number (03_numbers.md R88). -/
structure Loop where
  /-- LC, R108; reset 0 -/
  lc : BitVec 32 := 0
  /-- LA, R108; reset 0 -/
  la : BitVec 32 := 0
  /-- LB, R108; reset 0 -/
  lb : BitVec 15 := 0
  /-- LE, R108; reset 0 -/
  le : BitVec 15 := 0
  /-- LSD, R108; reset 0 -/
  lsd : X := 0
  /-- LSX[8], R108; reset 0 -/
  active : Bool := false
  /-- LSX[7], R108; reset 0 -/
  padded : Bool := false
  /-- LSX[6], R108; reset 0 -/
  rotate : Bool := false
  /-- LSX[4:0], R108; reset 0 -/
  lsx : XReg := 0
  /-- iteration number, R109 and 03_numbers.md R88; reset 0 -/
  iter : Nat := 0
  deriving DecidableEq, Repr

/-- Start rules of a task entry, 01_machine.md Table 1.5. -/
inductive StartRule where
  | fin | after | at | gate
  deriving DecidableEq, Repr

/-- A task entry, 01_machine.md Table 1.4. -/
structure Task where
  part : BitVec 32 := 0
  len : BitVec 32 := 0
  budget : BitVec 32 := 0
  v : BitVec 48 := 0
  rule : StartRule := .fin
  yieldable : Bool := false
  code : BitVec 15 := 0
  deriving DecidableEq, Repr

/-- A pending gate, 01_machine.md R23 and 14_time_power.md R319: kind, run tick, rail mask, clock request, HOLD, and the
tick of the PHASE that armed it. -/
structure Gate where
  elastic : Bool := false
  g : Nat := 0
  mask : BitVec 4 := 0
  n : Nat := 0
  hold : Bool := false
  armed : Nat := 0
  deriving DecidableEq, Repr

/-- What a core's sequencer does next, 04_cycles.md R94 and 01_machine.md Table 1.5. -/
inductive Seq where
  /-- in no run, or its first entry is END -/
  | off
  /-- the next task starts at a run tick -/
  | atTick (t : Nat)
  /-- the next task starts at a core cycle -/
  | atCycle (c : Nat)
  /-- the next bundle issues at a core cycle -/
  | issue (c : Nat)
  /-- held by the waits of `Core.waits` -/
  | wait
  /-- at its gate since pod tick `a` -/
  | gate (a : Nat)
  /-- past its END entry -/
  | done
  /-- stopped by a fault -/
  | stopped
  deriving DecidableEq, Repr

/-- What a waiting syllable waits for, 04_cycles.md R96. -/
inductive WaitFor where
  /-- LCYC at or above a value, R127 -/
  | lcyc (g : Nat)
  /-- PCC at or above a value, R127 -/
  | pcc (g : Nat)
  /-- a granule's tag, R127 -/
  | tag (addr : Nat) (t : BitVec 16)
  /-- tokens idle, 05_registers.md R153 -/
  | tokens (m : BitVec 8)
  /-- the answer to a LAUNCH, R128 -/
  | launch
  /-- the answer of far request `req` (LDF, AMO), or its translation and release hold (STF), 12_order.md R287, R291 -/
  | far (req : Nat)
  /-- every earlier write of the core homed in a scope, until a tick limit, 12_order.md R288 -/
  | fence (o : FenceOrd) (sc : Scope) (limit : Nat)
  /-- the release hold of a BAR, then the arrival: context, whether it then waits, 12_order.md R297 -/
  | barArrive (c : Nat) (thenWait : Bool)
  /-- a barrier phase bit other than `ph`, 12_order.md R297; `fromArr` counts from the arrival -/
  | barFlip (c : Nat) (ph : Bool)
  /-- a SLEW step: direction and whether it was computed by .auto, 14_time_power.md R316 -/
  | slew (dir : Int)
  /-- the answer to a QAPP, 12_order.md R299 -/
  | qapp (req : Nat)
  /-- room on a copy engine, a token, an expectation, a lane queue or the wire buffer; the syllable issues then
  (09_pool.md R215, 05_registers.md R152, 15_light.md R347, R350, R353) -/
  | room
  /-- the tags of a tag-checked load, 06_vector.md R178, 08_matrix.md R200; the load starts then -/
  | tags
  /-- the sample of a tag-checked vault load, 06_vector.md R178 -/
  | vault
  /-- an AMOL's result, 12_order.md R290 -/
  | amol (due : Nat)
  deriving DecidableEq, Repr

/-- The context of the step in hand: the unit it concerns and, for a syllable, its bundle (02_bundles.md R41, R56). -/
structure Ctx where
  core : Nat := 0
  slot : Slot := .s
  head : Nat := 0
  len : Nat := 1
  stall : Nat := 0
  lits : List W32 := []
  /-- false when the guard, the flags or the iteration nullify the syllable (01_machine.md R25) -/
  exec : Bool := true
  /-- the bundle lies in a nullified iteration (04_cycles.md R112) -/
  inNull : Bool := false
  /-- the bundle is a delay bundle of a taken transfer (04_cycles.md R104) -/
  delay : Bool := false
  run : Nat := 0
  chan : Nat := 0
  op : Nat := 0
  idx : Nat := 0
  req : Nat := 0
  part : Nat := 0
  vf : Nat := 0
  fn : Fn := .pf0
  session : Nat := 0
  lane : Nat := 0
  plane : Nat := 0
  /-- the burst that a landing carries -/
  burst : Nat := 0
  /-- the verify data of a FINISH, 19_host.md R408 -/
  verify : List Byte := []
  deriving DecidableEq, Repr

/-- One wait: the first cycle at which the next bundle may issue, what it waits for, the destination register, the
producer, and the syllable that issues when the wait ends. -/
structure Wait where
  base : Nat := 0
  what : WaitFor := .room
  /-- the syllable's context -/
  ctx : Ctx := {}
  /-- the operation it started -/
  op : Nat := 0
  xd : Option XReg := none
  src : Src := {}
  instr : Option Instr := none
  /-- the answer, once it has arrived -/
  ans : Option X := none
  /-- the tick generator makes this SLEW's step at the end of the tick in hand, 14_time_power.md R316 -/
  stepped : Bool := false
  /-- the flush read of a fence at SYSTEM scope, 12_order.md R288 -/
  flush : Option Nat := none
  deriving DecidableEq, Repr

/-- A step to run in a context. -/
structure Work where
  ctx : Ctx := {}
  instr : Instr := .nop
  deriving DecidableEq, Repr

/-- A step due at a time. -/
structure Due where
  due : Nat := 0
  work : Work := {}
  deriving DecidableEq, Repr

/-- A trap record, 16_faults.md Table 16.2. -/
structure Trap where
  w0 : X := 0
  w1 : X := 0
  w2 : X := 0
  w3 : X := 0
  w4 : X := 0
  w5 : X := 0
  w6 : X := 0
  w7 : X := 0
  deriving DecidableEq, Repr

/-- The carve of a partition word, 05_registers.md Table 5.2: bases of the items and the members allotted. -/
structure Carve where
  v : Nat := 16
  n : Nat := 0
  prot : Bool := false
  t : Nat := 0
  a : Nat := 0
  s : Nat := 0
  vb : Nat := 0x17F000
  tb : Nat := 0x17F000
  ab : Nat := 0x17F000
  sb : Nat := 0x17F000
  scrlim : Nat := 0x17F000
  deriving DecidableEq, Repr

/-- A decode table slot, 09_pool.md R222: container size in units of 64 bytes, and (length, code, symbol) of each
symbol. -/
structure DecTab where
  z : Nat := 0
  codes : List (Nat × Nat × Byte) := []
  deriving DecidableEq, Repr

/-- An armed expectation, 15_light.md R347: granule byte address, tag, cycle of the check, the LRECV. -/
structure Expect where
  addr : Nat := 0
  tag : BitVec 16 := 0
  e : Nat := 0
  src : Src := {}
  deriving DecidableEq, Repr

/-- An engine operation in flight (copy, channel, spill, matrix or vault access). Which fields count depends on its
instruction; addresses and registers are those fixed at issue (05_registers.md R135). -/
structure Op where
  src : Src := {}
  instr : Instr := .nop
  /-- copy engine 0 or 1, 09_pool.md R215 -/
  eng : Nat := 0
  /-- start cycle, once known -/
  st : Option Nat := none
  /-- completion cycle C, once known -/
  fin : Option Nat := none
  /-- destination address and core -/
  ad : Nat := 0
  cd : Nat := 0
  /-- source address and core -/
  as : Nat := 0
  cs : Nat := 0
  /-- hops, 09_pool.md R219 -/
  hs : Nat := 0
  hd : Nat := 0
  tag : BitVec 16 := 0
  /-- source and destination strides, 09_pool.md R220 -/
  ss : Int := 0
  ds : Int := 0
  /-- pool addresses of registers, or of the rows read, fixed at issue -/
  regs : List Nat := []
  /-- pool addresses of the rows written, 09_pool.md R220 -/
  rowsD : List Nat := []
  /-- bytes sampled so far -/
  buf : List Byte := []
  /-- lane mask or other operand bits -/
  mask : Mask := 0
  /-- lane addresses, `none` for an inactive lane, 06_vector.md R175 -/
  lanes : List (Option Nat) := []
  /-- operand values -/
  x0 : X := 0
  x1 : X := 0
  /-- format entry in force at issue, 03_numbers.md R88 -/
  fmt : BitVec 32 := 0
  /-- shape registers at issue, 08_matrix.md R192 -/
  shA : BitVec 18 := 0
  shB : BitVec 18 := 0
  shD : BitVec 18 := 0
  /-- stochastic state sampled, 03_numbers.md R83 -/
  srs : BitVec 32 := 0
  /-- the table of the slot in force at the start, 09_pool.md R224 -/
  tab : Option DecTab := none
  /-- the follow-on, 08_matrix.md R205 -/
  follow : Option Syllable := none
  /-- a collected burst was poisoned, 10_channels.md R252 -/
  poison : Bool := false
  /-- the container before failed -/
  failed : Bool := false
  /-- a collection or arrival waits in an elastic phase, 10_channels.md R266 -/
  waiting : Bool := false
  /-- containers or tiles decoded: bytes, failed, poisoned -/
  outs : List (List Byte × Bool × Bool) := []
  /-- tiles to seal: key, physical index, version and key slot; `none` moves nothing, 10_channels.md R265 -/
  seals : List (Option (BitVec 256 × Nat × Nat × Nat)) := []
  /-- samples of scale latches and table, one per summation block, 08_matrix.md R197 -/
  latches : List (BitVec 512 × BitVec 512 × List (BitVec 16)) := []
  /-- the starting accumulator, 08_matrix.md R197 -/
  accs : List W32 := []
  /-- the rows of tA's columns and tB's rows sampled so far -/
  cols : List (List Byte × List Byte) := []
  /-- writes still to come, for the scoreboard of 04_cycles.md R102: core, address and length -/
  fut : List (Nat × Nat × Nat) := []
  /-- x registers still to be written -/
  futX : List XReg := []
  deriving DecidableEq, Repr

/-- One core. -/
structure Core where
  /-- the live run, 01_machine.md R9; reset none -/
  run : Option Nat := none
  /-- sequencer state, 04_cycles.md R94; reset off -/
  seq : Seq := .off
  /-- number of the cycle in hand since T0, 00_scope.md R3; reset 0 -/
  cyc : Nat := 0
  /-- tick at which that cycle began; reset 0 -/
  cycTick : Nat := 0
  /-- a cycle is in progress, its writes not yet performed; reset false -/
  running : Bool := false
  /-- x registers, 05_registers.md R132; at T0 0; reset 0 (DESIGN CHOICE, log 8) -/
  x : Table X := []
  /-- predicates, 05_registers.md R132; at T0 false; reset 0 (DESIGN CHOICE, log 8) -/
  p : BitVec 16 := 0
  /-- lane masks, 05_registers.md R132; at T0 0; reset 0 (DESIGN CHOICE, log 8) -/
  q : Table Mask := []
  /-- cycle from which each token is idle, 05_registers.md R151; reset 0 -/
  tok : Table Nat := []
  /-- WID 0x000, 01_machine.md R21; reset 0 -/
  wid : X := 0
  /-- PART 0x004, 05_registers.md R130; reset 0 -/
  part : BitVec 32 := 0
  /-- FPMODE RM 0x008, 03_numbers.md Table 3.1; reset 0 -/
  rm : BitVec 2 := 0
  /-- FPMODE SRSTATE, 03_numbers.md Table 3.1, R83; reset 0 (DESIGN CHOICE, log 8: 0x9E3779B9 XOR core id at T0) -/
  srs : BitVec 32 := 0
  /-- FPSTAT 0x009, 03_numbers.md R76; reset 0 -/
  fpstat : BitVec 6 := 0
  /-- CHKMODE 0x00A, EARLY, 04_cycles.md R101; reset 0 (DESIGN CHOICE, log 8: from the last at T0) -/
  early : Bool := false
  /-- STATUS 0x00B, 05_registers.md R137; reset 0 -/
  status : BitVec 2 := 0
  /-- RRB 0x00C, 05_registers.md R134; reset 0 -/
  rrb : BitVec 5 := 0
  /-- loop levels 0..5, 04_cycles.md R108; reset 0 -/
  loops : Table Loop := []
  /-- TSHAPE 0x040..0x04F, 08_matrix.md R192; reset 0x7F7F -/
  tshape : Table (BitVec 18) := []
  /-- FTSEL 0x050, 03_numbers.md Table 3.9; reset 0 -/
  ftsel : BitVec 9 := 0
  /-- SPSTK 0x060, 05_registers.md R154; reset 0 -/
  spstk : BitVec 21 := 0
  /-- carve in force, 05_registers.md R131; reset that of partition word 0 -/
  carve : Carve := {}
  /-- format table, 03_numbers.md R87; reset 0x0004_318C in every entry -/
  fmt : Table (BitVec 32) := []
  /-- scale table, 03_numbers.md R89; reset 0x3F80 in every entry -/
  scale : Table (BitVec 16) := []
  /-- A-edge scale latch, 08_matrix.md R203; reset 0 -/
  latchA : BitVec 512 := 0
  /-- B-edge scale latch, 08_matrix.md R203; reset 0 -/
  latchB : BitVec 512 := 0
  /-- head and count of the stream buffers, 06_vector.md R180; reset 0 -/
  streams : Table (Nat × Nat) := []
  /-- decode table slots, 09_pool.md R222; reset invalid -/
  dectab : Table (Option DecTab) := []
  /-- hardware task table, 01_machine.md R15; reset empty -/
  tasks : List Task := []
  /-- index of the task entry in hand, 16_faults.md Table 16.2; reset 0 -/
  taskIx : Nat := 0
  /-- task sequence number, 01_machine.md Table 1.6; reset 0 -/
  taskSeq : Nat := 0
  /-- start cycle s of the task, 01_machine.md R17; reset 0 -/
  s : Nat := 0
  /-- a task is between its start and its TEND; reset false -/
  inTask : Bool := false
  /-- head word of the next bundle in sequence, 04_cycles.md R94; reset 0 -/
  nextPc : Nat := 0
  /-- delay bundles still to issue, 04_cycles.md R104; reset 0 -/
  delayLeft : Nat := 0
  /-- pending transfer target, 04_cycles.md R106; reset none -/
  target : Option Int := none
  /-- stall count of the last bundle issued; reset 0 -/
  stall : Nat := 0
  /-- head word of the last bundle issued; reset 0 -/
  lastHead : Nat := 0
  /-- the last bundle issued was a delay bundle; reset false -/
  lastDelay : Bool := false
  /-- the bundle in hand has the yield bit, 02_bundles.md R44; reset false -/
  yieldBit : Bool := false
  /-- waits that hold issue, 04_cycles.md R96; reset none -/
  waits : List Wait := []
  /-- syllables that issue in the next cycle after their wait; reset none -/
  ready : List Work := []
  /-- x registers written at the end of the previous cycle, with the values they held before and the producers (R100); reset
  none -/
  lastX : List (Nat × X × Src) := []
  /-- pending gate, 01_machine.md R23; reset none -/
  gate : Option Gate := none
  /-- PHASEK KIND, 14_time_power.md R320; reset locked -/
  elastic : Bool := false
  /-- PHASEK N, 14_time_power.md R320; reset 16 -/
  n : Nat := 16
  /-- PHASEK HOLD, 14_time_power.md R320; reset 0 -/
  hold : Bool := false
  /-- PHASEK rail mask in force, 14_time_power.md R320; reset 0xF -/
  mask : BitVec 4 := 0xF
  /-- PHASEK rail mask of the pending gate, 14_time_power.md R320; reset 0xF -/
  pendMask : BitVec 4 := 0xF
  /-- PHASEK kind of the pending gate, 14_time_power.md R320; reset 0 -/
  pendKind : Bool := false
  /-- PHASEK SKEW, 14_time_power.md R320; reset 0 -/
  skew : Nat := 0
  /-- PHASEK NCAP, 14_time_power.md R320, R326; reset 16 (DESIGN CHOICE, log 8) -/
  ncap : Nat := 16
  /-- run tick at which the phase began, 14_time_power.md R318; reset 0 -/
  phaseStart : Nat := 0
  /-- clock that the request and the skew give for the phase in force, 14_time_power.md R318; reset 16 -/
  request : Nat := 16
  /-- the clock is to be recomputed at the next frame boundary, 14_time_power.md R318; reset false -/
  reclock : Bool := false
  /-- skew and length of the phase that the core's last gate ending an elastic phase ended, R318; reset none -/
  lastElastic : Option (Nat × Nat) := none
  /-- powered rails, 14_time_power.md R321; reset 0xF -/
  rails : BitVec 4 := 0xF
  /-- rails that gates wake, with the tick at which they are powered, 14_time_power.md R322; reset none -/
  wake : List (BitVec 4 × Nat) := []
  /-- first cycle at which the array is free, 08_matrix.md R193; reset 0 -/
  arrayFree : Nat := 0
  /-- first cycle at which the tile mover is free, 08_matrix.md R193; reset 0 -/
  moverFree : Nat := 0
  /-- first cycle at which the spill engine can start, 05_registers.md R151; reset 0 -/
  spillFree : Nat := 0
  /-- the syllables that last took the array, the tile mover and the spill engine, 09_pool.md R228; reset none -/
  arraySrc : Src := {}
  moverSrc : Src := {}
  spillSrc : Src := {}
  /-- tick of the last executing TEND, 01_machine.md R9; reset 0 -/
  tendTick : Nat := 0
  /-- first cycle at which each copy engine can start, 09_pool.md R215; reset 0 -/
  copyFree : Table Nat := []
  /-- operations queued on each copy engine, not yet started, 09_pool.md R215; reset none -/
  copyQ : Table (List Nat) := []
  /-- operations by number; reset none -/
  ops : Table (Option Op) := []
  /-- steps due at cycles of this core; reset none -/
  sched : List Due := []
  /-- the engine steps of the cycle in hand with their operations before them, 16_faults.md R373; reset none -/
  engSteps : List (Work × Op) := []
  /-- the last array operation whose result has been written, 16_faults.md R373; reset none -/
  lastMma : Option Op := none
  /-- armed expectations, 15_light.md R347; reset none -/
  expects : List Expect := []
  /-- entries in use of the wire send buffer, 15_light.md R353: ticks at which they free; reset none -/
  wireBuf : List Nat := []
  /-- writes discarded since the last FENCE, 12_order.md R289; reset 0 -/
  discarded : Nat := 0
  /-- trap record, 16_faults.md R361; reset 0 -/
  trap : Trap := {}
  /-- the core has faulted: cycle and tick of its first fault; reset none -/
  faulted : Option (Nat × Nat) := none
  /-- place of that fault in the order of 01_machine.md R29 and 02_bundles.md R60; reset none -/
  faultKey : List Nat := []
  /-- the unit whose uncorrectable error stopped the core by MEM_UE, 16_faults.md R373; reset none -/
  ue : Option Unit' := none
  /-- sequencer state that the fault stopped, 16_faults.md R370; reset off -/
  held : Seq := .off
  /-- run tick before which a restart keeps the core clock-gated, 16_faults.md R370; reset 0 -/
  gatedTill : Nat := 0
  /-- the core runs a recovery task, 16_faults.md R365; reset false -/
  inRecov : Bool := false
  /-- local copies of the barrier phase bits, 12_order.md R296; reset 0 -/
  barPhase : BitVec 8 := 0
  deriving DecidableEq, Repr

/-- The launch record, 01_machine.md Table 1.1. -/
structure Last where
  addr : Nat := 0
  early : Bool := false
  gang : Bool := false
  recovery : Bool := false
  q : Nat := 2048
  t0 : Nat := 0
  coreGroups : BitVec 64 := 0
  bitmap : BitVec 32 := 0
  yieldGap : Nat := 0
  recBudget : Nat := 0
  recCode : Nat := 0
  recCore : Nat := 0
  channels : BitVec 64 := 0
  rackId : Nat := 0
  wid : List (Nat × Nat) := []
  user : X := 0
  rankMap : List Nat := []
  windows : List (Option (Nat × Nat × Nat)) := []
  deriving DecidableEq, Repr

/-- Where a run stands, 01_machine.md R27 to R34. -/
inductive RunState where
  /-- armed, waiting for T0 -/
  | armed
  | live
  /-- frozen since the tick Φ -/
  | frozen (phi : Nat)
  /-- every core has reached END, scripts running on until the tick -/
  | runon (until_ : Nat)
  | ended
  deriving DecidableEq, Repr

/-- The run's units work: it does not stand frozen. -/
def RunState.moving : RunState → Bool
  | .frozen _ => false
  | _ => true

/-- The cause of a freeze: its order key (tick, class, unit, index), the record, the fault code and whether the recovery
or the run's end posts it, 01_machine.md R29. -/
structure Cause where
  key : List Nat := []
  code : Nat := 0
  kind : Nat := 0
  unit : Nat := 0
  trap : Trap := {}
  /-- the core whose cycle f + 16 is the freeze tick, and that cycle -/
  byCore : Option (Nat × Nat) := none
  /-- the freeze tick otherwise -/
  byTick : Nat := 0
  /-- run tick at which the faulting unit's next cycle was due -/
  tau : Nat := 0
  deriving DecidableEq, Repr

/-- A failing sample that a THAW of a MEM_UE performs again: the step that makes it, its core as it then stood, the engine
operation before it, and the core's own record while the sample is performed (16_faults.md R373). -/
structure Replay where
  work : Work := {}
  core : Core := {}
  op : Option Op := none
  /-- the operation as it has completed since -/
  last : Option Op := none
  saved : Core := {}
  /-- the core's cycle of the sample -/
  cyc : Nat := 0
  deriving DecidableEq, Repr

/-- What a CHR writes from a poisoned burst, to be written again after a THAW: the operation with the bursts it collected, its
cycles `first` .. `last` that write from the burst, and the core cycle of the first (10_channels.md R252, 16_faults.md
R373). -/
structure Rewrite where
  op : Op := {}
  first : Nat := 0
  last : Nat := 0
  cyc : Nat := 0
  deriving DecidableEq, Repr

/-- A self-test of a unit, 14_time_power.md R325, 16_faults.md R373, R376. -/
structure Test where
  unit : Unit' := .coreState 0
  /-- the run that stays frozen until the verdict, none for a corrected error -/
  run : Option Nat := none
  /-- the test runs; it waits until no live run holds the unit -/
  started : Bool := false
  /-- the tick by which it has to be complete, where the spec gives one -/
  limit : Option Nat := none
  /-- the tick at which it is complete, once it runs, where nothing from outside says so earlier, and then whether it passes -/
  due : Option Nat := none
  passes : Bool := true
  deriving DecidableEq, Repr

/-- The recovery task of a run, 16_faults.md R364, R365: the designated core's saved record and pool bytes. -/
structure Recovery where
  core : Nat := 0
  saved : Core := {}
  bytes : List Byte := []
  deadline : Nat := 0
  deriving DecidableEq, Repr

/-- A bank of a channel, 10_channels.md R239, R243: open row and the run ticks of its last row commands. -/
structure Bank where
  row : Option Nat := none
  act : Option Nat := none
  pre : Option Nat := none
  refpb : Option Nat := none
  /-- refresh debt, 10_channels.md R244; at T0 0 -/
  debt : Int := 0
  deriving DecidableEq, Repr

/-- A data-queue slot, 10_channels.md R247: the burst, poisoned or not, and the run tick of its fill. -/
structure QSlot where
  data : List Byte := []
  poison : Bool := false
  /-- the burst it was read from -/
  key : Nat := 0
  at_ : Nat := 0
  deriving DecidableEq, Repr

/-- Seal latch states, 10_channels.md R257. -/
inductive LatchState where
  | empty | read | sealed
  deriving DecidableEq, Repr

/-- A seal latch, 10_channels.md R257. -/
structure Latch where
  st : LatchState := .empty
  tile : Nat := 0
  base : List Byte := []
  cur : List Byte := []
  load : Nat := 0
  deriving DecidableEq, Repr

/-- A script block: index, base cycle, command words, 10_channels.md R234. -/
structure Block where
  index : Nat := 0
  hdr : BitVec 64 := 0
  words : List (BitVec 64) := []
  deriving DecidableEq, Repr

/-- Script states of a channel, 10_channels.md R241. -/
inductive Script where
  /-- no script, or stopped -/
  | none_
  | running
  /-- held at GSYNC until the run passes its next gate -/
  | sync
  | ended
  deriving DecidableEq, Repr

/-- A command burst of a stripe in the tick in hand, 10_channels.md R249, R251. -/
inductive StripeKind where
  /-- a data WR without P -/
  | data
  /-- WR.X, with the burst it has taken from the slot of the retired stack's channel where there is one -/
  | par (b : Option QSlot)
  /-- RD.X into slot `q` -/
  | read (q : Nat)
  /-- a WR from a poisoned slot, R252 -/
  | poison
  deriving DecidableEq, Repr

/-- One entry of the stripe check of a tick: channel, its burst, the data written, the command's context. -/
structure StripeOp where
  chan : Nat := 0
  key : Nat := 0
  kind : StripeKind := .data
  data : List Byte := []
  ctx : Ctx := {}
  deriving DecidableEq, Repr

/-- An entry of a delta buffer, 10_channels.md R250: the parity burst, the delta, the run tick, the data channel. -/
structure Delta where
  key : Nat := 0
  data : List Byte := []
  at_ : Nat := 0
  chan : Nat := 0
  deriving DecidableEq, Repr

/-- One update that performs at the end of a cycle or tick, 04_cycles.md R98. -/
inductive Upd where
  | x (core : Nat) (r : XReg) (v : X)
  | p (core : Nat) (i : Nat) (b : Bool)
  | q (core : Nat) (i : QReg) (m : Mask)
  /-- WRSR -/
  | sr (core : Nat) (i : BitVec 12) (v : X)
  /-- PUSHM and POPM -/
  | spstk (core : Nat) (v : BitVec 21)
  /-- arming of a level by LOOP -/
  | arm (core lv : Nat) (l : Loop)
  /-- loop-back or exit of a level -/
  | loopStep (core lv : Nat) (back : Bool)
  /-- rotation -/
  | rotate (core : Nat)
  /-- bytes of a core's pool; with `whole`, the write is one register's -/
  | pool (core addr : Nat) (bs : List (Option Byte)) (whole : Bool)
  /-- bytes of a pool written by AMOL operation `op` of core `src`, 12_order.md R290 -/
  | amol (core addr : Nat) (bs : List (Option Byte)) (op : Nat)
  /-- bytes of an accumulator at `base`, from offset `off`, 08_matrix.md R194 -/
  | acc (core base off : Nat) (bs : List (Option Byte))
  /-- sequence tag of a granule -/
  | tag (core g : Nat) (t : BitVec 16)
  /-- instruction words and head bits -/
  | imem (core addr : Nat) (ws : List (W32 × Bool))
  /-- FPSTAT flags raised -/
  | flags (core : Nat) (f : BitVec 6)
  /-- STATUS bits set -/
  | stat (core : Nat) (b : BitVec 2)
  /-- a token busy to a cycle, 05_registers.md R151 -/
  | tok (core : Nat) (t : Nat) (idle : Nat)
  /-- SRSTATE advanced by a number of draws -/
  | srs (core : Nat) (n : Nat)
  /-- DRAIN.mark (closing, with the ranks each lane has to send a marker) and DRAIN.release, 15_light.md R354 -/
  | drain (part : Nat) (lanes : List (Nat × Option (List Nat))) (close : Bool)
  /-- QPOP: slots of a source rank's ring freed -/
  | qpop (part rank f : Nat)
  /-- QSEND: the flits of syllable `src` stand in the queue of a lane, 15_light.md R350 -/
  | queued (lane : Nat) (src : Src)
  | latchA (core : Nat) (h : BitVec 2) (v : BitVec 512)
  | latchB (core : Nat) (h : BitVec 2) (v : BitVec 512)
  | scale (core : Nat) (i : BitVec 4) (v : BitVec 16)
  | fmt (core : Nat) (i : BitVec 4) (v : BitVec 32)
  | ftsel (core : Nat) (v : BitVec 9)
  | stream (core k head cnt : Nat)
  | decTab (core slot : Nat) (t : Option DecTab)
  | gate (core : Nat) (g : Gate)
  /-- a data-queue slot of a channel fills -/
  | slot (chan q : Nat) (d : List Byte) (poison : Bool) (key : Nat) (op : Option Nat)
  /-- a seal latch; with `load`, a load whose cycle is that of the write -/
  | latch (chan l : Nat) (v : Latch) (load : Bool)
  deriving DecidableEq, Repr

/-- A pending write: the clock and time at whose end it performs, the update and its producer. -/
structure PWrite where
  clk : Clk := .tick
  due : Nat := 0
  upd : Upd
  src : Src := {}
  deriving DecidableEq, Repr

/-- What the firmware saves of a pre-empted run when it gives its cores and channels to another context, 16_faults.md Table
16.6. -/
structure Context where
  cores : List (Nat × Core) := []
  pool : Memory := []
  tags : Table (BitVec 16) := []
  imem : Table (W32 × Bool) := []
  /-- the delta buffers of its parity groups -/
  deltas : Table (List Delta) := []
  /-- results that its cores' later cycles write, R375 -/
  pend : List PWrite := []
  /-- the granules that its operations have written in, 09_pool.md R212 -/
  wrote : List (Src × Nat × Nat) := []
  deriving DecidableEq, Repr

/-- A channel, 10_channels.md R230. Times are run ticks. -/
structure Chan where
  /-- run whose script and queue it serves; reset none -/
  run : Option Nat := none
  script : Script := .none_
  /-- run tick at which the epoch started, R237; reset 0 -/
  epoch : Nat := 0
  cur : Block := {}
  /-- next command of the current block, 1..63; reset 1 -/
  ix : Nat := 1
  /-- stamp of the last command; reset 0 -/
  lastStamp : Nat := 0
  /-- block buffer, R240; reset none -/
  next : Option Block := none
  /-- a FETCH in progress: block index, run tick it started; reset none -/
  fetch : Option (Nat × Nat) := none
  /-- bytes that the FETCH has read; reset none -/
  fbuf : List Byte := []
  banks : Table Bank := []
  /-- the last ACTs: run tick, bank index, R243; reset none -/
  acts : List (Nat × Nat) := []
  /-- bursts of the column bus, done and to come: run tick, a write, bank index, R239, R243; reset none -/
  hist : List (Nat × Bool × Nat) := []
  /-- bursts, landings and parity writes of commands under way, by run tick; reset none -/
  bursts : List Due := []
  /-- run tick of the last row command; reset none -/
  rowAt : Option Nat := none
  /-- run tick of the last REF; reset none -/
  lastRef : Option Nat := none
  slots : Table (Option QSlot) := []
  /-- slots emptied, by run tick; reset none -/
  emptied : List (Nat × Nat) := []
  latches : Table Latch := []
  /-- keep buffer: burst, data, run tick, R250; reset none -/
  keep : List (Nat × List Byte × Nat) := []
  /-- parity bursts that PARRMW has read: burst and data; reset none -/
  par : List (Nat × List Byte) := []
  /-- guest window: end run tick, or until GCLOSE or the next gate; reset none -/
  guest : Option (Option Nat) := none
  /-- run tick of the last GOPEN or GSYNC; reset 0 -/
  heldAt : Nat := 0
  /-- pages that the blocks run so far have named, 10_channels.md R268; reset none -/
  named : List Nat := []
  deriving DecidableEq, Repr

/-- A run, 01_machine.md R9. -/
structure Run where
  st : RunState := .ended
  part : Nat := 0
  vf : Nat := 0
  /-- host tag, or core id of the LAUNCH, 19_host.md R402 -/
  tag : X := 0
  last : Last := {}
  /-- the cause record, 16_faults.md R361; reset 0 -/
  record : Trap := {}
  /-- cores in ascending id, 01_machine.md R15 -/
  cores : List Nat := []
  /-- device rank in the gang, 01_machine.md R10 -/
  rank : Nat := 0
  /-- TB, 01_machine.md R16, R31 -/
  tb : Nat := 0
  cause : Option Cause := none
  /-- tick of the recovery task's start, once known, 16_faults.md R364 -/
  recAt : Option Nat := none
  recov : Option Recovery := none
  /-- the recovery task's own fault code -/
  recFault : Nat := 0
  /-- gang abort tick A, 01_machine.md R32 -/
  abortAt : Option Nat := none
  /-- restart tick, 16_faults.md R369 -/
  restartAt : Option Nat := none
  /-- pre-emption requested, 01_machine.md R33 -/
  preempt : Bool := false
  /-- cycle of each core at the last yield cycle, 0 at the start, 01_machine.md R34 -/
  yieldCyc : Table Nat := []
  /-- the tick after the yield cycle at which a pre-emption is honoured, once it is known, 01_machine.md R33 -/
  yieldAt : Option Nat := none
  /-- tick at which the last core reached its END entry, 19_host.md Table 19.3 -/
  endTick : Nat := 0
  /-- the arm messages have been compared, 01_machine.md R27 -/
  checked : Bool := false
  /-- barrier contexts: arrived cores by context, 12_order.md R296 -/
  arrived : Table (List Nat) := []
  /-- root phase bits, 12_order.md R296 -/
  phase : BitVec 8 := 0
  /-- flips on their way: tick, context -/
  flips : List (Nat × Nat) := []
  /-- run tick of the last gate the run passed, 10_channels.md R241 -/
  gateTick : Option Nat := none
  /-- run tick before which a restart keeps the scripts gated, 16_faults.md R370 -/
  gatedTill : Nat := 0
  /-- unfinished self-tests the recovery waits for, 16_faults.md R373 -/
  tests : Nat := 0
  /-- abort code of ABORT, 16_faults.md R372 -/
  abortCode : BitVec 32 := 0
  /-- the failing samples that a THAW of a MEM_UE performs again, 16_faults.md R373 -/
  replay : List Replay := []
  /-- those that the restart in hand performs -/
  again : List Replay := []
  rewrites : List Rewrite := []
  /-- what the firmware has saved while another context holds the cores, 16_faults.md R375 -/
  context : Option Context := none
  contextChans : List (Nat × Chan) := []
  deriving DecidableEq, Repr

/-- TDISP interface states, 15_light.md Table 15.8. -/
inductive Tdi where
  | unlocked | locked | run | error
  deriving DecidableEq, Repr

/-- A partition, 19_host.md R403. -/
structure Part where
  made : Bool := false
  coreGroups : BitVec 64 := 0
  parityGroups : BitVec 64 := 0
  laneSets : BitVec 14 := 0
  confidential : Bool := false
  tdi : Tdi := .unlocked
  vf : Option Nat := none
  /-- key registers, 19_host.md R409 -/
  key0 : Option (BitVec 256) := none
  key1 : Option (BitVec 256) := none
  /-- CURRENT, 19_host.md R409 -/
  current : Bool := false
  /-- a rotation is in progress, 19_host.md R410: the new register once committed -/
  rotating : Option Bool := none
  /-- page-table root, 12_order.md R279; none until set -/
  root : Option Nat := none
  /-- page preload list, 18_prog_rings.md R390 -/
  preload : List Nat := []
  /-- queues known to the queue engines, by `Home.key` of the header, with the next packet to deliver, 12_order.md R300 -/
  queues : Table Nat := []
  /-- handler table words at 32h + i, 12_order.md R293 -/
  handlers : Table W32 := []
  /-- multicast group entries, 12_order.md R301: (commit tick, old, new) -/
  mcast : Table (Nat × BitVec 41 × BitVec 41) := []
  /-- core, base and ring length of the cask, 15_light.md R348 -/
  cask : Option CaskSpec := none
  /-- H and C of each source rank's ring, 15_light.md R348 -/
  rings : Table (Nat × Nat) := []
  /-- credits held for each rank's cask, 15_light.md R348 -/
  credits : Table Nat := []
  /-- credits owed to each rank, with the tick they became owed, 15_light.md R351 -/
  owed : Table (List (Nat × Nat)) := []
  /-- reach map, 15_light.md R355 -/
  reach : BitVec 32 := 0xFFFFFFFF
  /-- FENCE_LIMIT, 12_order.md R289 -/
  fenceLimit : Nat := 110000
  /-- QSEND threshold, 15_light.md R350 -/
  qsendThreshold : Nat := 256
  /-- page-counter threshold, 10_channels.md R267 -/
  counterThreshold : BitVec 16 := 0
  /-- control level, 14_time_power.md R327 -/
  expert : Bool := false
  /-- owner votes, 14_time_power.md R323 -/
  votes : List Nat := [0, 0, 0, 0]
  /-- credits are held by DRAIN, and markers received, 15_light.md R354 -/
  drained : Bool := false
  markersIn : Nat := 0
  /-- lanes named by the last DRAIN.mark -/
  drainMask : BitVec 64 := 0
  /-- TDI measurement, 19_host.md R408 -/
  measured : Option (List Byte) := none
  deriving DecidableEq, Repr

/-- A virtual function's launch queue, 19_host.md Table 19.2. -/
structure Vf where
  lqTail : BitVec 16 := 0
  lqHead : BitVec 16 := 0
  n : Nat := 4
  cqHead : BitVec 32 := 0
  cqTail : BitVec 32 := 0
  cqBase : BitVec 64 := 0
  evBase : BitVec 64 := 0
  /-- events posted to the event ring -/
  evCount : Nat := 0
  /-- submission entries written: slot, last address, tag, by LAUNCH or not -/
  entries : Table (Option (Nat × X × Bool)) := []
  /-- completion entries not yet posted for want of room, 19_host.md R402 -/
  waiting : List (List Byte) := []
  /-- ticks by which the entries that LQ_TAIL covers are taken, in slot order, 19_host.md R401 -/
  dues : List Nat := []
  deriving DecidableEq, Repr

/-- A flit on a send queue or a claimed position, 15_light.md R333. -/
structure Flit where
  cls : Nat := 0
  rank : Nat := 0
  core : Nat := 0
  line : Nat := 0
  mask : BitVec 16 := 0
  first : Bool := false
  tw : Bool := false
  tag : BitVec 16 := 0
  data : List Byte := []
  /-- a counted flit routed by wire, 15_light.md R350 -/
  wire : Bool := false
  /-- the syllable that sends it -/
  src : Src := {}
  part : Nat := 0
  /-- a claimed flit that has left -/
  gone : Bool := false
  /-- a counted flit whose QSEND's cycle has ended, and the tick in which it has -/
  ready : Bool := false
  readyAt : Nat := 0
  deriving DecidableEq, Repr

/-- A transmit lane, 15_light.md R328, R345, R350. -/
structure Lane where
  /-- lane sequence number, Table 15.2; reset 0 -/
  seq : BitVec 16 := 0
  /-- flits sent in the slot in progress: position, short class, bytes, 15_light.md R335; reset none -/
  sent : List (Nat × Bool × List Byte) := []
  /-- claims: (slot, position) and the flit, R346; reset none -/
  claims : List (Nat × Nat × Flit) := []
  queue : List Flit := []
  /-- closed by DRAIN; reset false -/
  closed : Bool := false
  /-- ranks still to receive a marker, once the queue is empty; reset none -/
  markers : Option (List Nat) := none
  /-- busy until these ticks, with the LSEND, R345; reset none -/
  busy : List (Nat × Src) := []
  /-- capability state, 16_faults.md Table 16.8: 0 primary, 1 spare, 2 carried by a reserve lane, 3 retired -/
  line : Nat := 0
  /-- comb lines whose spare line is in use, 15_light.md R330; reset none -/
  spare : List Nat := []
  /-- of a reserve lane: the lane whose rows it carries, 15_light.md Table 15.7; reset none -/
  carries : Option Nat := none
  /-- flits until this tick are lost; reset 0 -/
  lostUntil : Nat := 0
  /-- requested optical power, 14_time_power.md R326; reset 0 (DESIGN CHOICE, log 8) -/
  floor : Nat := 0
  /-- optical power the lane is driven at, 14_time_power.md R326; reset 0 (DESIGN CHOICE, log 8) -/
  drive : Nat := 0
  deriving DecidableEq, Repr

/-- A receive lane, 15_light.md R341, R342. -/
structure Rx where
  poison : Bool := false
  /-- sends whose FIRST flit has arrived; reset 0 -/
  send : Nat := 0
  /-- granules that a send has written, with the number of the send; reset none -/
  touched : List (Nat × Nat) := []
  deriving DecidableEq, Repr

/-- A flit on its way to a landing port, 15_light.md R341. -/
structure Landing where
  due : Nat := 0
  counted : Bool := false
  rx : Nat := 0
  flit : Flit := {}
  src : Nat := 0
  seq : BitVec 16 := 0
  credits : Nat := 0
  /-- number of its send on its receive lane -/
  send : Nat := 0
  /-- both copies failed (short) -/
  lost : Bool := false
  deriving DecidableEq, Repr

/-- What a lane sends in a slot, 15_light.md Table 15.1. -/
inductive LightUse where
  /-- a flit in a position -/
  | flit (pos : Nat)
  /-- the parity beat of a group -/
  | parity (group : Nat)
  /-- the copy of the slot's short flit -/
  | replay
  /-- beat 74: the PCC of the slot's cycle 0, the source rank and the timekeeper bit -/
  | beacon (pcc rank : Nat) (keeper : Bool)
  /-- beats 75 to 79 -/
  | training (beat : Nat)
  deriving DecidableEq, Repr

/-- Light sent: slot, port, lane, comb line, destination rank, use and bytes, 15_light.md R330 to R335. -/
structure LightTx where
  slot : Nat := 0
  port : Nat := 0
  lane : Nat := 0
  line : Nat := 0
  rank : Nat := 0
  what : LightUse := .flit 0
  bytes : List Byte := []
  deriving DecidableEq, Repr

/-- A landing port, 15_light.md R341. -/
structure Port where
  queue : List Landing := []
  lastWrite : Option Nat := none
  deriving DecidableEq, Repr

/-- A loaded racking table, 15_light.md Table 15.3. -/
structure Rack where
  d : Nat := 2
  rows : List (List Nat) := []
  mask : BitVec 14 := 0
  digest : List Byte := []
  /-- digests that other devices have announced -/
  peers : Table (List Byte) := []
  deriving DecidableEq, Repr

/-- A lane set's keys and interface, 15_light.md R357, R358. -/
structure LaneSet where
  key0 : BitVec 256 := 0
  key1 : BitVec 256 := 0
  /-- key index sent; reset 0 -/
  cur : Bool := false
  /-- flip slot, 15_light.md R357; reset none -/
  flip : Option Nat := none
  /-- the device whose session carried the new key, 19_host.md R408; reset 0 -/
  keyFrom : Nat := 0
  /-- racking tables by port, the newest first, each with the slot from which it is in force, `none` for the built-in table,
  15_light.md R339; reset none installed -/
  tables : Table (List (Nat × Option Rack)) := []
  deriving DecidableEq, Repr

/-- A plane's reconfiguration, 15_light.md Table 15.6: start slot, slots of the dark interval, ticks of the relock, new table
(`none` the built-in one) and reach map. -/
structure Plane where
  start : Option Nat := none
  dark : Nat := 0
  relock : Nat := 0
  table : Option Rack := none
  reach : BitVec 32 := 0
  part : Nat := 0
  deriving DecidableEq, Repr

/-- A home: host memory or not, device, page and offset, 12_order.md R279. -/
structure Home where
  host : Bool := false
  dev : Nat := 0
  frame : Nat := 0
  off : Nat := 0
  deriving DecidableEq, Repr

/-- A migration, checkpoint or restore that the dynamic copy engines have in hand, 10_channels.md R268, R269. -/
structure Move where
  fn : Fn := .pf0
  /-- to host memory, or from it -/
  out : Bool := true
  /-- the first tile and the number of tiles of a migration; a checkpoint takes every tile of the partition -/
  first : Nat := 0
  count : Nat := 0
  /-- host address of the copy -/
  host : Nat := 0
  /-- a migration's leaf entry: where it stands, and its new value -/
  leaf : Option (Home × BitVec 64) := none
  /-- tiles copied -/
  done : Nat := 0
  deriving DecidableEq, Repr

/-- Kinds of elastic request, 12_order.md R276. -/
inductive FarKind where
  | load (sign : Bool) | store | amo | qapp
  /-- the flush read of a fence, 12_order.md R288 -/
  | flush
  /-- packet `i` of the queue numbered `key` (`Home.key` of its header), 12_order.md R300 -/
  | deliver (key i : Nat)
  | move (m : Move)
  deriving DecidableEq, Repr

/-- How far a request has come. -/
inductive FarStage where
  /-- its page-table entries are to be read -/
  | walking
  /-- the page-table entries of a queue's ring are to be read, R299 -/
  | ringWalk
  /-- its translation answers at a cycle fixed already -/
  | translating
  /-- translated, held by its release (R287) or until another request has performed (R298) -/
  | held
  /-- on its way to its home, or waiting there for a window -/
  | sent
  /-- served at its home -/
  | served
  deriving DecidableEq, Repr

/-- A far request: LDF, STF, AMO, QAPP, or one of a guest or a peer (12_order.md R287, R291, R299; 10_channels.md R254). -/
structure Far where
  kind : FarKind := .store
  stage : FarStage := .walking
  /-- a store to a peer that a reach map has cut off since it was posted, 18_prog_rings.md R389 -/
  cut : Bool := false
  /-- the peer whose QAPP a queue engine writes this packet for -/
  asker : Option Nat := none
  core : Nat := 0
  /-- run of the core, none for a request from outside -/
  run : Option Nat := none
  part : Nat := 0
  va : Nat := 0
  size : Nat := 0
  data : List Byte := []
  h0 : X := 0
  h1 : X := 0
  handler : Nat := 0
  acq : Bool := false
  rel : Option Scope := none
  /-- tick at which it can be served -/
  at_ : Nat := 0
  /-- tick by which a peer's QAPP must have its answer -/
  lim : Nat := 0
  /-- home: page of host memory, or tile (channel × 2^18 + tile) of a device, and the offset in it -/
  host : Bool := false
  dev : Nat := 0
  frame : Nat := 0
  off : Nat := 0
  /-- device that sent it; 32 for the host, 33 for a queue engine, 34 for a copy engine -/
  origin : Nat := 0
  src : Src := {}
  /-- guest windows waited, 01_machine.md R35 -/
  age : Nat := 0
  /-- the value returned, or the failure -/
  value : X := 0
  err : Nat := 0
  /-- request number at the device that sent it -/
  reply : Nat := 0
  /-- its translation unit: 0..11 at the stacks, 12 at the host port -/
  unit : Nat := 0
  /-- channel whose guest window it waits for -/
  chan : Option Nat := none
  /-- the level and the place of the next table of its walk, none at the root -/
  tab : Option (Nat × Home) := none
  /-- its walk found no translation -/
  fail : Option FCode := none
  /-- an address of a queue's ring to be walked, and those that do not translate -/
  ring : Nat := 0
  failed : List Nat := []
  /-- the request that has to perform first -/
  after : Option Nat := none
  deriving DecidableEq, Repr

/-- The cobbler's handler in hand, 12_order.md R292: registers, flag, word counter, line and its channel address. -/
structure Cob where
  req : Nat := 0
  part : Nat := 0
  handler : Nat := 0
  pc : Nat := 0
  h0 : X := 0
  h1 : X := 0
  h2 : X := 0
  h3 : X := 0
  f : Bool := false
  w0 : Nat := 0
  line : List Byte := []
  wrote : Bool := false
  /-- micro-instructions still allowed -/
  left : Nat := 32
  deriving DecidableEq, Repr

/-- An SPDM session, 19_host.md R408. -/
structure Session where
  fn : Fn := .pf0
  /-- FINISH has been exchanged -/
  est : Bool := false
  secret : List Byte := []
  /-- key updates done -/
  updates : Nat := 0
  deriving DecidableEq, Repr

/-- SPDM with the controller of a peer, as requester and as responder, 19_host.md R408. -/
structure Peer where
  /-- the request whose response is awaited, 0 for none -/
  stage : Nat := 0
  /-- number of this device's share -/
  share : Nat := 0
  /-- the peer's chain, and its digest as the peer gave it -/
  digest : List Byte := []
  chain : List Byte := []
  /-- messages exchanged since GET_VERSION, and the secret of the session -/
  log : List Byte := []
  secret : List Byte := []
  /-- as responder: how far the peer has negotiated, the messages, the session and its secret -/
  heardAt : Nat := 0
  heard : List Byte := []
  opened : Bool := false
  est : Bool := false
  key : List Byte := []
  deriving DecidableEq, Repr

/-- A message of the device controller to a function: the answer of a management request or an SPDM response. -/
structure Answer where
  fn : Fn := .pf0
  /-- 0 DONE, 1 REFUSED, 2 BUSY, 3 NOT_OWNER for requests; the SPDM response code otherwise -/
  code : Nat := 0
  body : List Byte := []
  deriving DecidableEq, Repr

/-- Boot status, 19_host.md R407. -/
inductive Boot where
  /-- boot has not begun -/
  | off
  /-- stopped at step 1..4 -/
  | stopped (step : Nat)
  | up
  deriving DecidableEq, Repr

/-- A rail of the device, 14_time_power.md R323: the point its votes give it, and rises under way (completion tick, point). -/
structure Rail where
  point : Nat := 7
  rise : List (Nat × Nat) := []
  /-- the tick from which a bank's self-test holds the rail at point 7, 14_time_power.md R325; reset none -/
  drive : Option Nat := none
  deriving DecidableEq, Repr

/-- The capability map's changing fields, 16_faults.md Table 16.8. -/
structure Caps where
  generation : Nat := 0
  coreGroups : BitVec 64 := ~~~ 0
  retired : List Nat := []
  parityGroups : BitVec 64 := ~~~ 0
  stackSt : Table Nat := []
  comb : Table Nat := []
  overdrive : Table Nat := []
  paths : BitVec 128 := ~~~ 0
  rows : List (Nat × Nat × Nat) := []
  /-- overdrive-hours of the pairs as published, 0x0A8 -/
  hours : Table Nat := []
  deriving DecidableEq, Repr

/-- The device. -/
structure State where
  /-- power is applied, 19_host.md R406; reset true -/
  powered : Bool := true
  /-- PCC, 14_time_power.md R310; reset 0 (DESIGN CHOICE, log 7) -/
  tick : Nat := 0
  /-- part of the tick in hand (the model's own); reset 0 (DESIGN CHOICE, log 1) -/
  sub : Nat := 0
  /-- steps of this part of the tick still to run (the model's own); reset: POWER_UP (DESIGN CHOICE, log 1) -/
  todo : List Work := [{ instr := .powerUp }]
  /-- context of the step in hand (the model's own); reset empty (DESIGN CHOICE, log 1) -/
  ctx : Ctx := {}
  /-- number of the next free value (the model's own); reset 0 (DESIGN CHOICE, log 3) -/
  nonce : Nat := 0
  /-- what the outside world does, by tick (the model's own); reset nothing (DESIGN CHOICE, log 1) -/
  inbox : List Due := []
  /-- steps of the device due at ticks; reset none -/
  agenda : List Due := []
  /-- pending writes, 04_cycles.md R102; reset none -/
  pend : List PWrite := []
  /-- granules in which an operation that tags them has written, until its tag of each falls, 09_pool.md R212; reset none -/
  wrote : List (Src × Nat × Nat) := []
  /-- how many of them stood when the engines began this tick's work (the model's own); reset 0 (DESIGN CHOICE, log 1) -/
  pendMark : Nat := 0
  /-- cores by id, 00_scope.md R1; reset all idle -/
  cores : Table Core := []
  /-- pool bytes, key core × 2^21 + address, 09_pool.md R208; reset 0 (DESIGN CHOICE, log 2) -/
  pool : Memory := []
  /-- sequence tags, key core × 1,536 + granule, 09_pool.md R212; reset 0 (DESIGN CHOICE, log 8; 0 at T0) -/
  tags : Table (BitVec 16) := []
  /-- instruction words with head bits, key core × 32,768 + address, 02_bundles.md R37; reset 0 (DESIGN CHOICE, log 8) -/
  imem : Table (W32 × Bool) := []
  /-- HBM bytes, key (((channel × 49,152 + row) × 16 + bank) × 32 + column) × 32 + byte, 10_channels.md R230; reset 0
  (DESIGN CHOICE, log 2) -/
  hbm : Memory := []
  /-- poisoned bursts of HBM, by burst number, 10_channels.md R252; reset none -/
  poisoned : List Nat := []
  /-- host memory, 12_order.md R279; reset 0 (DESIGN CHOICE, log 2) -/
  host : Memory := []
  /-- runs by number; reset none -/
  runs : Table Run := []
  nextRun : Nat := 0
  nextOp : Nat := 0
  /-- channels, 10_channels.md R230; reset idle -/
  chans : Table Chan := []
  /-- delta buffers by parity group, 10_channels.md R250; reset none -/
  deltas : Table (List Delta) := []
  /-- bursts of this tick for the stripe checks, 10_channels.md R249, R251; reset none -/
  stripe : List StripeOp := []
  /-- page access counters, key channel × 12,192 + page, 10_channels.md R267; reset 0 -/
  counters : Table Nat := []
  /-- partitions 0..39, 19_host.md R403; reset none made -/
  parts : Table Part := []
  /-- virtual functions 1..256, 19_host.md R401; reset per Table 19.2 -/
  vfs : Table Vf := []
  /-- far and guest requests; reset none -/
  fars : Table (Option Far) := []
  nextFar : Nat := 0
  /-- translations held by each translation unit, newest first: partition, page, leaf entry and its number of pages,
  12_order.md R279, 18_prog_rings.md R390; reset none -/
  tlbs : Table (List (Nat × Nat × BitVec 64 × Nat)) := []
  /-- the tick from which each stack's cobbler is free, 12_order.md R292; reset 0 -/
  cobFree : Table Nat := []
  /-- the cobbler's handler in hand; reset none -/
  cob : Option Cob := none
  /-- transmit lanes 0..63, 15_light.md R328; reset idle -/
  lanes : Table Lane := []
  /-- receive lanes 0..127, 15_light.md R330; reset unmarked -/
  rxs : Table Rx := []
  /-- landing ports by core, 15_light.md R341; reset empty -/
  ports : Table Port := []
  /-- lane sets 0..13, 15_light.md R328; reset table 0, keys 0 (DESIGN CHOICE, log 8) -/
  laneSets : Table LaneSet := []
  /-- racking tables, key partition × 2^32 + id, 15_light.md R337, 19_host.md R403; reset none loaded -/
  racks : Table Rack := []
  /-- planes 0..3, 15_light.md R329; reset no reconfiguration -/
  planes : Table Plane := []
  /-- light sent by this device, newest first; reset none -/
  lightOut : List LightTx := []
  /-- wire messages sent: tick, device, message; reset none -/
  wireOut : List (Nat × Nat × Wire) := []
  /-- delivery tick of the last wire message that this device sent to itself, 15_light.md R352; reset 0 -/
  wireLast : Nat := 0
  /-- arm messages received: partition, device and T0 of the gang's last, 01_machine.md R26; reset none -/
  arms : List (Nat × Nat × Nat) := []
  /-- link statistics: flits and messages discarded, 01_machine.md R27; reset 0 -/
  linkDiscards : Nat := 0
  /-- PODOFF 0x070, 14_time_power.md R312; OFF is 0 before the first beacon after power-up, of which Table 14.1 gives no value (DESIGN
  CHOICE, log 8) -/
  podoff : Int := 0
  /-- consecutive slots without a beacon of the timekeeper, 15_light.md R332; reset 0 -/
  missed : Nat := 0
  /-- 1 + the last slot in which such a beacon has been found valid or missing (the model's own), 15_light.md R332; reset 0
  (DESIGN CHOICE, log 8) -/
  beaconSlot : Nat := 0
  /-- the slot in hand, whose boundary has run (the model's own), 14_time_power.md R312; reset 0 (DESIGN CHOICE, log 8) -/
  slotNow : Nat := 0
  /-- timekeeper rank, 15_light.md R332; reset 0, set at boot -/
  timekeeper : Nat := 0
  /-- tick-generator step of the tick in hand, 14_time_power.md R316; reset 0 -/
  slew : Int := 0
  /-- pod device index, 19_host.md Table 19.5; reset 0 (DESIGN CHOICE, log 8: from the configuration block) -/
  devIndex : Nat := 0
  /-- pod size D, 15_light.md R339; reset 1 (DESIGN CHOICE, log 8: `Config.podSize` from boot on) -/
  podSize : Nat := 1
  /-- F in ticks, 15_light.md R336; reset 160 -/
  flight : Nat := 160
  /-- rails MATRIX, VECTOR, SRAM, FABRIC, 14_time_power.md R323; reset point 7 -/
  rails : Table Rail := []
  /-- SRAM undervolt floor, 14_time_power.md R324; reset 5 -/
  floor : Nat := 5
  /-- boot status, 19_host.md R407; reset off -/
  boot : Boot := .off
  /-- external flash: the configuration block and the firmware image, 19_host.md R406; reset empty (DESIGN CHOICE, log 8) -/
  flash : List Byte := []
  firmware : List Byte := []
  /-- device secret, identity and alias keys, 19_host.md R407; reset empty -/
  secret : List Byte := []
  identity : List Byte := []
  alias_ : List Byte := []
  /-- measurement blocks, 19_host.md Table 19.6; reset empty -/
  measures : Table (List Byte) := []
  /-- SPDM sessions, 19_host.md R408; reset none -/
  sessions : Table (Option Session) := []
  /-- functions whose version, capabilities and algorithms are negotiated, 19_host.md R408; reset none -/
  spdm : List (Fn × Nat) := []
  /-- messages exchanged with each function since its GET_VERSION, for the transcript hash, 19_host.md R408; reset none -/
  transcripts : List (Fn × List Byte) := []
  /-- peers with an established session, 19_host.md R408; reset none -/
  peerSessions : List Nat := []
  /-- SPDM with the controllers of peers, 19_host.md R408; reset none -/
  peers : Table Peer := []
  /-- IDE streams 0..63 selective, 64 the link's: the function and the key, 19_host.md R399; reset none -/
  ide : Table (Option (Fn × BitVec 256)) := []
  /-- failed verifies of a rotation's scans: partition and tile, 19_host.md R410; reset none -/
  sealLog : List (Nat × Nat) := []
  /-- answers and responses to the functions, newest first; reset none -/
  answers : List Answer := []
  /-- MSI-X messages sent: virtual function, vector, newest first, 19_host.md R400; reset none -/
  msi : List (Nat × Nat) := []
  /-- capability map, 16_faults.md R379; reset Table 16.8 -/
  caps : Caps := {}
  /-- corrected errors by unit in this boot, 16_faults.md R376; reset none -/
  errors : List (Unit' × Nat) := []
  /-- self-tests under way or to come, 14_time_power.md R325, 16_faults.md R373, R376; reset none -/
  testing : List Test := []
  /-- instruction words with an uncorrectable error, key core × 32,768 + address, 16_faults.md Table 16.7; reset none -/
  badWords : List Nat := []
  /-- instruction words that CPI has loaded, with the same key, 16_faults.md R373; reset none -/
  cpiWords : List Nat := []
  /-- bursts whose next read the stack reports as uncorrectable, by burst number, 10_channels.md R252; reset none -/
  hbmUe : List Nat := []
  /-- pool banks under test whose error came below point 7, 14_time_power.md R325; reset none -/
  lowTests : List Unit' := []
  /-- pool banks whose error was logged as undervolt-transient, newest first, 14_time_power.md R325; reset none -/
  undervolts : List Unit' := []
  /-- units to retire at the end of a run, 16_faults.md R376; reset none -/
  retiring : List Unit' := []
  deriving DecidableEq, Repr

/-- The machine right after reset: power has come up, nothing has booted (19_host.md R406). -/
def State.reset : State := {}

end Sys2Proof.Machine
end

