-- ==== Sys2Proof/Machine/Ops.lean ====
section
/-! DEFINITION. The named operations over the state that the meanings share: access to registers, pools and memories,
deferring a write to the end of its cycle, performing it, raising a fault, and ending a run. -/

namespace Sys2Proof.Machine

/-- What running an instruction gives. -/
abbrev Out := Host.Outcome State Fault Refusal

/-! ## Numbers and bytes -/

/-- `n` bytes of a number, little-endian, 00_scope.md R5. -/
def leBytes : Nat → Nat → List Byte
  | 0, _ => []
  | n + 1, v => BitVec.ofNat 8 v :: leBytes n (v / 256)

/-- The number of little-endian bytes, 00_scope.md R5. -/
def ofLe : List Byte → Nat
  | [] => 0
  | b :: r => b.toNat + 256 * ofLe r

/-- Cuts a list into pieces of `k`, at most `n` of them. -/
def chunks {α : Type} (k : Nat) : Nat → List α → List (List α)
  | 0, _ => []
  | n + 1, l => l.take k :: chunks k n (l.drop k)

/-- Rounds a quotient up. -/
def ceilDiv (a b : Nat) : Nat := (a + b - 1) / b

/-- Sign extension of a 32-bit immediate to 64 bits. -/
def sext (i : BitVec 32) : X := i.signExtend 64

/-- Lexicographic order of keys. -/
def keyLt : List Nat → List Nat → Bool
  | [], [] => false
  | [], _ :: _ => true
  | _ :: _, [] => false
  | a :: r, b :: t => decide (a < b) || (a == b && keyLt r t)

/-- XOR of byte lists. -/
def xorBytes (a b : List Byte) : List Byte := List.zipWith (· ^^^ ·) a b

/-- All bytes of a write are given. -/
def someBytes (bs : List Byte) : List (Option Byte) := bs.map some

/-! ## Units of the device -/

/-- Core `c`. -/
def State.core (s : State) (c : Nat) : Core := Table.get {} s.cores c
/-- Puts core `c`. -/
def State.setCore (s : State) (c : Nat) (k : Core) : State := { s with cores := Table.put s.cores c k }
/-- Changes core `c`. -/
def State.modCore (s : State) (c : Nat) (f : Core → Core) : State := s.setCore c (f (s.core c))
/-- Changes every core, and those whose state is saved while a recovery task runs on them (16_faults.md R365). -/
def State.mapCores (s : State) (f : Core → Core) : State :=
  { s with cores := s.cores.map fun e => (e.1, f e.2)
           runs := s.runs.map fun e => (e.1, { e.2 with recov := e.2.recov.map fun q => { q with saved := f q.saved } }) }
/-- The core of the step in hand. -/
def State.me (s : State) : Core := s.core s.ctx.core
/-- Changes the core of the step in hand. -/
def State.modMe (s : State) (f : Core → Core) : State := s.modCore s.ctx.core f
/-- Run `r`. -/
def State.run (s : State) (r : Nat) : Run := Table.get {} s.runs r
/-- Changes run `r`. -/
def State.modRun (s : State) (r : Nat) (f : Run → Run) : State := { s with runs := Table.put s.runs r (f (s.run r)) }
/-- Channel `c`. -/
def State.chan (s : State) (c : Nat) : Chan := Table.get {} s.chans c
/-- Changes channel `c`. -/
def State.modChan (s : State) (c : Nat) (f : Chan → Chan) : State := { s with chans := Table.put s.chans c (f (s.chan c)) }
/-- Partition `p`. -/
def State.part (s : State) (p : Nat) : Part := Table.get {} s.parts p
/-- Changes partition `p`. -/
def State.modPart (s : State) (p : Nat) (f : Part → Part) : State := { s with parts := Table.put s.parts p (f (s.part p)) }
/-- Virtual function `v`. -/
def State.vf (s : State) (v : Nat) : Vf := Table.get {} s.vfs v
/-- Changes virtual function `v`. -/
def State.modVf (s : State) (v : Nat) (f : Vf → Vf) : State := { s with vfs := Table.put s.vfs v (f (s.vf v)) }
/-- Transmit lane `l`. -/
def State.lane (s : State) (l : Nat) : Lane := Table.get {} s.lanes l
/-- Changes transmit lane `l`. -/
def State.modLane (s : State) (l : Nat) (f : Lane → Lane) : State := { s with lanes := Table.put s.lanes l (f (s.lane l)) }
/-- Lane set `j`. -/
def State.laneSet (s : State) (j : Nat) : LaneSet := Table.get {} s.laneSets j
/-- Changes lane set `j`. -/
def State.modLaneSet (s : State) (j : Nat) (f : LaneSet → LaneSet) : State :=
  { s with laneSets := Table.put s.laneSets j (f (s.laneSet j)) }
/-- Changes the record of a receive lane, 15_light.md R342. -/
def State.modRx (s : State) (i : Nat) (f : Rx → Rx) : State := { s with rxs := Table.put s.rxs i (f (Table.get {} s.rxs i)) }
/-- Landing port of core `c`. -/
def State.port (s : State) (c : Nat) : Port := Table.get {} s.ports c
/-- Changes the landing port of core `c`. -/
def State.modPort (s : State) (c : Nat) (f : Port → Port) : State := { s with ports := Table.put s.ports c (f (s.port c)) }
/-- Rail `r`. -/
def State.rail (s : State) (r : Nat) : Rail := Table.get {} s.rails r
/-- Far request `r`. -/
def State.far (s : State) (r : Nat) : Far := (Table.get none s.fars r).getD {}
/-- Puts far request `r`. -/
def State.setFar (s : State) (r : Nat) (f : Option Far) : State := { s with fars := Table.put s.fars r f }
/-- The run of core `c`, if it is in one. -/
def State.runOf (s : State) (c : Nat) : Option Run := (s.core c).run.map s.run
/-- The run tick of the present tick for run `r`, 01_machine.md R16. -/
def State.runTick (s : State) (r : Nat) : Nat := s.tick - (s.run r).tb
/-- The partition of core `c`. -/
def State.partOf (s : State) (c : Nat) : Nat := ((s.runOf c).map (·.part)).getD 0

/-- The next free value's number, and the state that has used it. -/
def State.draw (s : State) : Nat × State := (s.nonce, { s with nonce := s.nonce + 1 })

/-! ## Registers -/

/-- Puts a vector register's or predicate's bases: VB, TB, AB, SB and SCRLIM of a partition word, 05_registers.md Table
5.2. -/
def carveOf (w : BitVec 32) : Carve :=
  let v := 16 * ((bits w 0 2).toNat + 1)
  let n := match (bits w 2 2).toNat with
    | 0 => 0
    | 1 => 8
    | 2 => 16
    | _ => 32
  let t := (bits w 4 5).toNat
  let a := (bits w 9 4).toNat
  let s := match (bits w 14 2).toNat with
    | 0 => 0
    | 1 => 1
    | 2 => 2
    | _ => 4
  let k := (bits w 16 5).toNat
  let vb := 0x180000 - 256 * v
  let tb := vb - 16384 * t
  let ab := tb - 65536 * a
  let sb := ab - 16384 * s
  { v := v, n := n, prot := w.getLsbD 13, t := t, a := a, s := s, vb := vb, tb := tb, ab := ab, sb := sb,
    scrlim := sb - 4096 * k }

/-- Register x`r`; x0 reads 0 (02_bundles.md R48). -/
def Core.xr (k : Core) (r : XReg) : X := if r = 0 then 0 else Table.get 0 k.x r.toNat
/-- Physical predicate of a name, 05_registers.md R134. -/
def Core.pphys (k : Core) (i : PReg) : Nat :=
  if k.carve.prot && decide (8 ≤ i.toNat) then 8 + (i.toNat - 8 + k.rrb.toNat) % 8 else i.toNat
/-- Predicate p`i`; p0 reads true (02_bundles.md R48). -/
def Core.pr (k : Core) (i : PReg) : Bool := i == 0 || k.p.getLsbD (k.pphys i)
/-- Lane mask q`i`; q0 reads all ones (02_bundles.md R48). -/
def Core.qr (k : Core) (i : QReg) : Mask := if i = 0 then ~~~ 0 else Table.get 0 k.q i.toNat
/-- Physical vector register of a name, 05_registers.md R134. -/
def Core.vphys (k : Core) (r : VReg) : Nat :=
  let b := k.carve.v - k.carve.n
  if decide (r.toNat < b) || k.carve.n == 0 then r.toNat else b + (r.toNat - b + k.rrb.toNat) % k.carve.n
/-- Pool address of a vector register, 05_registers.md Table 5.2. -/
def Core.vaddr (k : Core) (r : VReg) : Nat := k.carve.vb + 256 * k.vphys r
/-- Pool address of a tile, 08_matrix.md R191. -/
def Core.taddr (k : Core) (t : BitVec 4) : Nat := k.carve.tb + 16384 * t.toNat
/-- Pool address of an accumulator, 08_matrix.md R191. -/
def Core.aaddr (k : Core) (a : BitVec 3) : Nat := k.carve.ab + 65536 * a.toNat
/-- Loop level `n`. -/
def Core.loopOf (k : Core) (n : Nat) : Loop := Table.get {} k.loops n
/-- TSHAPE of tile `t`, 08_matrix.md R192. -/
def Core.shape (k : Core) (t : Nat) : BitVec 18 := Table.get 0x7F7F k.tshape t
/-- Format-table entry `i`, 03_numbers.md R87. -/
def Core.fmtOf (k : Core) (i : Nat) : BitVec 32 := Table.get 0x0004318C k.fmt i
/-- Scale-table entry `i`, 03_numbers.md R89. -/
def Core.scaleOf (k : Core) (i : Nat) : BitVec 16 := Table.get 0x3F80 k.scale i
/-- The format entry in force, 03_numbers.md R88. -/
def Core.fmtNow (k : Core) : BitVec 32 :=
  let base := (bits k.ftsel 4 4).toNat
  let l := k.loopOf (bits k.ftsel 0 3).toNat
  if k.ftsel.getLsbD 8 then k.fmtOf ((base + (if l.active then l.iter else 0)) % 16) else k.fmtOf base
/-- LCYC, 04_cycles.md R97. -/
def Core.lcyc (k : Core) : Nat := k.cyc - k.s
/-- Token `t` is idle, 05_registers.md R151. -/
def Core.tokIdle (k : Core) (t : Nat) : Bool := decide (Table.get 0 k.tok t ≤ k.cyc)

/-- Register x`r` of the core in hand. -/
def State.xr (s : State) (r : XReg) : X := s.me.xr r
/-- Key of a pool byte. -/
def poolKey (c a : Nat) : Nat := c * 2097152 + a
/-- `n` bytes of core `c`'s pool from address `a`. -/
def State.poolRead (s : State) (c a n : Nat) : List Byte := s.pool.read (poolKey c a) n
/-- Sequence tag of the granule that holds address `a` of core `c`'s pool, 09_pool.md R212. -/
def State.tagAt (s : State) (c a : Nat) : BitVec 16 := Table.get 0 s.tags (c * 1536 + a / 1024)
/-- A tag check, 09_pool.md R213. -/
def State.tagOk (s : State) (c a : Nat) (e : BitVec 16) : Bool := s.tagAt c a == e && e != 0xFFFF
/-- The 256 bytes of a vector register of the core in hand. -/
def State.vreg (s : State) (r : VReg) : List Byte := s.poolRead s.ctx.core (s.me.vaddr r) 256
/-- Word `a` of core `c`'s instruction memory with its head bit, 02_bundles.md R37. -/
def State.imemAt (s : State) (c a : Nat) : W32 × Bool := Table.get (0, false) s.imem (c * 32768 + a)

/-! ## Addresses -/

/-- Die of a core, 00_scope.md Table 0.1. -/
def die (c : Nat) : Nat := c / 256
/-- Linear row of a core, 09_pool.md R210. -/
def linRow (c : Nat) : Nat := 16 * (c / 256) + c / 16 % 16
/-- Absolute difference. -/
def dist (a b : Nat) : Nat := (a - b) + (b - a)
/-- Hop count between two places given by linear row, column and die, 09_pool.md R210, 10_channels.md R233. -/
def hops (c d : Nat) : Nat := dist (linRow c) (linRow d) + dist (c % 16) (d % 16) + (if die c = die d then 0 else 6)
/-- The mesh position of a stack's controllers, 10_channels.md R233. -/
def stackAt (st : Nat) : Nat := 256 * (st / 6) + 16 * (2 + 5 * (st % 3)) + (if st % 6 < 3 then 0 else 15)
/-- Channel distance Hc, 10_channels.md R233. -/
def chanHops (c cn : Nat) : Nat := hops c (stackAt (cn / 64))
/-- Core group of a core, 01_machine.md R12. -/
def coreGroup (c : Nat) : Nat := die c * 32 + (c / 16 % 16) / 2 * 4 + c % 16 / 4
/-- The core and offset of an address, 01_machine.md Table 1.8, 05_registers.md R144. -/
def poolAddr (self : Nat) (a : X) : Option (Nat × Nat) :=
  if a.toNat < 0x180000 then some (self, a.toNat)
  else if bits a 31 33 == 0 && a.getLsbD 30 && decide ((bits a 0 21).toNat < 0x180000) then
    some ((bits a 21 9).toNat, (bits a 0 21).toNat)
  else none
/-- The address names a vault, even the core's own. -/
def isVault (a : X) : Bool := !decide (a.toNat < 0x180000)
/-- Bytes `a .. a + n − 1` lie in the core's own scratch, 05_registers.md R131. -/
def Core.inScratch (k : Core) (a : X) (n : Nat) : Bool := decide (a.toNat + n ≤ k.carve.scrlim)
/-- Core `d` belongs to the run of core `c`. -/
def State.sameRun (s : State) (c d : Nat) : Bool := (s.core c).run.isSome && (s.core c).run == (s.core d).run

/-! ## Deferring writes -/

/-- The clock of core `c`, 16_faults.md R365. -/
def State.clkOf (s : State) (c : Nat) : Clk := if (s.core c).inRecov then .recov c else .core c
/-- The producer of the syllable in hand; index 3 of the context marks a follow-on. -/
def State.src (s : State) : Src :=
  { core := s.ctx.core, slot := s.ctx.slot.num, head := s.ctx.head, cyc := s.me.cyc, tick := s.tick, delay := s.ctx.delay,
    eng := s.ctx.idx == 3, fo := s.ctx.idx == 3 }
/-- Adds a pending write. -/
def State.push (s : State) (w : PWrite) : State := { s with pend := s.pend ++ [w] }
/-- The syllable in hand writes at the end of cycle c0 + `d`, 04_cycles.md R98. -/
def State.defer (s : State) (d : Nat) (u : Upd) : State :=
  s.push { clk := s.clkOf s.ctx.core, due := s.me.cyc + d, upd := u, src := s.src }
/-- The operation of producer `p` writes at the end of the present cycle + `d` of its core. -/
def State.deferOp (s : State) (p : Src) (d : Nat) (u : Upd) : State :=
  s.push { clk := s.clkOf p.core, due := (s.core p.core).cyc + d, upd := u, src := { p with eng := true } }
/-- The operation of producer `p` tags granule `g` of core `c` with 0xFFFF at the end of the present cycle + `d`, since data for it
did not come; that tag falls whatever the operation has written in the granule (09_pool.md R212, R225, 10_channels.md R252, R263). -/
def State.markTag (s : State) (p : Src) (d c g : Nat) : State :=
  { s.deferOp p d (.tag c g 0xFFFF) with wrote := ({ p with eng := true }, c, g) :: s.wrote }
/-- The operation of producer `p` tags granule `g` of core `c` with `t`, or, where its data did not come, with 0xFFFF. -/
def State.deferTag (s : State) (p : Src) (d c g : Nat) (bad : Bool) (t : BitVec 16) : State :=
  if bad then s.markTag p d c g else s.deferOp p d (.tag c g t)
/-- A write at the end of a pod tick. -/
def State.deferTick (s : State) (p : Src) (t : Nat) (u : Upd) : State :=
  s.push { clk := .tick, due := t, upd := u, src := p }
/-- The syllable in hand writes register xd at the end of cycle c0 + `d`. -/
def State.deferX (s : State) (d : Nat) (xd : XReg) (v : X) : State := s.defer d (.x s.ctx.core xd v)
/-- The syllable in hand writes predicate pd at the end of c0, renamed at issue (05_registers.md R135). -/
def State.deferP (s : State) (pd : PReg) (b : Bool) : State :=
  if pd = 0 then s else s.defer 0 (.p s.ctx.core (s.me.pphys pd) b)
/-- A step due in cycle `c` of core `k`; one for the cycle in hand whose engine steps are already taken follows them (the
model's own order, log entry 1). -/
def State.at (s : State) (k c : Nat) (w : Work) : State :=
  if decide (10 < s.sub) && decide (c ≤ (s.core k).cyc) then { s with todo := s.todo ++ [w] }
  else s.modCore k fun q => { q with sched := q.sched ++ [{ due := c, work := w }] }
/-- A step due at pod tick `t`. -/
def State.atTick (s : State) (t : Nat) (w : Work) : State := { s with agenda := s.agenda ++ [{ due := t, work := w }] }
/-- The core waits; the bundle's stall runs first (04_cycles.md R95, R96). Beside an executing TEND, whose bundle's stall is
ignored, the wait holds the start of the next task (DEDUCED, log 26). -/
def State.hold (s : State) (w : WaitFor) (xd : Option XReg) (i : Option Instr) : State :=
  s.modMe fun k =>
    let x : Wait := { base := k.cyc + 1 + (if k.inTask then s.ctx.stall else 0), what := w, ctx := s.ctx,
                      op := s.ctx.op, xd := xd, src := s.src, instr := i }
    let k := { k with waits := k.waits ++ [x] }
    if !k.inTask then k else if k.faulted.isSome then { k with held := .wait } else { k with seq := .wait }
/-- Operation `o` of core `c`. -/
def State.op (s : State) (c o : Nat) : Op := (Table.get none (s.core c).ops o).getD {}
/-- Puts operation `o` of core `c`; `none` forgets it. -/
def State.setOp (s : State) (c o : Nat) (v : Option Op) : State :=
  s.modCore c fun k => { k with ops := if v.isSome then Table.put k.ops o v else k.ops.filter fun e => e.1 != o }
/-- The operation of the step in hand. -/
def State.myOp (s : State) : Op := s.op s.ctx.core s.ctx.op
/-- Files a new operation of core `c` and gives its number. -/
def State.newOp (s : State) (c : Nat) (o : Op) : Nat × State :=
  (s.nextOp, { s with nextOp := s.nextOp + 1 }.setOp c s.nextOp (some o))

/-! ## Performing writes -/

/-- Special-register values are filtered by their maps, 04_cycles.md R123, 05_registers.md Table 5.4. -/
def Core.writeSr (k : Core) (i : BitVec 12) (v : X) : Core :=
  let lo := bits v 0 32
  let lv := (bits i 0 3).toNat
  let setLoop := fun (f : Loop → Loop) => if lv < 6 then { k with loops := Table.put k.loops lv (f (k.loopOf lv)) } else k
  match i.toNat with
  | 0x008 => { k with rm := bits v 0 2, srs := if bits v 32 32 == 0 then 0x9E3779B9 else bits v 32 32 }
  | 0x009 => { k with fpstat := bits v 0 6 }
  | 0x00A => { k with early := v.getLsbD 0 }
  | 0x00B => { k with status := bits v 0 2 }
  | 0x00C => { k with rrb := bits v 0 5 }
  | 0x050 => { k with ftsel := bits v 0 9 &&& 0x1F7 }
  | 0x060 => { k with spstk := bits v 0 21 }
  | n =>
    if 0x010 ≤ n ∧ n < 0x018 then setLoop fun l => { l with lc := lo }
    else if 0x018 ≤ n ∧ n < 0x020 then setLoop fun l => { l with la := lo }
    else if 0x020 ≤ n ∧ n < 0x028 then setLoop fun l => { l with lb := bits v 0 15 }
    else if 0x028 ≤ n ∧ n < 0x030 then setLoop fun l => { l with le := bits v 0 15 }
    else if 0x030 ≤ n ∧ n < 0x038 then setLoop fun l => { l with lsd := v }
    else if 0x038 ≤ n ∧ n < 0x040 then setLoop fun l => { l with lsx := bits v 0 5 }
    else if 0x040 ≤ n ∧ n < 0x050 then { k with tshape := Table.put k.tshape (n - 0x040) (bits v 0 18 &&& 0x37F7F) }
    else k

/-- The xorshift step of 03_numbers.md R83. -/
def srsNext (s : BitVec 32) : BitVec 32 :=
  let s := s ^^^ (s <<< 13)
  let s := s ^^^ (s >>> 17)
  s ^^^ (s <<< 5)

/-- `n` applications of `srsNext`. -/
def srsIter : Nat → BitVec 32 → BitVec 32
  | 0, s => s
  | n + 1, s => srsIter n (srsNext s)

/-- A loop-back or exit, 04_cycles.md R110. -/
def Loop.step (l : Loop) (back : Bool) : Loop :=
  if back then { l with lc := l.lc - 1, la := if l.la = 0 then 0 else l.la - 1, iter := l.iter + 1 }
  else { l with lc := 0, la := 0, active := false, iter := 0 }

/-- Fills a data-queue slot, at the end of the tick before the present one (10_channels.md R247). -/
def State.fillSlot (s : State) (cn q : Nat) (d : List Byte) (p : Bool) (key : Nat) : State :=
  s.modChan cn fun c =>
    { c with slots := Table.put c.slots q (some { data := d, poison := p, key := key,
                                                    at_ := s.tick - 1 - ((c.run.map fun r => (s.run r).tb).getD 0) }) }

/-- Performs one update, 04_cycles.md R98, R99. -/
def State.apply (s : State) (u : Upd) : State :=
  match u with
  | .x c r v =>
    if r = 0 then s
    else s.modCore c fun k => { k with x := Table.put k.x r.toNat v }
  | .p c i b => s.modCore c fun k => { k with p := if b then k.p ||| (1#16 <<< i) else k.p &&& ~~~ (1#16 <<< i) }
  | .q c i m => if i = 0 then s else s.modCore c fun k => { k with q := Table.put k.q i.toNat m }
  | .sr c i v => s.modCore c fun k => k.writeSr i v
  | .spstk c v => s.modCore c fun k => { k with spstk := v }
  | .arm c n l => s.modCore c fun k =>
      { k with loops := Table.put k.loops n { l with lsd := (k.loopOf n).lsd, lsx := (k.loopOf n).lsx } }
  | .loopStep c n b => s.modCore c fun k => { k with loops := Table.put k.loops n ((k.loopOf n).step b) }
  | .rotate c => s.modCore c fun k => { k with rrb := k.rrb - 1 }
  | .pool c a bs _ => { s with pool := s.pool.write (poolKey c a) bs }
  | .amol c a bs _ => { s with pool := s.pool.write (poolKey c a) bs }
  | .acc c b o bs => { s with pool := s.pool.write (poolKey c (b + o)) bs }
  | .tag c g t => { s with tags := Table.put s.tags (c * 1536 + g) t }
  | .imem c a ws =>
    let new := (List.range ws.length).map (c * 32768 + a + ·)
    { s with imem := (ws.zipIdx).foldl (fun m e => Table.put m (c * 32768 + a + e.2) e.1) s.imem
             badWords := s.badWords.filter fun w => !new.contains w
             cpiWords := new ++ s.cpiWords.filter fun w => !new.contains w }
  | .flags c f => s.modCore c fun k => { k with fpstat := k.fpstat ||| f }
  | .stat c b => s.modCore c fun k => { k with status := k.status ||| b }
  | .tok c t n => s.modCore c fun k => { k with tok := Table.put k.tok t (max n (Table.get 0 k.tok t)) }
  | .srs c n => s.modCore c fun k => { k with srs := srsIter n k.srs }
  | .qpop p r f => s.modPart p fun q =>
      let (h, n) := Table.get (0, 0) q.rings r
      let m := max 1 ((q.cask.map (·.n)).getD 1)
      { q with rings := Table.put q.rings r ((h + f) % m, n - f) }
  | .queued l p => s.modLane l fun l => { l with queue := l.queue.map fun f => if f.src == p then { f with ready := true, readyAt := s.tick } else f }
  | .drain p ls close =>
      let s := ls.foldl (fun s e => s.modLane e.1 fun l => { l with closed := close, markers := e.2 }) s
      s.modPart p fun q => { q with drained := close, markersIn := if close then q.markersIn else 0 }
  | .latchA c _ v => s.modCore c fun k => { k with latchA := v }
  | .latchB c _ v => s.modCore c fun k => { k with latchB := v }
  | .scale c i v => s.modCore c fun k => { k with scale := Table.put k.scale i.toNat v }
  | .fmt c i v => s.modCore c fun k => { k with fmt := Table.put k.fmt i.toNat v }
  | .ftsel c v => s.modCore c fun k => { k with ftsel := v }
  | .stream c b h n => s.modCore c fun k => { k with streams := Table.put k.streams b (h, n) }
  | .decTab c i t => s.modCore c fun k => { k with dectab := Table.put k.dectab i t }
  | .gate c g => s.modCore c fun k => { k with gate := some g, pendMask := g.mask, pendKind := g.elastic }
  | .slot cn q d p key _ => s.fillSlot cn q d p key
  | .latch cn l v ld =>
    let rt := s.tick - 1 - (((s.chan cn).run.map fun r => (s.run r).tb).getD 0)
    s.modChan cn fun c => { c with latches := Table.put c.latches l (if ld then { v with load := rt } else v) }

/-- The bytes of a pool write that count for a collision: all of a register's, else those written (04_cycles.md R100). -/
def touches (bs : List (Option Byte)) (whole : Bool) (i : Nat) : Bool :=
  decide (i < bs.length) && (whole || (bs.getD i none).isSome)

/-- The first byte that two pool writes share. -/
def poolHit (a : Nat) (bs : List (Option Byte)) (w : Bool) (a' : Nat) (bs' : List (Option Byte)) (w' : Bool) : Option Nat :=
  let lo := Nat.max a a'
  let hi := Nat.min (a + bs.length) (a' + bs'.length)
  ((List.range (hi - lo)).find? fun i => touches bs w (lo + i - a) && touches bs' w' (lo + i - a')).map (lo + ·)

/-- Two pool writes share a byte. -/
def poolClash (a : Nat) (bs : List (Option Byte)) (w : Bool) (a' : Nat) (bs' : List (Option Byte)) (w' : Bool) : Bool :=
  (poolHit a bs w a' bs' w').isSome

/-- An update as a plain pool write. -/
def Upd.plain : Upd → Upd
  | .amol c a bs _ => .pool c a bs false
  | u => u

/-- Two updates write one location, 04_cycles.md R100: the register number or pool byte address of it. -/
def Upd.clash (u v : Upd) : Option Nat :=
  match u.plain, v.plain with
  | .x c r _, .x d t _ => if c = d ∧ r = t ∧ r ≠ 0 then some r.toNat else none
  | .p c i _, .p d j _ => if c = d ∧ i = j then some i else none
  | .q c i _, .q d j _ => if c = d ∧ i = j ∧ i ≠ 0 then some i.toNat else none
  | .sr c i _, .sr d j _ => if c = d ∧ i = j then some i.toNat else none
  | .sr c i _, .spstk d _ => if c = d ∧ i = 0x060 then some 0x060 else none
  | .spstk c _, .sr d i _ => if c = d ∧ i = 0x060 then some 0x060 else none
  | .spstk c _, .spstk d _ => if c = d then some 0x060 else none
  | .pool c a bs w, .pool d a' bs' w' => if c = d then poolHit a bs w a' bs' w' else none
  | .acc c b _ _, .acc d b' _ _ => if c = d ∧ b = b' then some b else none
  | .acc c b o bs, .pool d a' bs' w' => if c = d then poolHit (b + o) bs true a' bs' w' else none
  | .pool d a' bs' w', .acc c b o bs => if c = d then poolHit (b + o) bs true a' bs' w' else none
  | .tag c g _, .tag d g' _ => if c = d ∧ g = g' then some (1024 * g) else none
  | .latchA c _ _, .latchA d _ _ => if c = d then some 0 else none
  | .latchB c _ _, .latchB d _ _ => if c = d then some 1 else none
  | _, _ => none

/-- The pool bytes an update writes: core, address, bytes, and whether they are one whole register. -/
def Upd.span : Upd → Option (Nat × Nat × List (Option Byte) × Bool)
  | .pool c a bs w => some (c, a, bs, w)
  | .amol c a bs _ => some (c, a, bs, false)
  | .acc c b o bs => some (c, b + o, bs, true)
  | _ => none

/-- An update of pool bytes with other bytes. -/
def Upd.withBytes (u : Upd) (bs : List (Option Byte)) : Upd :=
  match u with
  | .pool c a _ w => .pool c a bs w
  | .amol c a _ n => .amol c a bs n
  | .acc c b o _ => .acc c b o bs
  | u => u

/-- What is left of an update that collides with another: the bytes they do not share, and nothing of a register
(04_cycles.md R100). -/
def Upd.without (u v : Upd) : Option Upd :=
  match u.span, v.span with
  | some (_, a, bs, w), some (_, a', bs', w') =>
    if w && w' then none
    else some (u.withBytes (bs.zipIdx.map fun e =>
      if decide (a' ≤ a + e.2) && touches bs' w' (a + e.2 - a') then none else e.1))
  | _, _ => none

/-- The core that owns an update's location. -/
def Upd.owner : Upd → Option Nat
  | .x c _ _ => some c
  | .p c _ _ => some c
  | .q c _ _ => some c
  | .sr c _ _ => some c
  | .spstk c _ => some c
  | .arm c _ _ => some c
  | .loopStep c _ _ => some c
  | .rotate c => some c
  | .pool c _ _ _ => some c
  | .amol c _ _ _ => some c
  | .acc c _ _ _ => some c
  | .tag c _ _ => some c
  | .imem c _ _ => some c
  | .flags c _ => some c
  | .stat c _ => some c
  | .tok c _ _ => some c
  | .srs c _ => some c
  | .latchA c _ _ => some c
  | .latchB c _ _ => some c
  | .scale c _ _ => some c
  | .fmt c _ _ => some c
  | .ftsel c _ => some c
  | .stream c _ _ _ => some c
  | .decTab c _ _ => some c
  | .gate c _ => some c
  | .qpop _ _ _ => none
  | .queued _ _ => none
  | .drain _ _ _ => none
  | .slot _ _ _ _ _ _ => none
  | .latch _ _ _ _ => none

/-- Order in which the updates of one cycle are performed: the loop sequencer's and the generator's first, then written
values, then raised bits (03_numbers.md R76, R83; 04_cycles.md R100; 05_registers.md R137). -/
def Upd.rank : Upd → Nat
  | .arm _ _ _ => 0
  | .loopStep _ _ _ => 0
  | .rotate _ => 0
  | .srs _ _ => 0
  | .flags _ _ => 2
  | .stat _ _ => 2
  | _ => 1

/-- Order of two producers, the later one the greater, 04_cycles.md R100. Of a landing whose due tick is the tick in which a
syllable issued the landing counts as the later one: the rule names no order between the two (DESIGN CHOICE, log 24). -/
def Src.key (p : Src) : List Nat :=
  match p.rx with
  | some r => [p.tick, 1, r, 0]
  | none => [p.tick, 0, p.core, p.slot]

/-! ## Faults -/

/-- The resumable codes outside a gang, 16_faults.md Table 16.1. -/
def FCode.resumable (f : FCode) : Bool := f == .softTrap || f == .breakpoint

/-- Word 0 of a trap record, 16_faults.md Table 16.2. -/
def trapWord0 (code : Nat) (res gang : Bool) (kind slot head core : Nat) (delay eng : Bool) : X :=
  BitVec.ofNat 64 (head % 32768 * 2 ^ 41 + core * 2 ^ 32 + gang.toNat * 2 ^ 17 + eng.toNat * 2 ^ 16 + delay.toNat * 2 ^ 15 +
    slot * 2 ^ 12 + kind * 2 ^ 10 + res.toNat * 2 ^ 9 + 256 + code)

/-- Word 4 of a trap record: where the sequencer resumes, 16_faults.md Table 16.2. Once the second delay bundle has issued, the
bundle that issues next is the transfer's target: it stands in [14:0], and in [30:16] as well, since a transfer stays pending in
word 4 for a fault in a delay bundle (04_cycles.md R106; DEDUCED, log 27). -/
def Core.resumeWord (k : Core) : X :=
  BitVec.ofNat 64 (k.stall * 2 ^ 34 + k.delayLeft * 2 ^ 32 + ((k.target.getD 0) % 32768).toNat * 2 ^ 16 + k.nextPc % 32768)

/-- Sends a wire message to pod device `d`; a message to this device comes back by the inbox, in the order of sending
(15_light.md R352). -/
def State.wire (s : State) (d : Nat) (w : Wire) : State :=
  let (n, s) := s.draw
  if d = s.devIndex then
    let t := max s.wireLast (s.tick + 1 + Config.freeNat n % 1536)
    { s with inbox := s.inbox ++ [{ due := t, work := { instr := .wireDelivery w } }], wireLast := t }
  else { s with wireOut := (s.tick, d, w) :: s.wireOut }

/-- The devices of a bitmap other than this one. -/
def State.gangPeers (s : State) (r : Run) : List Nat :=
  (List.range 32).filter fun d => r.last.bitmap.getLsbD d && d != s.devIndex

/-- The abort tick A of a fault whose cycle began at tick `f`, or an earlier one already named (01_machine.md R32); a GANG_ABORT
that a notice raises names the notice's (16_faults.md R374). -/
def Run.abortBy (ru : Run) (code f : Nat) : Nat :=
  if code = FCode.gangAbort.num then ru.abortAt.getD (f + 2048) else min (f + 2048) (ru.abortAt.getD (f + 2048))

/-- Word 7 of a record of a fault whose cycle began at tick `f`, 16_faults.md Table 16.2. -/
def Run.word7 (ru : Run) (code : FCode) (f : Nat) : X := if ru.last.gang then BitVec.ofNat 64 (ru.abortBy code.num f) else 0

/-- Notes a fault as the run's cause when it comes first in the order of 01_machine.md R29; a gang's fault sends the
abort notices when it names an earlier tick A than any before (R32). A fault of a script that ran on past the run's end
aborts the run at once (10_channels.md R241). A GANG_ABORT that reaches a run whose scripts run on past its end does not freeze it:
it aborts at tick A, and is complete if its scripts stop before (neither R32, R241 nor 16_faults.md R374 speaks of such a run;
DESIGN CHOICE, log entry 23). -/
def State.noteCause (s : State) (r : Nat) (c : Cause) : State :=
  let ru := s.run r
  let a := ru.abortBy c.code (c.key.headD 0)
  match ru.st with
  | .live | .runon _ =>
    let s :=
      if ru.last.gang && ru.abortAt.all (fun b => decide (a < b)) then
        (s.gangPeers ru).foldl (fun s d => s.wire d (.abort ru.part a)) (s.modRun r fun q => { q with abortAt := some a })
      else s
    let first := match ru.cause with
      | some o => keyLt c.key o.key
      | none => true
    let s := if first then s.modRun r fun q => { q with cause := some c } else s
    match ru.st with
    | .runon _ =>
      if c.code = FCode.gangAbort.num then s else { s with todo := { ctx := { run := r }, instr := .runFreeze } :: s.todo }
    | _ => s
  | _ => s

/-- A core's record keeps its first fault, 16_faults.md R361. -/
def Trap.first (old new : Trap) : Trap := if old.w0.getLsbD 8 then old else new

/-- A fault with this place in the order of 01_machine.md R29, and within a cycle of 02_bundles.md R60, comes before every
fault that the core has had since it last went on. -/
def Core.firstBy (k : Core) (key : List Nat) : Bool := k.faulted.isNone || keyLt key k.faultKey

/-- The core's record after a fault that comes first: the first one since arming stays, but for a fault of the same stop
that comes before it (01_machine.md R29, 16_faults.md R361). -/
def Core.record (k : Core) (tb : Nat) (new : Trap) : Trap :=
  if k.faulted.isSome && k.trap.w1 == BitVec.ofInt 64 ((k.faultKey.headD 0 : Int) - tb) then new else k.trap.first new

/-- The core stops at a fault in its cycle in hand, with its place in the order of faults and its record. -/
def Core.stopAt (k : Core) (key : List Nat) (tick tb : Nat) (t : Trap) : Core :=
  { k with trap := k.record tb t, faulted := some (k.cyc, tick), faultKey := key,
           ue := none, held := if k.faulted.isSome then k.held else k.seq, seq := .stopped }

/-- The place of a fault of producer `p` on core `c` in its cycle in hand, in the order of 01_machine.md R29 and 02_bundles.md
Table 2.11. -/
def Core.place (k : Core) (c : Nat) (p : Src) : List Nat := [k.cycTick, 0, c, if p.atIssue then 0 else 1, p.slot]

/-- Raises a fault on core `c` in its present cycle, against producer `p` (01_machine.md R28, 16_faults.md R361). Later
faults of the core change nothing; within one cycle a fault of the bundle's issue comes before those of execution, and of
these the earliest slot is the first (02_bundles.md R60, Table 2.11; that it also comes before a fault that an earlier bundle's
syllable raises in that cycle is a DESIGN CHOICE, log 25). A wait that ends in DEADLINE is over. A fault of a recovery task ends the task (16_faults.md R366). -/
def State.raiseOn (s : State) (c : Nat) (code : FCode) (p : Src) (w2 w3 : X) : State :=
  let k := s.core c
  let key := k.place c p
  match k.run with
  | none => s
  | some r =>
    if !k.firstBy key then s
    else if k.inRecov then
      { (s.modCore c fun k => { k with seq := .stopped, faulted := some (k.cyc, k.cycTick), faultKey := key }).modRun r
          (fun q => { q with recFault := code.num }) with
        todo := s.todo ++ [{ ctx := { run := r }, instr := .runFreeze }] }
    else
      let ru := s.run r
      let t : Trap :=
        { w0 := trapWord0 code.num (code.resumable && !ru.last.gang) ru.last.gang 0 p.slot p.head c p.delay p.eng
          w1 := BitVec.ofInt 64 ((k.cycTick : Int) - ru.tb)
          w2 := w2
          w3 := w3
          w4 := k.resumeWord
          w6 := BitVec.ofNat 64 (k.lcyc % 2 ^ 32 * 2 ^ 32 + k.taskIx)
          w7 := ru.word7 code k.cycTick }
      (s.modCore c fun k => { k.stopAt key k.cycTick ru.tb t with waits := if code == .deadline then [] else k.waits }).noteCause r
        { key := key, code := code.num, kind := 0, unit := c, trap := t, byCore := some (c, k.cyc + 16),
          tau := k.cycTick + 1 - ru.tb }

/-- Raises a fault against the syllable in hand. -/
def State.raise (s : State) (code : FCode) (w2 w3 : X) : State := s.raiseOn s.ctx.core code s.src w2 w3

/-- Raises a fault against an operation of producer `p`, on its core. -/
def State.raiseOp (s : State) (code : FCode) (p : Src) (w2 : X) : State :=
  s.raiseOn p.core code { p with eng := true } w2 0

/-- Raises a fault of source kind 1 to 3 on run `r` at tick `t`: a channel command, a landing or the device
(10_channels.md R245, 15_light.md R343, 16_faults.md Tables 16.2, 16.3). -/
def State.raiseRun (s : State) (r : Nat) (code : FCode) (kind unit idx : Nat) (w2 w3 : X) (t : Nat) : State :=
  let ru := s.run r
  let tr : Trap :=
    { w0 := trapWord0 code.num (code.resumable && !ru.last.gang) ru.last.gang kind 7 0 (ru.cores.headD 0) false false
      w1 := BitVec.ofInt 64 ((t : Int) - ru.tb)
      w2 := w2
      w3 := w3
      w7 := ru.word7 code t }
  s.noteCause r { key := [t, kind, unit, idx], code := code.num, kind := kind, unit := unit, trap := tr, byTick := t + 16,
                  tau := t + 1 - ru.tb }

/-- Raises a fault of source kind 2 or 3 on core `c`, of a landing on core `place` or of the device, at tick `t`. The core's
record keeps its first fault, the core issues nothing after it, and it stands in the order of 01_machine.md R29 after every core
and channel fault, landings by ascending destination core, then by receive index (15_light.md R343, 16_faults.md R361). -/
def State.raisePlaced (s : State) (c place : Nat) (code : FCode) (kind idx : Nat) (w2 : X) (t : Nat) : State :=
  let k := s.core c
  let key := [t, kind, place, idx]
  match k.run with
  | none => s
  | some r =>
    if !k.firstBy key then s
    else
      let ru := s.run r
      let tr : Trap :=
        { w0 := trapWord0 code.num false ru.last.gang kind 7 0 (ru.cores.headD 0) false false
          w1 := BitVec.ofInt 64 ((t : Int) - ru.tb)
          w2 := w2
          w4 := k.resumeWord
          w6 := BitVec.ofNat 64 (k.lcyc % 2 ^ 32 * 2 ^ 32 + k.taskIx)
          w7 := ru.word7 code t }
      (s.modCore c fun k => k.stopAt key t ru.tb tr).noteCause r
        { key := key, code := code.num, kind := kind, unit := c, trap := tr, byTick := t + 16,
          tau := t + 1 - ru.tb }

/-- Raises a fault of source kind 2 or 3 on core `c`: a landing's on its destination core, or the device's. -/
def State.raiseUnit (s : State) (c : Nat) (code : FCode) (kind idx : Nat) (w2 : X) (t : Nat) : State :=
  s.raisePlaced c c code kind idx w2 t

/-! ## Posting -/

/-- Sends an MSI-X message to a function, 0 for PF0, 19_host.md R400. -/
def State.msiTo (s : State) (vf vec : Nat) : State := { s with msi := (vf, vec) :: s.msi }

/-- Posts a record of 32 bytes to a function's event ring, then its message, 19_host.md R400. -/
def State.event (s : State) (vf vec : Nat) (rec_ : List Byte) : State :=
  let v := s.vf vf
  { (s.modVf vf fun v => { v with evCount := v.evCount + 1 }) with
    host := s.host.write (v.evBase.toNat + 32 * (v.evCount % 256)) (someBytes (rec_.take 32)) }.msiTo vf vec

/-- The virtual functions, all enabled once boot has ended (19_host.md R399, R407). -/
def State.liveVfs (s : State) : List Nat := if s.boot == .up then (List.range Config.vfs).map (· + 1) else []

/-- The capability map changes: its generation rises and every virtual function gets its event (16_faults.md R379). -/
def State.capChange (s : State) (f : Caps → Caps) : State :=
  let s := { s with caps := { f s.caps with generation := s.caps.generation + 1 } }
  s.liveVfs.foldl (fun s v => s.event v 2 (leBytes 4 s.caps.generation ++ List.replicate 28 0)) s

/-- Overdrive-hours of a comb pair: whole hours of 1.1 GHz ticks since the sharing began, while one comb of the pair serves both
ports; those published else (16_faults.md Table 16.8). -/
def State.overdriveHours (s : State) (pair : Nat) : Nat :=
  let shares := fun p => Table.get 0 s.caps.comb p == 1
  match s.caps.overdrive.find? fun e => e.1 == pair with
  | some e => if shares (2 * pair) || shares (2 * pair + 1) then (s.tick - e.2) / 3960000000000 else Table.get 0 s.caps.hours pair
  | none => 0

/-- The overdrive-hours of the capability map change when another hour is complete, which is a change of the map like any other
(16_faults.md R379). -/
def State.publishHours (s : State) : State :=
  if (List.range 2).all fun i => s.overdriveHours i == Table.get 0 s.caps.hours i then s
  else s.capChange fun c => { c with hours := (List.range 2).foldl (fun t i => Table.put t i (s.overdriveHours i)) c.hours }

/-- The state byte of a lane in the capability map. -/
def Lane.capByte (l : Lane) : Nat := l.line + 4 * l.carries.isSome.toNat

/-- The capability map as every virtual function reads it, 16_faults.md Table 16.8. The one byte of the dark interval holds the
longest of the circuit switch planes (DESIGN CHOICE, log entry 38). -/
def State.capMap (s : State) : List Byte :=
  let c := s.caps
  let each := fun (n w : Nat) (f : Nat → Nat) => (List.range n).flatMap fun i => leBytes w (f i)
  let times := [Config.trcd, Config.trp, Config.tras, Config.trc, Config.trrds, Config.trrdl, Config.tfaw, Config.tccds, Config.tccdl,
    Config.twr, Config.twtrs, Config.twtrl, Config.trtw, Config.trtp, Config.trfc, Config.trfcpb, Config.trrefd, Config.trefi, Config.rld]
  let dark := (List.range 4).foldl (fun m p => if Config.circuitPlane p then max m (Config.darkSlots p) else m) 0
  leBytes 2 1 ++ leBytes 2 0 ++ leBytes 4 c.generation ++ leBytes 8 c.coreGroups.toNat ++
    leBytes 64 (c.retired.foldl (fun m i => if m.testBit i then m else m + 2 ^ i) 0) ++ leBytes 8 c.parityGroups.toNat ++
    each 12 1 (fun i => Table.get 0 c.stackSt i) ++ each 4 1 (fun i => Table.get 0 c.comb i) ++ each 64 1 (fun i => (s.lane i).capByte) ++
    each 2 4 (fun i => Table.get 0 c.hours i) ++ leBytes 16 c.paths.toNat ++ times.flatMap (leBytes 2) ++ leBytes 2 s.flight ++ leBytes 1 dark ++
    leBytes 1 s.floor ++ leBytes 6 0 ++ each 13 2 (fun i => Config.corePower (4 + i)) ++ leBytes 6 0 ++ leBytes 8 c.rows.length ++
    c.rows.flatMap fun r => leBytes 8 (r.1 + r.2.1 * 2 ^ 16 + r.2.2 * 2 ^ 32)

/-- Completion entries the ring still has room for, 19_host.md R402. -/
def Vf.room (v : Vf) : Bool := decide ((v.cqTail - v.cqHead).toNat < 2 ^ v.n)

/-- Writes a completion entry and posts its event on vector 0, 19_host.md R400, R402; the event's record is the entry (log entry
39). -/
def State.writeCq (s : State) (vf : Nat) (e : List Byte) : State :=
  let v := s.vf vf
  { (s.modVf vf fun v => { v with cqTail := v.cqTail + 1 }) with
    host := s.host.write (v.cqBase.toNat + 32 * (v.cqTail.toNat % 2 ^ v.n)) (someBytes e) }.event vf 0 e

/-- Posts a completion entry; it waits when the ring is full, 19_host.md R402. -/
def State.post (s : State) (vf : Nat) (e : List Byte) : State :=
  if (s.vf vf).room && (s.vf vf).waiting.isEmpty then s.writeCq vf e
  else s.modVf vf fun v => { v with waiting := v.waiting ++ [e] }

/-- A completion entry, 19_host.md Table 19.3. -/
def cqEntry (tag : X) (kind status code src unit : Nat) (abort : BitVec 32) (tick : Nat) : List Byte :=
  leBytes 8 tag.toNat ++ leBytes 1 kind ++ leBytes 1 status ++ leBytes 1 code ++ leBytes 1 src ++ leBytes 2 unit ++ leBytes 2 0 ++
    leBytes 4 abort.toNat ++ leBytes 4 0 ++ leBytes 8 tick

/-- Reports an error event of a virtual function on vector 4, 19_host.md Table 19.2. -/
def State.errorEvent (s : State) (vf : Nat) : State := s.event vf 4 (leBytes 32 0)

/-! ## HBM -/

/-- Burst number of a place in a channel. -/
def burstKey (cn bank row col : Nat) : Nat := ((cn * 49152 + row) * 16 + bank) * 32 + col
/-- The 32 bytes of a burst. -/
def State.burst (s : State) (k : Nat) : List Byte := s.hbm.read (32 * k) 32
/-- Writes a burst. -/
def State.putBurst (s : State) (k : Nat) (d : List Byte) : State := { s with hbm := s.hbm.write (32 * k) (someBytes d) }
/-- A burst is poisoned, 10_channels.md R252. -/
def State.isPoisoned (s : State) (k : Nat) : Bool := s.poisoned.contains k
/-- Marks or unmarks a burst. -/
def State.setPoison (s : State) (k : Nat) (b : Bool) : State :=
  { s with poisoned := (if b then [k] else []) ++ s.poisoned.filter (· != k) }
/-- Bank index and column of burst `i` of tile `t`, 10_channels.md R231. -/
def tileBurst (cn t i : Nat) : Nat := burstKey cn (4 * (i % 4) + t % 4) (t / 4) (i / 4)
/-- The HBM address of a burst: the physical index of its tile times 4,096, and the burst's place in it (10_channels.md R231). -/
def burstAddr (k : Nat) : Nat :=
  let cn := k / (49152 * 512)
  let t := 4 * (k / 512 % 49152) + k / 32 % 4
  (cn * 2 ^ 18 + t) * 4096 + 32 * (4 * (k % 32) + k / 128 % 4)
/-- Burst of the seal record of tile `t`, 10_channels.md R231. -/
def recordBurst (cn t : Nat) : Nat := burstKey cn (t % 512 / 32) (48768 + t / 512) (t % 32)
/-- Parity stack of a row and bank, 10_channels.md R248. -/
def parityStack (row bank : Nat) : Nat := (row + bank % 4) % 12
/-- The same burst in another stack. -/
def stripeBurst (k st : Nat) : Nat := k % (49152 * 512) + (64 * st + k / (49152 * 512) % 64) * (49152 * 512)
/-- XOR of the other eleven bursts of a stripe, 10_channels.md R248. -/
def State.stripeXor (s : State) (k : Nat) : List Byte :=
  ((List.range 12).filter fun st => st != k / (49152 * 512) / 64).foldl (fun a st => xorBytes a (s.burst (stripeBurst k st)))
    (List.replicate 32 0)
/-- Writes a burst and the parity of its stripe, as one access at its home does (10_channels.md R254). -/
def State.putStriped (s : State) (k : Nat) (d : List Byte) : State :=
  let row := k / 512 % 49152
  let p := stripeBurst k (parityStack row (k / 32 % 16))
  let delta := xorBytes (s.burst k) d
  (s.putBurst k d).putBurst p (xorBytes (s.burst p) delta)

/-- The stack that firmware has retired as lasting-faulty, 10_channels.md R251. -/
def State.lostStack (s : State) : Option Nat := (s.caps.stackSt.find? fun e => e.2 != 0).map (·.1)
/-- A parity burst is recomputed from the eleven bursts of its stripe, 10_channels.md R248. -/
def State.recompute (s : State) (k : Nat) : State := s.putBurst k (s.stripeXor k)

/-! ## The end of a run -/

/-- The stripes of deltas still open are recomputed (10_channels.md R241). Where a data burst of the stripe lies on a retired stack,
its value stands in the parity alone, and the delta is applied there instead (R251). -/
def State.settleAll (s : State) (ds : List Delta) : State :=
  ds.foldl (fun s d =>
    if s.lostStack.all fun f => f == d.key / (49152 * 512) / 64 then s.recompute d.key
    else s.putBurst d.key (xorBytes (s.burst d.key) d.data)) s

/-- Settles the parity debt of a group, 10_channels.md R241. -/
def State.settle (s : State) (g : Nat) : State :=
  { s.settleAll (Table.get [] s.deltas g) with deltas := Table.put s.deltas g [] }

/-- Stops a channel's script with its banks precharged and empties its buffers, 16_faults.md R372. -/
def Chan.stopped (c : Chan) : Chan :=
  { c with run := none, script := .none_, named := [], next := none, fetch := none, slots := [], latches := [], keep := [], guest := none,
           emptied := [], bursts := [], par := [], fbuf := [], banks := c.banks.map fun b => (b.1, { b.2 with row := none }) }

/-- Channels of a run. -/
def Run.chans (r : Run) : List Nat :=
  (List.range 768).filter fun cn => r.last.channels.getLsbD (cn % 64)

/-- Frees the cores of a run: they leave it, their pending operations and writes go, 16_faults.md R372. -/
def State.freeCores (s : State) (cs : List Nat) : State :=
  let s := { s with pend := s.pend.filter fun w => !(cs.contains w.src.core && w.src.rx.isNone && w.clk != Clk.tick)
                    wrote := s.wrote.filter fun e => !cs.contains e.1.core }
  cs.foldl (fun s c => s.modCore c fun k =>
    { k with run := none, seq := .off, running := false, waits := [], gate := none, ops := [], sched := [], copyQ := [],
             expects := [], inTask := false, inRecov := false, elastic := false, n := 16, mask := 0xF, rails := 0xF,
             wake := [] }) s

/-- Ends the recovery task: the designated core's saved state returns, 16_faults.md R365. -/
def State.endRecovery (s : State) (r : Nat) : State :=
  match (s.run r).recov with
  | none => s
  | some q =>
    let s := s.setCore q.core q.saved
    let s := { s with pool := s.pool.write (poolKey q.core 0x17F000) (someBytes q.bytes)
                      pend := s.pend.filter fun w => w.clk != Clk.recov q.core }
    s.modRun r fun u => { u with recov := none }

/-- Releases a run's channels, their open parity debt settled (10_channels.md R241). -/
def State.releaseChans (s : State) (r : Nat) : State :=
  let ru := s.run r
  let s := ru.chans.foldl (fun s cn => if (s.chan cn).run = some r then s.modChan cn Chan.stopped else s) s
  (List.range 64).foldl (fun s g => if ru.last.channels.getLsbD g then s.settle g else s) s

/-- Releases what an aborted run holds outside its cores: channels, expectations, send queues and casks, 16_faults.md R372. -/
def State.releaseRun (s : State) (r : Nat) : State :=
  let ru := s.run r
  let s := s.releaseChans r
  let s := { s with lanes := s.lanes.map fun (l : Nat × Lane) =>
              (l.1, { l.2 with queue := l.2.queue.filter fun f => f.part != ru.part
                               claims := l.2.claims.filter fun f => f.2.2.part != ru.part
                               busy := l.2.busy.filter fun b => !ru.cores.contains b.2.core }) }
  s.modPart ru.part fun p => { p with rings := [], credits := [], owed := [], drained := false }

/-- Aborts run `r` by the path of 16_faults.md R372 and posts the run entry of kind 2. Of a pre-empted run whose cores and channels
have been given away the saved parity debt is settled. -/
def State.abortRun (s : State) (r : Nat) (code src unit : Nat) (abort : BitVec 32) : State :=
  let s := s.endRecovery r
  let s := match (s.run r).context with
    | some x => s.settleAll (x.deltas.flatMap fun (e : Nat × List Delta) => e.2)
    | none => s.releaseRun r
  let ru := s.run r
  let s := s.freeCores (ru.cores.filter fun c => (s.core c).run == some r)
  (s.modRun r fun u => { u with st := .ended, context := none, contextChans := [] }).post ru.vf (cqEntry ru.tag 2 0 code src unit abort s.tick)

/-- The unit of a cause in a completion entry: the channel, or the core id of the record (19_host.md Table 19.3). -/
def Cause.unitId (c : Cause) : Nat := if c.kind = 1 then c.unit else (bits c.trap.w0 32 9).toNat

/-- Aborts run `r` with its cause record, 01_machine.md R30. -/
def State.abortCause (s : State) (r : Nat) (abort : BitVec 32) : State :=
  let c := (s.run r).cause.getD {}
  (s.modRun r fun u => { u with record := c.trap }).abortRun r c.code c.kind c.unitId abort

/-- Continues with the next state. -/
def ok (s : State) : Out := .next s

end Sys2Proof.Machine
end

