-- ==== Sys2Proof/Machine/Flags.lean ====
section
/-! DEFINITION. Number formats and flags (03_numbers.md): exact values, the one rounding of R74, the binary8 family,
conversions, stochastic rounding, the function tables, and the FPSTAT flags each raises. -/

namespace Sys2Proof.Machine

/-- FPSTAT flags, 03_numbers.md Table 3.2. -/
abbrev Fl := BitVec 6
/-- Invalid operation. -/
def nvF : Fl := 1
/-- Division by zero. -/
def dzF : Fl := 2
/-- Overflow. -/
def ofF : Fl := 4
/-- Underflow. -/
def ufF : Fl := 8
/-- Inexact. -/
def nxF : Fl := 16
/-- Saturated. -/
def satF : Fl := 32

/-- An exact value: a NaN (signalling or quiet), an infinity, or ±m x 2^e. -/
inductive Num where
  | nan (sig : Bool)
  | inf (neg : Bool)
  | fin (neg : Bool) (m : Nat) (e : Int)
  deriving DecidableEq, Repr

/-- Rounding directions: FPMODE.RM of 03_numbers.md Table 3.1, and stochastic with its 32 random bits (R83). -/
inductive Rm where
  | rne | rtz | rup | rdn
  | sto (rnd : Nat)
  deriving DecidableEq, Repr

/-- The direction of FPMODE.RM, 03_numbers.md Table 3.1. -/
def Rm.of (v : BitVec 2) : Rm :=
  if v = 0 then .rne else if v = 1 then .rtz else if v = 2 then .rup else .rdn

/-- An IEEE format by exponent and trailing bits, 03_numbers.md R72. -/
structure Ieee where
  eb : Nat
  fb : Nat
  deriving DecidableEq, Repr

/-- FP32. -/
def fp32 : Ieee := { eb := 8, fb := 23 }
/-- BF16. -/
def bf16 : Ieee := { eb := 8, fb := 7 }
/-- FP16. -/
def fp16 : Ieee := { eb := 5, fb := 10 }

/-- Bias of the exponent. -/
def Ieee.bias (f : Ieee) : Nat := 2 ^ (f.eb - 1) - 1
/-- Width in bits. -/
def Ieee.width (f : Ieee) : Nat := 1 + f.eb + f.fb
/-- The canonical quiet NaN, 03_numbers.md R75. -/
def Ieee.qnan (f : Ieee) : Nat := (2 ^ f.eb - 1) * 2 ^ f.fb + 2 ^ (f.fb - 1)
/-- An infinity. -/
def Ieee.infOf (f : Ieee) (neg : Bool) : Nat := neg.toNat * 2 ^ (f.eb + f.fb) + (2 ^ f.eb - 1) * 2 ^ f.fb
/-- The largest finite value. -/
def Ieee.maxOf (f : Ieee) (neg : Bool) : Nat := f.infOf neg - 1
/-- The exponent of the subnormal step. -/
def Ieee.emin (f : Ieee) : Int := 1 - (f.bias : Int) - f.fb

/-- The exact value of a pattern, 03_numbers.md R72. -/
def Ieee.dec (f : Ieee) (b : Nat) : Num :=
  let neg := b / 2 ^ (f.eb + f.fb) % 2 == 1
  let ex := b / 2 ^ f.fb % 2 ^ f.eb
  let fr := b % 2 ^ f.fb
  if ex = 2 ^ f.eb - 1 then (if fr = 0 then .inf neg else .nan (fr < 2 ^ (f.fb - 1)))
  else if ex = 0 then .fin neg fr f.emin
  else .fin neg (2 ^ f.fb + fr) (f.emin + (ex - 1 : Nat))

/-- A magnitude m x 2^e on the grid of p significant bits and least step 2^emin: the multiple, the step's exponent and
whether it is inexact (03_numbers.md R74, R82, R83). A tie of RNE goes to the even multiple of the step below it: with one
significant bit both neighbours have an odd significand, and the tie goes up to the next power of two (R82 is silent there;
DESIGN CHOICE, log 43). -/
def roundMag (rm : Rm) (neg : Bool) (m : Nat) (e : Int) (p : Nat) (emin : Int) : Nat × Int × Bool :=
  let qe := max (e + Nat.log2 m + 1 - p) emin
  if qe ≤ e then (m * 2 ^ (e - qe).toNat, qe, false)
  else
    let sh := (qe - e).toNat
    let k := m / 2 ^ sh
    let r := m % 2 ^ sh
    let up := match rm with
      | .rne => decide (2 ^ sh < 2 * r) || (decide (2 * r = 2 ^ sh) && k % 2 == 1)
      | .rtz => false
      | .rup => !neg && r != 0
      | .rdn => neg && r != 0
      | .sto n => decide (2 ^ 32 ≤ r * 2 ^ 32 / 2 ^ sh + n)
    (if up then k + 1 else k, qe, r != 0)

/-- An overflow goes to the largest finite value in this direction (03_numbers.md R74; IEEE 754). -/
def Rm.clips (rm : Rm) (neg : Bool) : Bool :=
  match rm with
  | .rne => false
  | .sto _ => false
  | .rtz => true
  | .rup => neg
  | .rdn => !neg

/-- Rounds an exact value to an IEEE format, saturating finite values when `sat` (03_numbers.md R74, R75). -/
def Ieee.enc (f : Ieee) (rm : Rm) (sat : Bool) (x : Num) : Nat × Fl :=
  match x with
  | .nan _ => (f.qnan, 0)
  | .inf neg => (f.infOf neg, 0)
  | .fin neg m e =>
    if m = 0 then (neg.toNat * 2 ^ (f.eb + f.fb), 0)
    else
      let (k, qe, inx) := roundMag rm neg m e (f.fb + 1) f.emin
      let code := if k < 2 ^ f.fb then k
        else (qe - f.emin + (if k = 2 ^ (f.fb + 1) then 2 else 1)).toNat * 2 ^ f.fb + (if k = 2 ^ (f.fb + 1) then 0 else k - 2 ^ f.fb)
      if (2 ^ f.eb - 1) * 2 ^ f.fb ≤ code then
        if sat then (f.maxOf neg, ofF ||| nxF ||| satF)
        else if rm.clips neg then (f.maxOf neg, ofF ||| nxF)
        else (f.infOf neg, ofF ||| nxF)
      else
        (neg.toNat * 2 ^ (f.eb + f.fb) + code,
         (if inx then nxF else 0) ||| (if inx && decide (code < 2 ^ f.fb) then ufF else 0))

/-! ## binary8 -/

/-- Precision P of a format code, 03_numbers.md R77. -/
def b8p (c : BitVec 5) : Nat := (bits c 0 3).toNat
/-- Signed. -/
def b8s (c : BitVec 5) : Bool := c.getLsbD 3
/-- With infinities. -/
def b8i (c : BitVec 5) : Bool := c.getLsbD 4
/-- Bias, 03_numbers.md R78. -/
def b8bias (c : BitVec 5) : Nat := if b8s c then 2 ^ (7 - b8p c) else 2 ^ (8 - b8p c)
/-- Exponent of the subnormal step. -/
def b8emin (c : BitVec 5) : Int := 1 - (b8bias c : Int) - (b8p c - 1 : Nat)
/-- The NaN code, 03_numbers.md R75. -/
def b8nan (c : BitVec 5) : Nat := if b8s c then 0x80 else 0xFF
/-- The code of the largest finite magnitude, 03_numbers.md R78. -/
def b8max (c : BitVec 5) : Nat := (if b8s c then 0x7F else 0xFE) - (b8i c).toNat
/-- The code of a sign and magnitude code. -/
def b8code (neg : Bool) (k : Nat) : Nat := if k = 0 then 0 else neg.toNat * 128 + k

/-- The exact value of a code byte, 03_numbers.md R78. -/
def b8dec (c : BitVec 5) (b : Nat) : Num :=
  let p := b8p c
  if b = b8nan c then .nan false
  else
    let neg := b8s c && decide (128 ≤ b)
    let m := if b8s c then b % 128 else b
    if b8max c < m then .inf neg
    else
      let ex := m / 2 ^ (p - 1)
      let t := m % 2 ^ (p - 1)
      if ex = 0 then .fin neg t (b8emin c) else .fin neg (2 ^ (p - 1) + t) (b8emin c + (ex - 1 : Nat))

/-- Conversion of an exact value into binary8, 03_numbers.md R82; directed modes as 06_vector.md Table 6.6. -/
def b8enc (c : BitVec 5) (rm : Rm) (sat : Bool) (x : Num) : Nat × Fl :=
  match x with
  | .nan sig => (b8nan c, if sig then nvF else 0)
  | .inf neg =>
    if neg && !b8s c then (if sat then (0, satF) else (b8nan c, nvF))
    else if sat then (b8code neg (b8max c), satF)
    else if b8i c then (b8code neg (b8max c + 1), 0)
    else (b8nan c, nvF)
  | .fin neg m e =>
    if m = 0 then (0, 0)
    else if neg && !b8s c then (if sat then (0, satF) else (b8nan c, nvF))
    else
      let p := b8p c
      let (k, qe, inx) := roundMag rm neg m e p (b8emin c)
      let code := if k < 2 ^ (p - 1) then k
        else (qe - b8emin c + (if k = 2 ^ p then 2 else 1)).toNat * 2 ^ (p - 1) + (if k = 2 ^ p then 0 else k - 2 ^ (p - 1))
      if b8max c < code then
        if sat then (b8code neg (b8max c), ofF ||| nxF ||| satF)
        else if rm.clips neg then (b8code neg (b8max c), ofF ||| nxF)
        else if b8i c then (b8code neg (b8max c + 1), ofF ||| nxF)
        else (b8nan c, ofF ||| nxF)
      else
        (b8code neg code, (if inx then nxF else 0) ||| (if inx && decide (code < 2 ^ (p - 1)) then ufF else 0))

/-! ## Arithmetic on exact values -/

/-- A NaN input that signals, 03_numbers.md Table 3.2. -/
def Num.sig : Num → Bool
  | .nan b => b
  | _ => false

/-- Is a NaN. -/
def Num.isNan : Num → Bool
  | .nan _ => true
  | _ => false

/-- Negates. -/
def Num.neg : Num → Num
  | .nan b => .nan b
  | .inf n => .inf (!n)
  | .fin n m e => .fin (!n) m e

/-- The signed integer multiple of 2^g. -/
def scaled (n : Bool) (m : Nat) (e g : Int) : Int :=
  let v : Int := (m * 2 ^ (e - g).toNat : Nat)
  if n then -v else v

/-- The exact sum; a zero sum of unlike signs is −0 only towards −inf (IEEE 754). NV on opposite infinities. -/
def Num.add (rm : Rm) (a b : Num) : Num × Fl :=
  match a, b with
  | .nan _, _ => (.nan false, 0)
  | _, .nan _ => (.nan false, 0)
  | .inf n, .inf k => if n == k then (.inf n, 0) else (.nan false, nvF)
  | .inf n, .fin _ _ _ => (.inf n, 0)
  | .fin _ _ _, .inf n => (.inf n, 0)
  | .fin n m e, .fin k l f =>
    let g := min e f
    let v := scaled n m e g + scaled k l f g
    if v = 0 then (.fin (if n == k then n else rm == .rdn) 0 0, 0) else (.fin (decide (v < 0)) v.natAbs g, 0)

/-- The exact product. NV on infinity times zero. -/
def Num.mul (a b : Num) : Num × Fl :=
  match a, b with
  | .nan _, _ => (.nan false, 0)
  | _, .nan _ => (.nan false, 0)
  | .inf n, .inf k => (.inf (n != k), 0)
  | .inf n, .fin k m _ => if m = 0 then (.nan false, nvF) else (.inf (n != k), 0)
  | .fin k m _, .inf n => if m = 0 then (.nan false, nvF) else (.inf (n != k), 0)
  | .fin n m e, .fin k l f => (.fin (n != k) (m * l) (e + f), 0)

/-- NV for signalling inputs. -/
def sigFl (xs : List Num) : Fl := if xs.any Num.sig then nvF else 0

/-- Order of two exact values: `none` when unordered; −0 equals +0. -/
def Num.cmp (a b : Num) : Option Ordering :=
  match a, b with
  | .nan _, _ => none
  | _, .nan _ => none
  | .inf n, .inf k => some (if n == k then .eq else if n then .lt else .gt)
  | .inf n, .fin _ _ _ => some (if n then .lt else .gt)
  | .fin _ _ _, .inf n => some (if n then .gt else .lt)
  | .fin n m e, .fin k l f =>
    let g := min e f
    some (compare (scaled n m e g) (scaled k l f g))

/-- Sign bit of a value. -/
def Num.isNeg : Num → Bool
  | .nan _ => false
  | .inf n => n
  | .fin n _ _ => n

/-! ## Integers -/

/-- The value of `w` bits as INT or NAT. -/
def intOf (signed : Bool) (w v : Nat) : Int := if signed && decide (2 ^ (w - 1) ≤ v) then (v : Int) - 2 ^ w else v
/-- The low `w` bits of an integer. -/
def wrapInt (w : Nat) (i : Int) : Nat := (i % (2 ^ w : Nat)).toNat
/-- Least value of an integer type. -/
def intMin (signed : Bool) (w : Nat) : Int := if signed then -(2 ^ (w - 1) : Nat) else 0
/-- Greatest value of an integer type. -/
def intMax (signed : Bool) (w : Nat) : Int := if signed then (2 ^ (w - 1) : Nat) - 1 else (2 ^ w : Nat) - 1
/-- Clips to a type's range, 03_numbers.md R85. -/
def clipInt (signed : Bool) (w : Nat) (i : Int) : Int × Fl :=
  if i < intMin signed w then (intMin signed w, satF) else if intMax signed w < i then (intMax signed w, satF) else (i, 0)
/-- The exact value of an integer. -/
def Num.ofInt (i : Int) : Num := .fin (decide (i < 0)) i.natAbs 0

/-- Conversion to an integer type, 03_numbers.md R86. -/
def toInt (signed : Bool) (w : Nat) (rm : Rm) (x : Num) : Nat × Fl :=
  match x with
  | .nan _ => (0, nvF)
  | .inf n => (wrapInt w (if n then intMin signed w else intMax signed w), nvF ||| satF)
  | .fin n m e =>
    let (k, qe, inx) := roundMag rm n m e (max (e + Nat.log2 m + 1) 1).toNat 0
    let i : Int := scaled n k qe 0
    let (c, f) := clipInt signed w i
    if f = 0 then (wrapInt w c, if inx then nxF else 0) else (wrapInt w c, nvF ||| satF)

/-! ## Lane types -/

/-- The IEEE format of an FP lane type. -/
def laneIeee : VTy → Ieee
  | .bf16 => bf16
  | .f16 => fp16
  | _ => fp32

/-- Format code of FT-A or FT-O in a format entry, 02_bundles.md Table 2.6, 03_numbers.md Table 3.8. -/
def laneB8 (t : VTy) (entry : BitVec 32) : BitVec 5 := if t == .fta then bits entry 0 5 else bits entry 10 5

/-- The exact value of a lane. -/
def laneNum (t : VTy) (entry : BitVec 32) (v : Nat) : Num :=
  if t.isFp then (laneIeee t).dec v
  else if t.isB8 then b8dec (laneB8 t entry) v
  else .ofInt (intOf t.isSint t.bits v)

/-- The random bits of element `e` under state `s`, 03_numbers.md R83. -/
def mix32 (h : BitVec 32) : BitVec 32 :=
  let h := h ^^^ (h >>> 16)
  let h := h * 0x85EBCA6B
  let h := h ^^^ (h >>> 13)
  let h := h * 0xC2B2AE35
  h ^^^ (h >>> 16)

/-- rnd(e), 03_numbers.md R83. -/
def rndBits (s : BitVec 32) (e : Nat) : Nat := (mix32 (s + BitVec.ofNat 32 e * 0x9E3779B9)).toNat

/-- Conversion of one lane, 06_vector.md Table 6.6. -/
def cvtLane (s d : VTy) (entry : BitVec 32) (rm : Rm) (sat : Bool) (v : Nat) : Nat × Fl :=
  let x := laneNum s entry v
  if s.isInt && d.isInt then
    if sat then
      let (c, f) := clipInt d.isSint d.bits (intOf s.isSint s.bits v)
      (wrapInt d.bits c, f)
    else (wrapInt d.bits (intOf s.isSint s.bits v), 0)
  else if s == d then
    (if x.isNan then (if d.isFp then (laneIeee d).qnan else b8nan (laneB8 d entry)) else v, sigFl [x])
  else if d.isFp then
    let (r, f) := (laneIeee d).enc rm sat x
    (r, f ||| sigFl [x])
  else if d.isB8 then b8enc (laneB8 d entry) rm sat x
  else toInt d.isSint d.bits rm x

/-! ## FRCP, FRSQ, FLOG2, FEXP2 (03_numbers.md R92, R93) -/

/-- The integer square root by Newton's steps from above. -/
def isqrtGo : Nat → Nat → Nat → Nat
  | 0, _, x => x
  | f + 1, n, x => let y := (x + n / x) / 2; if y < x then isqrtGo f n y else x

/-- The floor of the square root. -/
def isqrt (n : Nat) : Nat := if n = 0 then 0 else isqrtGo 400 n (2 ^ (Nat.log2 n / 2 + 1))

/-- Working precision of the table reals, in bits. -/
def tp : Nat := 160

/-- The nearest integer to a / b, ties to even. -/
def rneDiv (a : Int) (b : Nat) : Int :=
  let q := a / (b : Int)
  let r := (a % (b : Int)).toNat
  if 2 * r < b then q else if b < 2 * r then q + 1 else if q % 2 = 0 then q else q + 1

/-- log2 of y / 2^tp in [1, 2), by squaring: n bits. -/
def log2Go : Nat → Nat → Nat → Nat
  | 0, _, acc => acc
  | n + 1, y, acc =>
    let y := y * y / 2 ^ (2 * tp)
    if 2 ^ (2 * tp + 1) ≤ y then log2Go n (y / 2) (2 * acc + 1) else log2Go n y (2 * acc)

/-- 2^(k/256) x 2^tp from the binary digits of k, the roots taken one by one. -/
def exp2Go : Nat → Nat → Nat → Nat → Nat
  | 0, _, _, acc => acc
  | n + 1, k, root, acc =>
    let root := isqrt (root * 2 ^ tp)
    exp2Go n (2 * k % 256) root (if 128 ≤ k then acc * root / 2 ^ tp else acc)

/-- The four table functions; FRSQ has one for each parity. -/
inductive TabFn where
  | rcp | rsqEven | rsqOdd | log2 | exp2
  deriving DecidableEq, Repr

/-- g at 2h/256 of entry i's interval (h = 2i, 2i + 1, 2i + 2), scaled by 2^tp, 03_numbers.md Table 3.10. -/
def tabReal (f : TabFn) (h : Nat) : Nat :=
  match f with
  | .rcp => 256 * 2 ^ tp / (256 + h)
  | .rsqEven => isqrt (256 * 2 ^ (2 * tp) / (256 + h))
  | .rsqOdd => isqrt (128 * 2 ^ (2 * tp) / (256 + h))
  | .log2 => if h = 256 then 2 ^ tp else log2Go tp ((256 + h) * 2 ^ (2 * tp) / 256) 0
  | .exp2 => if h = 256 then 2 * 2 ^ tp else exp2Go 8 h (2 * 2 ^ tp) (2 ^ tp)

/-- The evaluation Y for index i and fraction U, 03_numbers.md R92. -/
def tabEval (f : TabFn) (i u : Nat) : Int :=
  let f0 : Int := tabReal f (2 * i)
  let fm : Int := tabReal f (2 * i + 1)
  let f1 : Int := tabReal f (2 * i + 2)
  let d := 2 ^ (tp - 30)
  let c0 := rneDiv f0 d
  let c1 := rneDiv (4 * fm - 3 * f0 - f1) d
  let c2 := rneDiv (2 * f0 - 4 * fm + 2 * f1) d
  let q := c1 + (c2 * u) / 65536
  c0 + (q * u) / 65536

/-- The exact value i x 2^e. -/
def numOf (neg : Bool) (i : Int) (e : Int) : Num := .fin (neg != decide (i < 0)) i.natAbs e

/-- Normalises a nonzero m x 2^e to the 24-bit fraction F23 and exponent, 03_numbers.md R93. -/
def normal (m : Nat) (e : Int) : Nat × Int :=
  let l := Nat.log2 m
  ((if l ≤ 23 then m * 2 ^ (23 - l) else m / 2 ^ (l - 23)) - 2 ^ 23, e + l)

/-- FRCP, 03_numbers.md R93: the exact value to round, and the flags the special cases raise. -/
def frcpOf (x : Num) : Num × Fl :=
  match x with
  | .nan s => (.nan false, if s then nvF else 0)
  | .inf n => (.fin n 0 0, 0)
  | .fin n m e =>
    if m = 0 then (.inf n, dzF)
    else
      let (f, ex) := normal m e
      (numOf n (tabEval .rcp (f / 65536) (f % 65536)) (-30 - ex), 0)

/-- FRSQ. -/
def frsqOf (x : Num) : Num × Fl :=
  match x with
  | .nan s => (.nan false, if s then nvF else 0)
  | .inf n => if n then (.nan false, nvF) else (.fin false 0 0, 0)
  | .fin n m e =>
    if m = 0 then (.inf n, dzF)
    else if n then (.nan false, nvF)
    else
      let (f, ex) := normal m e
      (numOf false (tabEval (if ex % 2 = 0 then .rsqEven else .rsqOdd) (f / 65536) (f % 65536)) (-30 - ex / 2), 0)

/-- FLOG2. -/
def flog2Of (x : Num) : Num × Fl :=
  match x with
  | .nan s => (.nan false, if s then nvF else 0)
  | .inf n => if n then (.nan false, nvF) else (.inf false, 0)
  | .fin n m e =>
    if m = 0 then (.inf true, dzF)
    else if n then (.nan false, nvF)
    else
      let (f, ex) := normal m e
      (numOf false (ex * 2 ^ 30 + tabEval .log2 (f / 65536) (f % 65536)) (-30), 0)

/-- FEXP2: beyond its range, a value that overflows or underflows, inexact (03_numbers.md R93). -/
def fexp2Of (x : Num) : Num × Fl :=
  match x with
  | .nan s => (.nan false, if s then nvF else 0)
  | .inf n => if n then (.fin false 0 0, 0) else (.inf false, 0)
  | .fin n m e =>
    let v := scaled n m (max e (-64)) (-64)
    let v := if e < -64 then (if n && m != 0 then -1 else 0) else v
    if (128 : Int) * 2 ^ 64 ≤ v then (.fin false 3 200, 0)
    else if v < -(151 : Int) * 2 ^ 64 then (.fin false 3 (-400), 0)
    else
      let k := v / (2 ^ 64 : Int)
      let r := (v % (2 ^ 64 : Int)).toNat
      let f := r / 2 ^ 41
      let f := if e < -64 && n && m != 0 then 2 ^ 23 - 1 else f
      (numOf false (tabEval .exp2 (f / 65536) (f % 65536)) (k - 30), 0)

end Sys2Proof.Machine
end

