-- ==== Sys2Proof/Machine/Operands.lean ====
section
/-! DEFINITION. The operand forms: lanes of a vector register, operand B with its broadcasts and window reads, and what
each instruction reads, writes and names (02_bundles.md R47 to R59, 05_registers.md R147, 06_vector.md). -/

namespace Sys2Proof.Machine

/-! ## Lanes -/

/-- The lanes of `w` bytes in a byte list. -/
def lanesOf (w : Nat) (bs : List Byte) : List Nat := (chunks w (bs.length / w) bs).map ofLe
/-- The bytes of lanes of `w` bytes. -/
def bytesOf (w : Nat) (ls : List Nat) : List Byte := ls.flatMap (leBytes w)
/-- The lanes of vector register `r` of the core in hand, 06_vector.md R157. -/
def State.lanesV (s : State) (t : VTy) (r : VReg) : List Nat := lanesOf t.bytes (s.vreg r)
/-- The mask bits of the lanes of a type, 06_vector.md R158. -/
def maskBits (n : Nat) (m : Mask) : List Bool := (List.range n).map m.getLsbD
/-- A mask from bits, lane 0 first. -/
def ofBits (bs : List Bool) : Mask := BitVec.ofNat 256 (bs.foldr (fun b a => b.toNat + 2 * a) 0)

/-- Writes lanes into a vector register fixed at issue, at the end of c0 + `d`; `none` keeps a lane. The write counts as
one of the whole register (06_vector.md R158). -/
def State.deferLanes (s : State) (d : Nat) (t : VTy) (vd : VReg) (ls : List (Option Nat)) : State :=
  let bs := ls.flatMap fun l =>
    match l with
    | some v => (leBytes t.bytes v).map some
    | none => List.replicate t.bytes none
  s.defer d (.pool s.ctx.core (s.me.vaddr vd) bs true)
/-- Raises flags at the end of c0 + `d`, 03_numbers.md R76. -/
def State.deferFlags (s : State) (d : Nat) (f : Fl) : State := if f = 0 then s else s.defer d (.flags s.ctx.core f)

/-! ## Windows and operand B -/

/-- Element `i` of window `w`: `none` when unbound; else the value, the element size and whether `i` is out of bounds
(05_registers.md R147). -/
def State.window (s : State) (w i : Nat) : Option (Nat × Nat × Bool) :=
  match ((s.runOf s.ctx.core).map fun r => r.last.windows.getD w none).getD none with
  | none => none
  | some (base, size, e) =>
    if size ≤ i then some (0, e, true) else some (ofLe (s.poolRead s.ctx.core (base + i * e) e), e, false)

/-- The lane value of a 32-bit broadcast source, 02_bundles.md Table 2.5. -/
def bcastLane (t : VTy) (entry : BitVec 32) (v : BitVec 32) : Nat :=
  if t.isB8 then (b8enc (laneB8 t entry) .rne false (fp32.dec v.toNat)).1
  else if t.isFp && t.bytes == 2 then ((laneIeee t).enc .rne false (fp32.dec v.toNat)).1
  else v.toNat % 2 ^ t.bits

/-- The 32-bit source of imm20, 02_bundles.md R50. -/
def imm20Src (t : VTy) (i : BitVec 20) : BitVec 32 := if t.isInt then i.signExtend 32 else i ++ 0#12

/-- The lane value of a window element of `e` bytes, 02_bundles.md R50. -/
def windowLane (t : VTy) (entry : BitVec 32) (e v : Nat) : Nat :=
  if e = t.bytes && decide (e < 4) then v
  else if 4 ≤ e then bcastLane t entry (BitVec.ofNat 32 v)
  else bcastLane t entry (BitVec.ofInt 32 (intOf t.isSint (8 * e) v))

/-- Reads operand B and goes on with its lanes; an unbound window raises UNBOUND_WINDOW, an index beyond the window sets
PWOOB (02_bundles.md R49, R50, 05_registers.md R147). -/
def State.withB (s : State) (t : VTy) (b : OpB) (k : State → List Nat → State) : State :=
  let all := fun v => List.replicate t.lanes v
  match b with
  | .v r => k s (s.lanesV t r)
  | .lit i => k s (all (bcastLane t s.me.fmtNow (s.ctx.lits.getD i.toNat 0)))
  | .imm i => k s (all (bcastLane t s.me.fmtNow (imm20Src t i)))
  | .x r => k s (all (bcastLane t s.me.fmtNow (bits (s.xr r) 0 32)))
  | .win w i =>
    match s.window w.toNat i.toNat with
    | none => s.raise .unboundWindow 0 0
    | some (v, e, oob) => k (if oob then s.defer 0 (.stat s.ctx.core 1) else s) (all (windowLane t s.me.fmtNow e v))

/-! ## What an instruction names -/

/-- A destination of a syllable, 02_bundles.md R57; `gather` and `stream` stand for the pairings of 06_vector.md Table
6.3. -/
inductive Dest where
  | x (r : XReg)
  | p (i : PReg)
  | q (i : QReg)
  | v (r : VReg)
  | sr (i : Nat)
  | gather
  | stream (k : BitVec 2)
  deriving DecidableEq, Repr

/-- A location whose pending write EARLY_READ looks for at issue, 04_cycles.md R102. -/
inductive Loc where
  | x (r : XReg)
  | p (i : PReg)
  | q (i : QReg)
  | v (r : VReg)
  | sr (i : Nat)
  deriving DecidableEq, Repr

/-- A destination or source vector register beyond the allotment, 02_bundles.md R47. -/
def badV (k : Carve) (r : VReg) : Bool := decide (k.v ≤ r.toNat)
/-- Tile beyond the allotment. -/
def badT (k : Carve) (t : BitVec 4) : Bool := decide (k.t ≤ t.toNat)
/-- Accumulator beyond the allotment. -/
def badA (k : Carve) (a : BitVec 3) : Bool := decide (k.a ≤ a.toNat)
/-- Stream buffer beyond the allotment. -/
def badS (k : Carve) (b : BitVec 2) : Bool := decide (k.s ≤ b.toNat)

/-- The vector registers among destinations. -/
def Dest.badIn (k : Carve) : Dest → Bool
  | .v r => badV k r
  | .stream b => badS k b
  | _ => false
/-- The vector registers among sources. -/
def Loc.badIn (k : Carve) : Loc → Bool
  | .v r => badV k r
  | _ => false

/-- x registers `f` to `f + n − 1`. -/
def xRange (f : XReg) (n : Nat) : List XReg := (List.range n).map fun j => f + BitVec.ofNat 5 j

end Sys2Proof.Machine

namespace Sys2Proof

open Sys2Proof.Machine

/-- The destinations a syllable names, 02_bundles.md R57. -/
def Instr.dests : Instr → List Dest
  | .add d _ _ | .addi d _ _ | .sub d _ _ | .subi d _ _ | .mul d _ _ | .muli d _ _ | .mulh d _ _ _ | .div d _ _ _
  | .rem d _ _ _ | .and d _ _ | .andi d _ _ | .or d _ _ | .ori d _ _ | .xor d _ _ | .xori d _ _ | .andn d _ _
  | .shl d _ _ | .shli d _ _ | .shr d _ _ | .shri d _ _ | .sha d _ _ | .shai d _ _ | .rot d _ _ | .roti d _ _
  | .min d _ _ _ | .max d _ _ _ | .clz d _ | .ctz d _ | .popc d _ | .bfx d _ _ _ _ | .bfi d _ _ _ | .sel d _ _ _
  | .li d _ _ | .lih d _ | .lea d _ _ _ _ | .pmovGet d | .ld d _ _ _ _ | .ldk d _ _ _ _ | .ldf d _ _ _ _ _
  | .amo d _ _ _ _ _ | .amol _ d _ _ _ _ | .fence d _ _ | .call d _ _ | .calli d _ | .rdsr d _ | .rdpod d _
  | .slew d _ | .wait _ d _ _ _ | .barArr d _ | .barWait d _ _ | .barAw d _ | .launch d _ | .tkwait d _
  | .rdfrCore d _ _ | .rdfrCause d _ | .thaw d | .wfld d _ _ | .vext _ d _ _ _ | .scnt _ d _ _ | .qpopMask _ d _
  | .qfirst _ d _ | .qapp _ _ d | .qpopCask _ _ d | .drainMark _ d | .drainPoll _ d | .drainRelease _ d => [.x d]
  | .cmp _ d _ _ | .cmpi _ d _ _ | .pand d _ _ _ _ | .por d _ _ _ _ | .pxor d _ _ _ _ | .pnot d _ | .pmov d _
  | .qany _ d _ => [.p d]
  | .pmovPut _ => (List.range 15).map fun i => .p (BitVec.ofNat 4 (i + 1))
  | .wrsr _ i => [.sr i.toNat]
  | .zfsel _ _ _ => [.sr 0x050]
  | .pushm _ _ => [.sr 0x060]
  | .popm f n => .sr 0x060 :: (xRange f n.toNat).map .x
  | .fadd f | .fsub f | .fmul f | .fmin f | .fmax f | .iadd f | .isub f | .imul f | .imulh f | .imin f | .imax f
  | .vand f | .vor f | .vxor f | .vshl f | .vshr f | .vsha f | .iadds f | .isubs f | .vsel f _ | .perm f
  | .vhash f => [.v f.vd]
  | .fma f | .fms f | .fnma f => [.v f.vd]
  | .fabs f | .fneg f | .frcp f | .frsq f | .fexp2 f | .flog2 f | .iabs f | .vpopc f | .vclz f | .rotl f _
  | .bcast f _ | .rsum f | .rmin f | .rmax f | .rmini f | .scan f => [.v f.vd]
  | .vmov f | .viota f | .vins f _ => [.v f.vd]
  | .cvt f => [.v f.vd]
  | .zip f | .unzip f => [.v f.vd]
  | .fcmp f | .icmp f => [.q f.qd]
  | .vld f => [.v f.vd]
  | .vlds f => [.v f.vd]
  | .vgath f => [.gather, .v f.vd]
  | .vscat _ => [.gather]
  | .vgathk f _ _ => [.gather, .v f.vd]
  | .spush _ _ k _ => [.stream k]
  | .spop _ d q k => [.stream k, .v d, .q q]
  | .qand d _ _ | .qor d _ _ | .qxor d _ _ | .qnot d _ => [.q d]
  | _ => []

/-- The locations operand B reads. -/
def OpB.reads : OpB → List Loc
  | .v r => [.v r]
  | .x r => [.x r]
  | .lit _ => []
  | .imm _ => []
  | .win _ _ => []

/-- The register operands a syllable reads at c0, 04_cycles.md R102. Pool bytes are checked where they are sampled. -/
def Instr.reads : Instr → List Loc
  | .add _ a b | .sub _ a b | .mul _ a b | .mulh _ a b _ | .div _ a b _ | .rem _ a b _ | .and _ a b | .or _ a b
  | .xor _ a b | .andn _ a b | .shl _ a b | .shr _ a b | .sha _ a b | .rot _ a b | .min _ a b _ | .max _ a b _
  | .cmp _ _ a b | .lea _ a b _ _ | .st a b _ _ | .stf a b _ _ _ => [.x a, .x b]
  | .amo d a b _ _ _ | .amol _ d a b _ _ => [.x a, .x b, .x d]
  | .addi _ a _ | .subi _ a _ | .muli _ a _ | .andi _ a _ | .ori _ a _ | .xori _ a _ | .shli _ a _ | .shri _ a _
  | .shai _ a _ | .roti _ a _ | .clz _ a | .ctz _ a | .popc _ a | .bfx _ a _ _ _ | .cmpi _ _ a _ | .pmovPut a
  | .ld _ a _ _ _ | .ldk _ a _ _ _ | .ldf _ a _ _ _ _ | .br a _ | .call _ a _ | .wrsr a _ | .phase a _ _ _ _
  | .barWait _ a _ | .launch _ a | .rdfrCore _ a _ => [.x a]
  | .bfi d a _ _ => [.x a, .x d]
  | .lih d _ => [.x d]
  | .sel _ a b p => [.x a, .x b, .p p]
  | .pand _ a b _ _ | .por _ a b _ _ | .pxor _ a b _ _ => [.p a, .p b]
  | .pnot _ a | .pmov _ a => [.p a]
  | .pmovGet _ => (List.range 16).map fun i => .p (BitVec.ofNat 4 i)
  | .loop _ a b _ pad _ => if pad then [.x a, .x b] else [.x a]
  | .loopi _ b _ pad _ _ => if pad then [.x b] else []
  | .wait k _ a b _ => if k = .tag then [.x a, .x b] else [.x a]
  | .rdsr _ i => [.sr i.toNat]
  | .pushm f n => .sr 0x060 :: (xRange f n.toNat).map .x
  | .popm _ _ => [.sr 0x060]
  | .fadd f | .fsub f | .fmul f | .fmin f | .fmax f | .iadd f | .isub f | .imul f | .imulh f | .imin f | .imax f
  | .vand f | .vor f | .vxor f | .vshl f | .vshr f | .vsha f | .iadds f | .isubs f | .perm f
  | .vhash f => .v f.va :: .q f.q :: f.b.reads
  | .vsel f q => .v f.va :: .q f.q :: .q q :: f.b.reads
  | .fma f | .fms f | .fnma f => .v f.va :: .v f.vc :: .q f.q :: f.b.reads
  | .fabs f | .fneg f | .frcp f | .frsq f | .fexp2 f | .flog2 f | .iabs f | .vpopc f | .vclz f | .rotl f _
  | .bcast f _ | .rsum f | .rmin f | .rmax f | .rmini f | .scan f => [.v f.va, .q f.q]
  | .vmov f | .viota f | .vins f _ => .q f.q :: f.b.reads
  | .cvt f => [.v f.va, .q f.q]
  | .zip f | .unzip f => .v f.va :: .q f.q :: f.vb.reads
  | .fcmp f | .icmp f => .v f.va :: .q f.q :: f.b.reads
  | .vext _ _ va _ q => [.v va, .q q]
  | .vld f => .x f.xb :: .q f.q :: (f.tc.map Loc.x).toList
  | .vst f => [.x f.xb, .v f.vd, .q f.q]
  | .vlds f => [.x f.xb, .x f.xs, .q f.q]
  | .vsts f => [.x f.xb, .x f.xs, .v f.vd, .q f.q]
  | .vgath f => .v f.va :: .x f.xb :: .q f.q :: (f.tc.map Loc.x).toList
  | .vscat f => [.v f.va, .v f.vd, .x f.xb, .q f.q]
  | .vgathk f _ _ => [.v f.va, .q f.q]
  | .spush _ va _ q => [.v va, .q q]
  | .qand _ a b | .qor _ a b | .qxor _ a b => [.q a, .q b]
  | .qnot _ a => [.q a]
  | .qpopMask _ _ a | .qfirst _ _ a | .qany _ _ a => [.q a]
  | .mld _ tc xb _ => .x (0#1 ++ xb) :: (tc.map fun t => Loc.x (0#1 ++ t)).toList
  | .mst _ xb _ | .macs xb _ _ | .mlda _ xb _ => [.x (0#1 ++ xb)]
  | .zscla va _ | .zsclb va _ => [.v va]
  | .cpl a => [.x a.xa, .x a.xb, .x a.xc]
  | .cpv a => [.x a.xa, .x a.xb, .x a.xc]
  | .cpi a => [.x a]
  | .dtab a _ => [.x a]
  | .spb a | .fla a => [.x a.xa]
  | .chr a => [.x a.xa, .x a.xc]
  | .chw a => [.x a.xa]
  | .qapp a b _ => [.x a, .x b]
  | .lsend a => [.x a.xa, .x a.xb, .x a.xc]
  | .lrecv a c _ => [.x a, .x c]
  | .qsend a => [.x a.xa, .x a.xb, .x a.xc]
  | .qpopCask a b _ => [.x a, .x b]
  | .esend a b c _ | .emcast a b c _ _ => [.x a, .x b, .x c]
  | .drainMark a _ | .drainPoll a _ | .drainRelease a _ => [.x a]
  | _ => []

/-- The syllable names a register beyond the allotment of the partition word, 05_registers.md R133. -/
def Instr.badReg (k : Carve) (i : Instr) : Bool :=
  i.dests.any (·.badIn k) || i.reads.any (·.badIn k) ||
  match i with
  | .mma a x y _ _ | .mmat a x y _ _ => badA k a || badT k x || badT k y
  | .mzero tile d => if tile then badT k d else badA k (bits d 0 3)
  | .mld d _ _ _ => badT k d
  | .mst t _ _ => badT k t
  | .macs _ a _ => badA k a
  | .mcvt d a _ _ _ => badT k d || badA k a
  | .mlda a _ _ => badA k a
  | .mtrn d t => badT k d || badT k t
  | .scnt _ _ b _ => badS k b
  | .spb a | .fla a => a.vec && decide (k.v < a.f.toNat + a.n.toNat)
  | _ => false

/-- The elastic-only forms, 01_machine.md Table 1.7, 12_order.md R286. -/
def Instr.elasticOnly : Instr → Bool
  | .wait .. | .tkwait .. | .slew .. | .ldf .. | .stf .. | .amo .. | .fence .. | .barArr .. | .barWait .. | .barAw ..
  | .qsend .. | .qpopCask .. | .esend .. | .emcast .. | .qapp .. | .launch .. => true
  | _ => false

/-- Forms that may not stand in a delay bundle, 02_bundles.md R58. -/
def Instr.transfer : Instr → Bool
  | .br .. | .bri .. | .call .. | .calli .. | .loop .. | .loopi .. => true
  | _ => false

/-- Forms that end the task's flow at their bundle when they execute: the branches of 04_cycles.md R104. -/
def Instr.branch : Instr → Bool
  | .br .. | .bri .. | .call .. | .calli .. => true
  | _ => false

/-- Forms that name a recovery task's own instruction, 16_faults.md R367. -/
def Instr.recoveryOnly : Instr → Bool
  | .rdfrCore .. | .rdfrCause .. | .thaw .. | .abort .. => true
  | _ => false

/-- Forms that a recovery task refuses, 16_faults.md R366. -/
def Instr.notInRecovery (i : Instr) : Bool :=
  match i with
  | .mnop | .znop | .cnop => false
  | .barArr .. | .barWait .. | .barAw .. | .phase .. | .slew .. | .launch .. => true
  | j => j.kind == .syl .m || j.kind == .syl .z || j.kind == .syl .c

/-- The rails an executing syllable needs whatever its operands' values, bit 0 MATRIX, 1 VECTOR, 2 SRAM, 3 FABRIC
(14_time_power.md Table 14.4). -/
def Instr.rails (i : Instr) : BitVec 4 :=
  let cls : BitVec 4 := match i with
    | .nop | .vnop | .mnop | .znop | .cnop => 0
    | j => match j.kind with
      | .syl .v => 2
      | .syl .m => 5
      | .syl .z => 1
      | .syl .c => 8
      | _ => 0
  let sram := match i with
    | .ld .. | .st .. | .ldk .. | .pushm .. | .popm .. | .amol .. | .spb .. | .fla .. | .cpi .. | .cpl .. | .cpv .. | .dtab ..
    | .chr .. | .chw .. | .qapp .. | .lsend .. | .qsend .. | .esend .. | .emcast .. | .vld .. | .vst .. | .vlds .. | .vsts ..
    | .vgath .. | .vscat .. | .vgathk .. | .spush .. | .spop .. => true
    | j => j.dests.any (fun d => match d with | .v _ => true | _ => false) ||
           j.reads.any (fun d => match d with | .v _ => true | _ => false)
  cls ||| (if sram then 4 else 0)

end Sys2Proof

namespace Sys2Proof.Machine

/-- A pending write of the core covers a location, 04_cycles.md R102: its producer issued before this cycle; the result of a
syllable that waits is one. FPSTAT flags and
STATUS bits still to be raised are no pending writes for RDSR, as they are none for R57 and R100 (03_numbers.md R76 is silent
on R102; DESIGN CHOICE, log 24). The writes of a core's frozen task are none of its recovery task's (16_faults.md R366). -/
def State.pendingAt (s : State) (c : Nat) (l : Loc) : Bool :=
  let k := s.core c
  let hit : Upd → Bool := fun u =>
    match l, u with
    | .x r, .x d j _ => c == d && r == j && r != 0
    | .p i, .p d j _ => c == d && i != 0 && k.pphys i == j
    | .q i, .q d j _ => c == d && i == j && i != 0
    | .v r, .pool d a bs w => c == d && poolClash (k.vaddr r) (List.replicate 256 none) true a bs w
    | .v r, .acc d b o bs => c == d && poolClash (k.vaddr r) (List.replicate 256 none) true (b + o) bs true
    | .sr i, .sr d j _ => c == d && i == j.toNat
    | .sr i, .spstk d _ => c == d && i == 0x060
    | .sr i, .ftsel d _ => c == d && i == 0x050
    | _, _ => false
  (s.pend.any fun w => decide (w.src.tick < s.tick) && (!k.inRecov || w.clk == .recov c) && hit w.upd.plain) ||
  (match l with
    | .x r => r != 0 && k.waits.any fun w => w.xd == some r && decide (w.src.tick < s.tick)
    | _ => false) ||
  k.ops.any fun e => match e.2, l with
    | some o, .x r => r != 0 && o.futX.contains r && decide (o.src.tick < s.tick)
    | some o, .v r => decide (o.src.tick < s.tick) && o.fut.any fun f =>
        f.1 == c && decide (f.2.1 < k.vaddr r + 256) && decide (k.vaddr r < f.2.1 + f.2.2)
    | _, _ => false

/-- Two records of one operation's producer; a follow-on and a copy that issues in its slot in its cycle are
two, and so are a load that has waited for its tags and the syllable of the next bundle in its slot (06_vector.md R178). -/
def Src.same (p q : Src) : Bool := p.core == q.core && p.slot == q.slot && p.tick == q.tick && p.rx == q.rx && p.fo == q.fo && p.head == q.head

/-- A pending write of a producer that `skip` does not name covers one of the pool bytes `a .. a + n − 1` of core `c`,
12_order.md R278. -/
def State.pendingPool (s : State) (skip : Option Src) (c a n : Nat) : Bool :=
  (s.pend.any fun w => decide (w.src.tick < s.tick) && !(skip.any w.src.same) &&
    match w.upd.plain with
    | .pool d b bs whole => c == d && poolClash a (List.replicate n none) true b bs whole
    | .acc d b o bs => c == d && poolClash a (List.replicate n none) true (b + o) bs true
    | _ => false) ||
  s.cores.any fun e => e.2.ops.any fun q =>
    match q.2 with
    | some o => decide (o.src.tick < s.tick) && !(skip.any o.src.same) && o.fut.any fun f =>
        f.1 == c && decide (f.2.1 < a + n) && decide (a < f.2.1 + f.2.2)
    | none => false

/-- EARLY_READ applies to a sample of core `c`'s pool made for producer `p`, 12_order.md R278. -/
def State.earlyPool (s : State) (p : Src) (c a n : Nat) : Bool :=
  ((s.core c).early || (s.core p.core).early) && s.pendingPool none c a n

end Sys2Proof.Machine
end

