-- ==== Sys2Proof/Machine/Special.lean ====
section
/-! DEFINITION. Reading the special registers (05_registers.md Table 5.4): PODOFF, PHASEK, QFREE with the racking row in
force, and the others. -/

namespace Sys2Proof.Machine

/-- The table in force on port `p` of lane set `l` in slot `sn`, `none` for the built-in one: of those installed for a slot not
later, that of the latest slot (15_light.md R339). -/
def State.tableAt (s : State) (p l sn : Nat) : Option Rack :=
  ((Table.get [] (s.laneSet l).tables p).foldl (fun (b : Option (Nat × Option Rack)) e =>
    if e.1 ≤ sn && b.all fun x => decide (x.1 < e.1) then some e else b) none).bind (·.2)

/-- The tick at which a plane's relock is complete, 15_light.md Table 15.6. -/
def Plane.upTick (q : Plane) : Nat := 80 * (q.start.getD 0 + q.dark) + q.relock

/-- Slot `sn` lies in a plane's dark interval or relock, 15_light.md R355. -/
def State.planeDown (s : State) (p sn : Nat) : Bool :=
  let q := Table.get {} s.planes p
  match q.start with
  | some x => decide (x ≤ sn) && decide (80 * sn < q.upTick)
  | none => false

/-- The racking entry k of port `p`, lane `l` in slot `sn`, with the pod size it counts in; 0 on a dark plane (15_light.md
R338, R339, R355). -/
def State.rackEntry (s : State) (p l sn : Nat) : Nat × Nat :=
  if 14 ≤ l || s.planeDown p sn then (0, s.podSize)
  else
    match s.tableAt p l sn with
    | none =>
      if s.podSize < 2 then (0, s.podSize)
      else
        let d := s.podSize
        (if l < min 14 (d - 1) then 1 + (sn % (d - 1) + l) % (d - 1) else 0, d)
    | some t => ((t.rows.getD (sn % max 1 t.rows.length) []).getD (16 * p + l) 0, t.d)

/-- The device that lane index `i` reaches in slot `sn`; `none` when idle (15_light.md R338). -/
def State.laneRank (s : State) (i sn : Nat) : Option Nat :=
  let (k, d) := s.rackEntry (i / 16) (i % 16) sn
  if k = 0 then none else some ((s.devIndex + k) % d)

/-- The partition owns the lane set of lane index `i`, 15_light.md R328. -/
def State.ownsLane (s : State) (part i : Nat) : Bool := (s.part part).laneSets.getLsbD (i % 16)

/-- QFREEi as core `c` reads it, 15_light.md R340. -/
def State.qfree (s : State) (c i : Nat) : Nat :=
  let p := s.partOf c
  if !s.ownsLane p i then 0
  else match s.laneRank i (s.tick / 80) with
    | none => 0
    | some d => Table.get 0 (s.part p).credits d

/-- PODOFF, 14_time_power.md Table 14.1. -/
def State.podoffReg (s : State) : X :=
  BitVec.ofNat 64 ((if s.podoff.natAbs > 8 then 256 else 0) + (s.podoff % 256).toNat)

/-- PHASEK, 14_time_power.md Table 14.3. -/
def Core.phasek (k : Core) : X :=
  BitVec.ofNat 64 (min k.skew (2 ^ 32 - 1) * 2 ^ 32 + k.ncap * 2 ^ 27 + k.n * 2 ^ 22 + k.pendMask.toNat * 2 ^ 18 +
    k.mask.toNat * 2 ^ 14 + k.hold.toNat * 8 + (k.pendKind && k.gate.isSome).toNat * 4 + k.gate.isSome.toNat * 2 + k.elastic.toNat)

/-- LSXn, 04_cycles.md Table 4.2. -/
def Loop.lsxReg (l : Loop) : X :=
  BitVec.ofNat 64 (l.active.toNat * 256 + l.padded.toNat * 128 + l.rotate.toNat * 64 + l.lsx.toNat)

/-- A special register's value at the end of the previous cycle, an index without a register reading 0 (04_cycles.md R122,
05_registers.md Table 5.4). -/
def State.readSr (s : State) (c n : Nat) : X :=
  let k := s.core c
  let lv := fun (f : Loop → X) => if n % 8 < 6 then f (k.loopOf (n % 8)) else 0
  match n with
  | 0x000 => k.wid
  | 0x001 => BitVec.ofNat 64 s.tick
  | 0x002 => BitVec.ofNat 64 k.lcyc
  | 0x004 => k.part.setWidth 64
  | 0x008 => k.srs ++ 0#30 ++ k.rm
  | 0x009 => k.fpstat.setWidth 64
  | 0x00A => BitVec.ofNat 64 k.early.toNat
  | 0x00B => k.status.setWidth 64
  | 0x00C => k.rrb.setWidth 64
  | 0x050 => k.ftsel.setWidth 64
  | 0x060 => k.spstk.setWidth 64
  | 0x070 => s.podoffReg
  | 0x071 => k.phasek
  | 0x0C0 => BitVec.ofNat 64 k.carve.scrlim
  | _ =>
    if 0x010 ≤ n ∧ n < 0x018 then lv fun l => l.lc.setWidth 64
    else if 0x018 ≤ n ∧ n < 0x020 then lv fun l => l.la.setWidth 64
    else if 0x020 ≤ n ∧ n < 0x028 then lv fun l => l.lb.setWidth 64
    else if 0x028 ≤ n ∧ n < 0x030 then lv fun l => l.le.setWidth 64
    else if 0x030 ≤ n ∧ n < 0x038 then lv fun l => l.lsd
    else if 0x038 ≤ n ∧ n < 0x040 then lv fun l => l.lsxReg
    else if 0x040 ≤ n ∧ n < 0x050 then (k.shape (n - 0x040)).setWidth 64
    else if 0x080 ≤ n ∧ n < 0x0C0 then BitVec.ofNat 64 (s.qfree c (n - 0x080))
    else 0

/-- WRSR refuses the index at decode, 04_cycles.md R123. -/
def srRefused (n : Nat) : Bool :=
  !(n == 0x008 || n == 0x009 || n == 0x00A || n == 0x00B || n == 0x00C || n == 0x050 || n == 0x060 ||
    (decide (0x010 ≤ n) && decide (n < 0x040) && decide (n % 8 < 6)) || (decide (0x040 ≤ n) && decide (n < 0x050)))

end Sys2Proof.Machine
end

