-- ==== Sys2Proof/Machine/Issue.lean ====
section
/-! DEFINITION. The sequencer of a core: its pulses, the start of a task, the issue of a bundle with the faults of
02_bundles.md Table 2.11, the end of a task, and the ends of waits (01_machine.md, 04_cycles.md). -/

namespace Sys2Proof.Machine

/-! ## Pulses -/

/-- A tick of the clock pattern, 14_time_power.md R317. -/
def pulseAt (n rt : Nat) : Bool := decide (16 ≤ n) || (List.range n).any fun m => rt % 16 == ceilDiv (16 * m) n

/-- The core begins a cycle at the present tick (01_machine.md R22, 14_time_power.md R317, 16_faults.md R362, R370); none does
once its run is to be pre-empted at the end of the cycles in hand (01_machine.md R33). -/
def State.pulses (s : State) (c : Nat) : Bool :=
  let k := s.core c
  match k.run with
  | none => false
  | some r =>
    let rt := s.runTick r
    match (s.run r).st with
    | .live => ((s.run r).yieldAt.isNone || (s.run r).cause.isSome) && decide (k.gatedTill ≤ rt) && (!k.elastic || pulseAt k.n rt)
    | .runon _ => decide (k.gatedTill ≤ rt) && (!k.elastic || pulseAt k.n rt)
    | .frozen _ => k.inRecov && pulseAt k.n (rt - k.phaseStart)
    | .armed => false
    | .ended => false

/-- The first tick after tick `t` at which the core begins a cycle, looked for in 16 ticks. -/
def State.nextPulse (s : State) (c t : Nat) : Nat :=
  let k := s.core c
  let tb := ((s.runOf c).map (·.tb)).getD 0
  if !k.elastic then t + 1
  else (((List.range 16).map (t + 1 + ·)).find? fun u => pulseAt k.n (u - tb)).getD (t + 1)

/-- Puts the sequencer state; a stopped core keeps it for its restart (16_faults.md R370). -/
def Core.setSeq (k : Core) (q : Seq) : Core := if k.faulted.isSome then { k with held := q } else { k with seq := q }

/-- The producer of a fault against the task: slot none and the last bundle's head word. -/
def State.taskSrc (s : State) : Src :=
  { core := s.ctx.core, slot := 7, head := s.me.lastHead, cyc := s.me.cyc, tick := s.tick, delay := s.me.lastDelay }

/-- Raises a fault against the task of the core in hand. -/
def State.raiseTask (s : State) (code : FCode) (w2 w3 : X) : State := s.raiseOn s.ctx.core code s.taskSrc w2 w3

/-- The run tick of the present tick for the core in hand. -/
def State.myRunTick (s : State) : Nat := ((s.me.run).map s.runTick).getD 0

/-! ## The start of a task -/

/-- The value of a work-identifier source, 01_machine.md Table 1.6; `o` is the field's bit position. -/
def State.widSource (s : State) (c src o : Nat) : Nat :=
  let k := s.core c
  match s.runOf c with
  | none => 0
  | some r =>
    match src with
    | 1 => c % 16
    | 2 => c / 16 % 16
    | 3 => c / 256 % 2
    | 4 => r.cores.idxOf c
    | 5 => r.rank
    | 6 => k.taskSeq
    | 7 => r.last.user.toNat / 2 ^ o
    | _ => 0

/-- The work identifier, 01_machine.md R21; descriptors are (width, source). -/
def State.widOf (s : State) (c : Nat) : X :=
  let ds := ((s.runOf c).map (·.last.wid)).getD []
  BitVec.ofNat 64 (ds.foldl (fun (a : Nat × Nat) d => (a.1 + s.widSource c d.2 a.2 % 2 ^ d.1 * 2 ^ a.2, a.2 + d.1)) (0, 0)).1

/-- Engine writes of copies, the decanter and the spill engine not yet performed: producer, core, address and length
(09_pool.md R228). -/
def State.engineWrites (s : State) : List (Src × Nat × Nat × Nat) :=
  let done := s.pend.filterMap fun w =>
    match w.upd with
    | .pool c a bs _ => if w.src.eng && decide (5 ≤ w.src.slot) && !w.src.fo then some (w.src, c, a, bs.length) else none
    | _ => none
  let coming := s.cores.flatMap fun e => e.2.ops.flatMap fun p =>
    match p.2 with
    | some o => if 5 ≤ o.src.slot && !o.src.fo then o.fut.map fun f => ({ o.src with eng := true }, f.1, f.2.1, f.2.2) else []
    | none => []
  done ++ coming

/-- Starts the task of entry `taskIx` in the present cycle, 01_machine.md R18, R130, 06_vector.md R180. -/
def Core.beginTask (k : Core) (t : Task) (wid : X) : Core :=
  { k with s := k.cyc, part := t.part, carve := carveOf t.part, rrb := 0, wid := wid, taskSeq := k.taskSeq + 1,
           inTask := true, streams := [], nextPc := t.code.toNat, delayLeft := 0, target := none, waits := [],
           loops := k.loops.map fun l => (l.1, { l.2 with active := false, iter := 0 }) }

/-- A command of the array or the tile mover, whose occupancy `Core.arrayFree` and `Core.moverFree` hold (08_matrix.md
R193). -/
def Op.matrix (o : Op) : Bool := o.src.slot == 3 || o.src.fo

/-- A copy or spill operation of 01_machine.md R33 is queued or running at the end of the core's cycle `y`. -/
def Op.busyAt (o : Op) (y : Nat) : Bool :=
  decide (5 ≤ o.src.slot) && !o.matrix && match o.fin with
    | some f => decide (y ≤ f)
    | none => true

/-- An engine of core `c` is busy in the sense of 01_machine.md R33 at the end of its cycle `y`. -/
def State.enginesBusy (s : State) (c y : Nat) : Bool :=
  let k := s.core c
  k.ops.any (fun e => e.2.any fun o => o.busyAt y) || decide (y < k.arrayFree) || decide (y < k.moverFree) ||
  (List.range 8).any (fun t => decide (y < Table.get 0 k.tok t)) || !k.expects.isEmpty ||
  s.lanes.any fun l => l.2.queue.any (·.src.core == c) ||
    l.2.busy.any fun b => b.2.core == c && decide ((if y < k.cyc then k.cycTick else s.tick) ≤ b.1 + 1)

/-- A core takes part in the barriers of its run: it has not passed its END entry (12_order.md R296). -/
def Core.inBarrier (k : Core) : Bool := k.seq != .done && !(k.faulted.isSome && k.held == .done)

/-- Once every participant has arrived in barrier context `b` of run `r`, the flip is due 40 ticks later (R296). Flips are
kept by run tick. -/
def State.barCheck (s : State) (r b : Nat) : State :=
  let ru := s.run r
  let ps := ru.cores.filter fun c => (s.core c).inBarrier
  let l := Table.get [] ru.arrived b
  if !l.isEmpty && ps.all l.contains && !ru.flips.any (fun f => f.2 == b) then
    s.modRun r fun u => { u with flips := u.flips ++ [(s.runTick r + 40, b)] }
  else s

/-- The core passes its END entry; the last core's passing ends the run or waits for its scripts (01_machine.md R9). -/
def State.finishCore (s : State) (c : Nat) : State :=
  let s := s.modCore c fun k => { k.setSeq .done with inTask := false }
  match (s.core c).run with
  | none => s
  | some r =>
    let s := (List.range 8).foldl (fun s b => s.barCheck r b) s
    let s := s.modRun r fun u => { u with endTick := max u.endTick (s.core c).tendTick }
    { s with todo := s.todo ++ [{ ctx := { run := r }, instr := .runEnd }] }

/-- In the cycle after the last TEND, what of its core's engines still runs: the producer of the operation (09_pool.md
R228). -/
def State.overhangEnd (s : State) (c : Nat) : Option Src :=
  let k := s.core c
  let write := s.engineWrites.find? fun e => e.2.1 == c
  match write with
  | some e => some e.1
  | none =>
    match k.ops.findSome? (fun e => (e.2.filter fun o => o.busyAt (k.cyc - 1)).map (·.src)) with
    | some p => some p
    | none =>
      let y := k.cyc - 1
      if y < k.arrayFree then some k.arraySrc
      else if y < k.moverFree then some k.moverSrc
      else if (List.range 8).any fun t => decide (y < Table.get 0 k.tok t) then some k.spillSrc
      else if s.enginesBusy c y then
        let lane := s.lanes.findSome? fun l =>
          ((l.2.busy.filter fun b => b.2.core == c && decide (s.tick ≤ b.1 + 1)).map (·.2) ++
            (l.2.queue.map (·.src)).filter fun p => p.core == c).head?
        some ((lane.or (k.expects.head?.map (·.src))).getD { s.taskSrc with core := c })
      else none

/-- TASK_START: the entry's first cycle; an AT tick gone by raises DEADLINE, a GATE without a gate DEVIATION
(01_machine.md R17, R18); engine writes above the new SCRLIM raise TASK_OVERHANG, as do the engines
still busy at an END entry (09_pool.md R228). -/
def execTaskStart (s : State) : Out :=
  let c := s.ctx.core
  let k := s.me
  let t := k.tasks.getD k.taskIx {}
  match k.seq, t.rule with
  | .atCycle _, .at => ok (s.raiseTask .deadline 2 (t.v.setWidth 64))
  | .atCycle _, .gate => ok (s.raiseTask .deviation 0 0)
  | _, .fin =>
    match s.overhangEnd c with
    | some p => ok (s.raiseOn c .taskOverhang { p with eng := true } 0 0)
    | none => ok (s.finishCore c)
  | _, _ =>
    let s := s.modCore c fun k => { (k.beginTask t (s.widOf c)) with seq := .issue k.cyc }
    let lim := (s.core c).carve.scrlim
    match s.engineWrites.find? fun e => e.2.1 == c && decide (lim < e.2.2.1 + e.2.2.2) with
    | some e => ok (s.raiseOn c .taskOverhang { e.1 with eng := true } 0 0)
    | none => ok s

/-- DEVIATION of a TEND by 01_machine.md R20. -/
def State.badLength (s : State) : Bool :=
  let k := s.me
  let t := k.tasks.getD k.taskIx {}
  !k.elastic && (t.len == 0xFFFFFFFF || k.lcyc != t.len.toNat)

/-- The next task after a TEND in cycle e, 01_machine.md Table 1.5, 09_pool.md R228. -/
def State.nextTask (s : State) : State :=
  let c := s.ctx.core
  let s := s.modMe fun k => { k with inTask := false, taskIx := k.taskIx + 1, tendTick := s.tick }
  let k := s.me
  let t := k.tasks.getD k.taskIx {}
  match t.rule with
  | .after => s.modMe fun k => k.setSeq (.atCycle (k.cyc + 1 + t.v.toNat))
  | .at =>
    if t.v.toNat ≤ s.myRunTick then s.modMe fun k => k.setSeq (.atCycle (k.cyc + 1))
    else s.modMe fun k => k.setSeq (.atTick t.v.toNat)
  | .gate =>
    if k.gate.isSome then s.modMe fun k => k.setSeq (.gate (s.nextPulse c s.tick))
    else s.modMe fun k => k.setSeq (.atCycle (k.cyc + 1))
  | .fin => s.modMe fun k => k.setSeq (.atCycle (k.cyc + 1))

/-! ## Issue -/

/-- The bundle at a head word lies in a nullified iteration, 04_cycles.md R112. -/
def Core.nullIter (k : Core) (h : Nat) : Bool :=
  (List.range 6).any fun n =>
    let l := k.loopOf n
    l.active && l.padded && l.la == 0 && decide (l.lb.toNat ≤ h) && decide (h ≤ l.le.toNat)

/-- First and last tests of the governing level, 04_cycles.md R114. -/
def Core.flagsAt (k : Core) (h : Nat) : Bool × Bool :=
  match ([5, 4, 3, 2, 1, 0].map k.loopOf).find? fun l => l.active && decide (l.lb.toNat ≤ h) && decide (h ≤ l.le.toNat) with
  | none => (true, true)
  | some l => (l.iter == 0, if l.padded then l.la == 1 else decide (l.lc.toNat ≤ 1))

/-- Levels that end at a head word, in descending order, 04_cycles.md R111. -/
def Core.endsAt (k : Core) (h : Nat) : List Nat :=
  [5, 4, 3, 2, 1, 0].filter fun n => (k.loopOf n).active && (k.loopOf n).le.toNat == h

/-- The decisions of the levels ending here: those that exit, and the one that loops back (04_cycles.md R110, R111). -/
def Core.decide_ (k : Core) : List Nat → List Nat × Option Nat
  | [] => ([], none)
  | n :: r =>
    if 1 < (k.loopOf n).lc.toNat then ([], some n)
    else
      let (e, b) := k.decide_ r
      (n :: e, b)

/-- Defers the decisions with the stride and rotation of the loop-back, 04_cycles.md R110, R113; slot none produces the
stride's write. -/
def State.loopEnd (s : State) (d : List Nat × Option Nat) : State :=
  let c := s.ctx.core
  let k := s.me
  let s := { s with ctx := { s.ctx with slot := .c1 } }
  let s := d.1.foldl (fun s n => s.defer 0 (.loopStep c n false)) s
  match d.2 with
  | none => s
  | some n =>
    let l := k.loopOf n
    let s := s.defer 0 (.loopStep c n true)
    let s := if l.lsx = 0 then s
      else s.push { clk := s.clkOf c, due := k.cyc, upd := .x c l.lsx (k.xr l.lsx + l.lsd), src := { s.src with slot := 7 } }
    if l.rotate then s.defer 0 (.rotate c) else s

/-- A syllable of the bundle in hand: its slot, its bits, and what it decodes to. -/
structure SylAt where
  slot : Slot
  w : BitVec 64
  dec : SylDec
  deriving DecidableEq, Repr

/-- The follow-on of a copy that names the literal pair `p`, 08_matrix.md R205. -/
def followOf (lits : List W32) (p : BitVec 2) : SylDec :=
  let w := lits.getD (2 * p.toNat + 1) 0 ++ lits.getD (2 * p.toNat) 0
  match decodeSyl .m lits.length w with
  | .ok y =>
    match y.instr with
    | .mld _ (some _) _ _ => .illegalEnc
    | _ => .ok y
  | d => d

/-- The follow-on pair of an instruction, 09_pool.md Table 9.3. -/
def foPair : Instr → Option (BitVec 2)
  | .cpl a => a.fo
  | .cpv a => a.fo
  | .chr a => a.fo
  | _ => none

/-- A refusal by kind of task, whatever the other fields: the recovery forms outside a recovery task, and what a recovery
task refuses (16_faults.md R366, R367). -/
def opRefused (recov : Bool) (c : Cls) (w : BitVec 64) : Bool :=
  let op := (bits w 51 8).toNat
  match c with
  | .s => if recov then op == 0x66 || op == 0x64 || op == 0x63 || op == 0x6A else op == 0x6E || op == 0x6F || op == 0x70
  | .v => false
  | _ => recov && op != 0

/-- ILLEGAL_OP, ILLEGAL_ENC and BAD_REG of one syllable in a bundle of `len` words, 02_bundles.md Table 2.11 step 3. A copy's
own ILLEGAL_OP and ILLEGAL_ENC come before those of its follow-on (08_matrix.md R205 names no order; DESIGN CHOICE, log
25). -/
def sylFault (k : Core) (len : Nat) (lits : List W32) (y : SylAt) : Option FCode :=
  if opRefused k.inRecov y.slot.cls y.w then some .illegalOp
  else match y.dec with
    | .illegalOp => some .illegalOp
    | .illegalEnc => some .illegalEnc
    | .ok z =>
      let enc := match z.instr with
        | .wrsr _ i => srRefused i.toNat
        | .loop _ _ _ _ _ off => decide (off.toNat < len)
        | .loopi _ _ _ _ _ off => decide (off.toNat < len)
        | _ => false
      if enc then some .illegalEnc
      else
        let fo := (foPair z.instr).map (followOf lits)
        match fo with
        | some .illegalOp => some .illegalOp
        | some .illegalEnc => some .illegalEnc
        | some (.ok f) => if z.instr.badReg k.carve || f.instr.badReg k.carve then some .badReg else none
        | none => if z.instr.badReg k.carve then some .badReg else none

/-- The later syllable of the first pair that names one destination, 02_bundles.md R57, R60. -/
def slotConflict : List (Slot × List Dest) → Option Slot
  | [] => none
  | (_, d) :: r =>
    match r.find? fun e => e.2.any d.contains with
    | some e => some e.1
    | none => slotConflict r

/-- The instruction of a decoded syllable. -/
def SylAt.instr (y : SylAt) : Instr :=
  match y.dec with
  | .ok z => z.instr
  | _ => .nop

/-- The first fault of steps 3 to 5, with its slot, 02_bundles.md Table 2.11. -/
def bundleFault (k : Core) (len : Nat) (lits : List W32) (delay : Bool) (ys : List SylAt) : Option (FCode × Slot) :=
  match ys.findSome? fun y => (sylFault k len lits y).map fun f => (f, y.slot) with
  | some f => some f
  | none =>
    match slotConflict (ys.map fun y => (y.slot, y.instr.dests)) with
    | some t => some (.slotConflict, t)
    | none => ys.findSome? fun y =>
        if delay && y.instr.transfer then some (.delayBranch, y.slot)
        else if !k.elastic && y.instr.elasticOnly then some (.elasticOnly, y.slot)
        else none

/-- The syllables of a bundle whose words are `ws` after the header. -/
def sylsOf (n : Nat) : List Slot → List W32 → List SylAt
  | [], _ => []
  | t :: r, lo :: hi :: ws => { slot := t, w := hi ++ lo, dec := decodeSyl t.cls n (hi ++ lo) } :: sylsOf n r ws
  | _ :: _, _ => []

/-- EARLY_READ and RAIL_DOWN of an executing syllable at its issue, before its own faults (04_cycles.md R102,
14_time_power.md R322). -/
def State.preFault (s : State) (c : Nat) (gp : PReg) (i : Instr) : Option FCode :=
  let k := s.core c
  if k.early && ((gp != 0 && s.pendingAt c (.p gp)) || i.reads.any (s.pendingAt c)) then some .earlyRead
  else if i.rails &&& k.rails != i.rails then some .railDown
  else none

/-- Checks the syllable that stands next: a fault drops it. -/
def State.preCheck (s : State) : State :=
  match s.todo with
  | [] => s
  | w :: r =>
    match s.preFault w.ctx.core (BitVec.ofNat 4 w.ctx.req) w.instr with
    | none => s
    | some f => ({ s with todo := r, ctx := w.ctx }).raise f 0 0

/-- The work of a syllable with the check before it, or what a nullified syllable still does: an M syllable takes its
occupancy, a LOOP arms its level (01_machine.md R25, 04_cycles.md R112, 08_matrix.md R193). `req` of the context carries
the guard predicate. -/
def sylWorks (k : Core) (h : Header) (base : Ctx) (null : Bool) (y : SylAt) : List Work :=
  match y.dec with
  | .ok z =>
    let fl := k.flagsAt base.head
    let may := k.pr z.gp != z.gs && (!h.firstOnly.getLsbD y.slot.num || fl.1) && (!h.lastOnly.getLsbD y.slot.num || fl.2)
    let ctx := { base with slot := y.slot, inNull := null, exec := may && !null, req := z.gp.toNat }
    if may && !null then [{ ctx := { ctx with idx := 1 }, instr := .bundleIssue }, { ctx := ctx, instr := z.instr }]
    else
      match z.instr.kind with
      | .syl .m => [{ ctx := ctx, instr := z.instr }]
      | _ => if may && (match z.instr with | .loop .. => true | .loopi .. => true | _ => false)
             then [{ ctx := ctx, instr := z.instr }] else []
  | _ => []

/-- The sequencer after the bundle: the next head word, the delay bundles left and the stall (04_cycles.md R94, R104,
R110). Behind the second delay bundle the transfer stays pending until its target issues (R106). A transfer target outside 0x0000..0x7FFF stands as word 0x8000, which has no head bit. -/
def Core.advancePc (k : Core) (head len stall : Nat) (delay : Bool) (back : Option Nat) (yld : Bool) : Core :=
  let seqn := match back with
    | some n => (k.loopOf n).lb.toNat
    | none => head + len
  let k := { k with stall := stall, lastHead := head, lastDelay := delay, yieldBit := yld, seq := .issue (k.cyc + 1 + stall) }
  if delay then
    let d := k.delayLeft - 1
    if d = 0 then
      let t := k.target.getD 0
      { k with delayLeft := 0, nextPc := if 0 ≤ t ∧ t ≤ 0x7FFF then t.toNat else 0x8000 }
    else { k with delayLeft := d, nextPc := seqn }
  else { k with nextPc := seqn }

/-- Files a self-test; the run that it holds waits for its verdict (14_time_power.md R325, 16_faults.md R373). -/
def State.startTest (s : State) (t : Test) : State :=
  let s := { s with testing := s.testing ++ [t] }
  match t.run with
  | some r => s.modRun r fun q => { q with tests := q.tests + 1 }
  | none => s

/-- Raises MEM_UE on core `c` against producer `p`; the core keeps the unit with the error for the verdict and the restart
(16_faults.md R373). -/
def State.raiseMem (s : State) (c : Nat) (p : Src) (u : Unit') (w2 w3 : X) : State :=
  let k := s.core c
  let t := s.raiseOn c .memUe p w2 w3
  if k.run.isSome && !k.inRecov && k.firstBy (k.place c p) then t.modCore c fun k => { k with ue := some u } else t

/-- MEM_UE at the issue of a bundle of `n` words: no syllable of it commits, and the quarters with its bad words are tested
(16_faults.md Table 16.7, R373). -/
def State.imemError (s : State) (p : Src) (n : Nat) : State :=
  let lo := p.core * 32768 + p.head
  let qs := (s.badWords.filter fun w => decide (lo ≤ w) && decide (w < lo + n)).map fun w => w / 8192 % 4
  let run := (s.core p.core).run
  qs.eraseDups.foldl (fun s q => s.startTest { unit := .imemQuarter p.core q, run := run })
    (s.raiseMem p.core p (.imemQuarter p.core (qs.headD 0)) 0 (BitVec.ofNat 64 ((run.map s.runTick).getD 0)))

/-- Issues the bundle at the next head word, 04_cycles.md R94, in the order of 02_bundles.md Table 2.11. MEM_UE of an instruction
word has no place in that table: a word with an error raises it before what the word's bits would raise, and after the faults of
an address outside the memory (DESIGN CHOICE, log 25). Of a bundle with
several faulty syllables one fault is raised; the other syllables with a fault of step 3 do not commit, while a second one
with a SLOT_CONFLICT, a DELAY_BRANCH or an ELASTIC_ONLY still executes (01_machine.md R28 speaks of the one faulting syllable
only; DESIGN CHOICE, log 25), and after the DELAY_BRANCH of a loop-end bundle every syllable does whose fault is of step 5
(04_cycles.md R106). -/
def State.issue (s : State) : State :=
  let c := s.ctx.core
  let k := s.me
  let head := k.nextPc
  let delay := decide (0 < k.delayLeft)
  let src : Src := { core := c, slot := 7, head := head, cyc := k.cyc, tick := s.tick, delay := delay, atIssue := true }
  let s := s.modCore c fun k => { k with lastHead := head, lastDelay := delay, target := if delay then k.target else none }
  let (w0, hb) := s.imemAt c head
  let bad := fun n => s.badWords.any fun w => decide (c * 32768 + head ≤ w) && decide (w < c * 32768 + head + n)
  if 32768 ≤ head then s.raiseOn c .badTarget src 0 0
  else if bad 1 then s.imemError src 1
  else if !hb then s.raiseOn c .badTarget src 0 0
  else
    match Header.dec w0 with
    | none => s.raiseOn c .illegalEnc src 0 0
    | some h =>
      let len := h.length
      let rest := (List.range (len - 1)).map fun i => s.imemAt c (head + 1 + i)
      if 32768 < head + len then s.raiseOn c .illegalEnc src 0 0
      else if bad len then s.imemError src len
      else if rest.any (·.2) then s.raiseOn c .illegalEnc src 0 0
      else
        let ws := rest.map (·.1)
        let lits := ws.drop (2 * h.slots.length)
        let ys := sylsOf h.nlit.toNat h.slots ws
        let fault := bundleFault k len lits delay ys
        let null := k.nullIter head
        let base : Ctx := { core := c, head := head, len := len, stall := h.stall.toNat, lits := lits, delay := delay }
        let sound := ys.filter fun y => (sylFault k len lits y).isNone
        let works := sound.flatMap (sylWorks k h base null)
        let ends := k.endsAt head
        let step5 := match fault with
          | none => true
          | some (f, _) => f == .delayBranch || f == .elasticOnly
        let whole := step5 && !ends.isEmpty && (delay || works.any (·.instr.branch))
        let works := if whole then works else works.filter fun w => (fault.map (·.2)) != some w.ctx.slot
        let dec := if whole then ([], none) else k.decide_ ends
        let s := s.modCore c fun k => k.advancePc head len h.stall.toNat delay dec.2 h.yieldPt
        let s := { s with ctx := base }.loopEnd dec
        let s :=
          if whole then s.raiseOn c .delayBranch src 0 0
          else match fault with
            | some (f, t) => s.raiseOn c f { src with slot := t.num } 0 0
            | none => s
        let works := if whole then works.map fun w =>
            if w.instr.branch then { w with ctx := { w.ctx with idx := 2 } } else w
          else works
        { s with todo := works ++ s.todo }

/-- BUNDLE_ISSUE: the bundle of the core in hand issues; with index 1 in the context, the check of one syllable of it. -/
def execBundleIssue (s : State) : Out := if s.ctx.idx = 1 then ok s.preCheck else ok s.issue

/-- A transfer to `t` is taken: the two delay bundles issue first (04_cycles.md R104). The trap record of a fault in this
bundle shows it. With index 2 in the context R106 refuses it. -/
def State.transfer (s : State) (t : Int) : State :=
  if s.ctx.idx = 2 then s
  else s.modMe fun k =>
    let k := { k with delayLeft := 2, target := some t, nextPc := s.ctx.head + s.ctx.len }
    if k.faulted = some (k.cyc, k.cycTick) && k.trap.w1 == BitVec.ofInt 64 ((k.cycTick : Int) - ((s.runOf s.ctx.core).map (·.tb)).getD 0)
    then { k with trap := { k.trap with w4 := k.resumeWord } } else k

/-! ## Waits -/

/-- A wait is over for a bundle that issues in cycle `w`, as of the end of w − 1 (04_cycles.md R127, 05_registers.md R153,
06_vector.md R178, 12_order.md R288, R297). LCYC and PCC are those of the cycle w itself. -/
def State.waitDone (s : State) (c : Nat) (x : Wait) : Bool :=
  let k := s.core c
  match x.what with
  | .lcyc g => decide (g ≤ k.cyc + 1 - k.s)
  | .pcc g => decide (g ≤ s.tick)
  | .tag a t => s.tagOk c a t
  | .tokens m => (List.range 8).all fun i => !m.getLsbD i || decide (Table.get 0 k.tok i ≤ k.cyc + 1)
  | .barFlip b ph => k.barPhase.getLsbD b != ph
  | .amol due => decide (due ≤ k.cyc + 1)
  | .room => true
  | .tags =>
    let o := s.op c x.op
    o.regs.all fun g => s.tagOk o.cs g o.tag
  | _ => x.ans.isSome

/-- What a wait's register receives: the cycles waited, or the answer. -/
def State.waitValue (s : State) (c : Nat) (x : Wait) : X :=
  match x.what with
  | .lcyc _ | .pcc _ | .tag _ _ | .tokens _ | .barFlip _ _ => x.ans.getD (BitVec.ofNat 64 ((s.core c).cyc + 1 - x.base))
  | _ => x.ans.getD 0

/-- Word 3 of a WRITE_COLLISION record: the other producer's bits [16:12] and [55:41] of word 0 (16_faults.md Table
16.3). -/
def collWord (p : Src) : X :=
  if p.rx.isSome then 0
  else BitVec.ofNat 64 (p.head % 32768 * 2 ^ 41 + p.eng.toNat * 2 ^ 16 + p.delay.toNat * 2 ^ 15 + p.slot * 2 ^ 12)

/-- The later of two producers and the other one, 04_cycles.md R100. -/
def laterOf (p q : Src) : Src × Src := if keyLt p.key q.key then (q, p) else (p, q)

/-- Raises a fault on core `c` against producer `p`: a landing's has source kind 2 and tick `t` (16_faults.md Table 16.2). -/
def State.raiseAt (s : State) (c : Nat) (code : FCode) (p : Src) (t : Nat) (w2 w3 : X) : State :=
  match p.rx with
  | some rx => s.raiseUnit c code 2 rx (BitVec.ofNat 64 (rx + 256 * p.head)) t
  | none => s.raiseOn c code p w2 w3

/-- An x register is about to be written by a producer in the cycle that ends; the waits that end with it look there for a
collision (04_cycles.md R100, R127). -/
def State.noteX (s : State) (c : Nat) (r : XReg) (p : Src) : State :=
  if r = 0 then s else s.modCore c fun k => { k with lastX := (r.toNat, k.xr r, p) :: k.lastX }

/-- Writes a wait's register at the end of w − 1, the cycle in hand; a write of the same register in that cycle is a
WRITE_COLLISION against the later producer, and neither performs (04_cycles.md R100, R127). -/
def State.waitWrite (s : State) (c : Nat) (x : Wait) (v : X) : State :=
  match x.xd with
  | none => s
  | some r =>
    if r = 0 then s
    else match (s.core c).lastX.find? fun e => e.1 == r.toNat with
      | none => (s.noteX c r x.src).apply (.x c r v)
      | some (_, old, q) =>
        let (late, other) := laterOf x.src q
        (s.modCore c fun k => { k with x := Table.put k.x r.toNat old }).raiseAt c .writeCollision late (s.tick - 1)
          (BitVec.ofNat 64 r.toNat) (collWord other)

/-- WAIT_END: the waits of the core in hand that end at the cycle about to begin; a syllable that waited to issue does so
in that cycle, and the next bundle follows when no wait is left (04_cycles.md R96). -/
def execWaitEnd (s : State) : Out :=
  let c := s.ctx.core
  let w := s.me.cyc + 1
  let (fin, left) := s.me.waits.partition fun x => decide (x.base ≤ w) && s.waitDone c x
  let s := s.modMe fun k => { k with waits := left }
  let s := fin.foldl (fun s x => s.waitWrite c x (s.waitValue c x)) s
  let ready := fin.flatMap fun x =>
    let ctx := { x.ctx with stall := 0, idx := 0, op := x.op, req := 0 }
    (if x.what == .room then [{ ctx := { ctx with idx := 1 }, instr := .bundleIssue : Work }] else []) ++
      (x.instr.map fun i => ({ ctx := ctx, instr := i } : Work)).toList
  ok (s.modMe fun k =>
    let k := { k with ready := k.ready ++ ready }
    if left.isEmpty && k.seq == .wait then { k with seq := .issue w } else k)

end Sys2Proof.Machine
end

