-- ==== Sys2Proof/Machine/Scalar.lean ====
section
/-! DEFINITION. The scalar instructions of 05_registers.md: arithmetic, moves, pool loads and stores, window reads and the
legacy stack. -/

namespace Sys2Proof.Machine

/-! ## Arithmetic, R140 to R143 -/

/-- ADD. -/
def execAdd (xd xa xb : XReg) (s : State) : Out := ok (s.deferX 0 xd (s.xr xa + s.xr xb))
/-- ADDI. -/
def execAddi (xd xa : XReg) (imm : BitVec 32) (s : State) : Out := ok (s.deferX 0 xd (s.xr xa + sext imm))
/-- SUB. -/
def execSub (xd xa xb : XReg) (s : State) : Out := ok (s.deferX 0 xd (s.xr xa - s.xr xb))
/-- SUBI. -/
def execSubi (xd xa : XReg) (imm : BitVec 32) (s : State) : Out := ok (s.deferX 0 xd (s.xr xa - sext imm))
/-- MUL. -/
def execMul (xd xa xb : XReg) (s : State) : Out := ok (s.deferX 2 xd (s.xr xa * s.xr xb))
/-- MULI. -/
def execMuli (xd xa : XReg) (imm : BitVec 32) (s : State) : Out := ok (s.deferX 2 xd (s.xr xa * sext imm))

/-- The high 64 bits of the product, 05_registers.md R140. -/
def mulHigh (nat : Bool) (a b : X) : X :=
  if nat then BitVec.ofNat 64 (a.toNat * b.toNat / 2 ^ 64) else BitVec.ofInt 64 (a.toInt * b.toInt / 2 ^ 64)

/-- MULH. -/
def execMulh (xd xa xb : XReg) (nat : Bool) (s : State) : Out := ok (s.deferX 2 xd (mulHigh nat (s.xr xa) (s.xr xb)))

/-- Quotient and remainder, 05_registers.md R141. -/
def divRem (nat : Bool) (a d : X) : X × X :=
  if d = 0 then (~~~ 0, a)
  else if nat then (BitVec.ofNat 64 (a.toNat / d.toNat), BitVec.ofNat 64 (a.toNat % d.toNat))
  else (BitVec.ofInt 64 (a.toInt.tdiv d.toInt), BitVec.ofInt 64 (a.toInt.tmod d.toInt))

/-- A zero divisor sets DIV0 at c0, 05_registers.md R137, R141. -/
def State.noteDiv0 (s : State) (d : X) : State := if d = 0 then s.defer 0 (.stat s.ctx.core 2) else s

/-- DIV. -/
def execDiv (xd xa xb : XReg) (nat : Bool) (s : State) : Out :=
  ok ((s.noteDiv0 (s.xr xb)).deferX 19 xd (divRem nat (s.xr xa) (s.xr xb)).1)
/-- REM. -/
def execRem (xd xa xb : XReg) (nat : Bool) (s : State) : Out :=
  ok ((s.noteDiv0 (s.xr xb)).deferX 19 xd (divRem nat (s.xr xa) (s.xr xb)).2)
/-- AND. -/
def execAnd (xd xa xb : XReg) (s : State) : Out := ok (s.deferX 0 xd (s.xr xa &&& s.xr xb))
/-- ANDI. -/
def execAndi (xd xa : XReg) (imm : BitVec 32) (s : State) : Out := ok (s.deferX 0 xd (s.xr xa &&& sext imm))
/-- OR. -/
def execOr (xd xa xb : XReg) (s : State) : Out := ok (s.deferX 0 xd (s.xr xa ||| s.xr xb))
/-- ORI. -/
def execOri (xd xa : XReg) (imm : BitVec 32) (s : State) : Out := ok (s.deferX 0 xd (s.xr xa ||| sext imm))
/-- XOR. -/
def execXor (xd xa xb : XReg) (s : State) : Out := ok (s.deferX 0 xd (s.xr xa ^^^ s.xr xb))
/-- XORI. -/
def execXori (xd xa : XReg) (imm : BitVec 32) (s : State) : Out := ok (s.deferX 0 xd (s.xr xa ^^^ sext imm))
/-- ANDN. -/
def execAndn (xd xa xb : XReg) (s : State) : Out := ok (s.deferX 0 xd (s.xr xa &&& ~~~ (s.xr xb)))

/-- The shift amount: the low six bits, 05_registers.md R140. -/
def shiftOf (b : X) : Nat := b.toNat % 64

/-- SHL. -/
def execShl (xd xa xb : XReg) (s : State) : Out := ok (s.deferX 0 xd (s.xr xa <<< shiftOf (s.xr xb)))
/-- SHLI. -/
def execShli (xd xa : XReg) (n : BitVec 6) (s : State) : Out := ok (s.deferX 0 xd (s.xr xa <<< n.toNat))
/-- SHR. -/
def execShr (xd xa xb : XReg) (s : State) : Out := ok (s.deferX 0 xd (s.xr xa >>> shiftOf (s.xr xb)))
/-- SHRI. -/
def execShri (xd xa : XReg) (n : BitVec 6) (s : State) : Out := ok (s.deferX 0 xd (s.xr xa >>> n.toNat))
/-- SHA. -/
def execSha (xd xa xb : XReg) (s : State) : Out := ok (s.deferX 0 xd ((s.xr xa).sshiftRight (shiftOf (s.xr xb))))
/-- SHAI. -/
def execShai (xd xa : XReg) (n : BitVec 6) (s : State) : Out := ok (s.deferX 0 xd ((s.xr xa).sshiftRight n.toNat))
/-- ROT, to the left. -/
def execRot (xd xa xb : XReg) (s : State) : Out := ok (s.deferX 0 xd ((s.xr xa).rotateLeft (shiftOf (s.xr xb))))
/-- ROTI. -/
def execRoti (xd xa : XReg) (n : BitVec 6) (s : State) : Out := ok (s.deferX 0 xd ((s.xr xa).rotateLeft n.toNat))

/-- a is less than b as NAT64 or INT64. -/
def lessX (nat : Bool) (a b : X) : Bool := if nat then a.ult b else a.slt b

/-- MIN. -/
def execMin (xd xa xb : XReg) (nat : Bool) (s : State) : Out :=
  ok (s.deferX 0 xd (if lessX nat (s.xr xb) (s.xr xa) then s.xr xb else s.xr xa))
/-- MAX. -/
def execMax (xd xa xb : XReg) (nat : Bool) (s : State) : Out :=
  ok (s.deferX 0 xd (if lessX nat (s.xr xa) (s.xr xb) then s.xr xb else s.xr xa))

/-- Leading zeros of the low `n` bits. -/
def leadZeros (n v : Nat) : Nat := if v % 2 ^ n = 0 then n else n - 1 - Nat.log2 (v % 2 ^ n)
/-- Number of one bits of the low `n` bits. -/
def popCount (n v : Nat) : Nat := ((List.range n).filter v.testBit).length
/-- The lowest one bit's place among the low `n` bits, `n` when there is none. -/
def lowBit (n v : Nat) : Nat := ((List.range n).find? v.testBit).getD n

/-- CLZ. -/
def execClz (xd xa : XReg) (s : State) : Out := ok (s.deferX 0 xd (BitVec.ofNat 64 (leadZeros 64 (s.xr xa).toNat)))
/-- CTZ. -/
def execCtz (xd xa : XReg) (s : State) : Out := ok (s.deferX 0 xd (BitVec.ofNat 64 (lowBit 64 (s.xr xa).toNat)))
/-- POPC. -/
def execPopc (xd xa : XReg) (s : State) : Out := ok (s.deferX 0 xd (BitVec.ofNat 64 (popCount 64 (s.xr xa).toNat)))

/-- The low `n` bits of a value, sign-extended when `sign`, as 64 bits. -/
def fieldOf (sign : Bool) (n v : Nat) : X := BitVec.ofInt 64 (intOf sign n (v % 2 ^ n))

/-- BFX, R142. -/
def execBfx (xd xa : XReg) (sign : Bool) (pos : BitVec 6) (len : BitVec 7) (s : State) : Out :=
  ok (s.deferX 0 xd (fieldOf sign len.toNat ((s.xr xa).toNat / 2 ^ pos.toNat)))
/-- BFI, R142. -/
def execBfi (xd xa : XReg) (pos : BitVec 6) (len : BitVec 7) (s : State) : Out :=
  let m : X := BitVec.ofNat 64 ((2 ^ len.toNat - 1) * 2 ^ pos.toNat)
  ok (s.deferX 0 xd ((s.xr xd &&& ~~~ m) ||| ((s.xr xa <<< pos.toNat) &&& m)))
/-- LI, R143. -/
def execLi (xd : XReg) (z : Bool) (imm : BitVec 32) (s : State) : Out :=
  ok (s.deferX 0 xd (if z then imm.setWidth 64 else sext imm))
/-- LIH, R143. -/
def execLih (xd : XReg) (imm : BitVec 32) (s : State) : Out := ok (s.deferX 0 xd (imm ++ bits (s.xr xd) 0 32))
/-- LEA, R143. -/
def execLea (xd xa xb : XReg) (k : BitVec 3) (imm : BitVec 32) (s : State) : Out :=
  ok (s.deferX 0 xd (s.xr xa + (s.xr xb <<< k.toNat) + sext imm))

/-! ## Pool loads and stores, R144 to R146 -/

/-- A value of `n` bytes, extended to 64 bits. -/
def extend (sign : Bool) (n v : Nat) : X := fieldOf sign (8 * n) v

/-- The access of `n` bytes at `a`: the core and offset, or `none` for POOL_BOUNDS at c0 (05_registers.md R146). -/
def State.access (s : State) (a : X) (n : Nat) : Option (Nat × Nat) :=
  match poolAddr s.ctx.core a with
  | none => none
  | some (c, o) =>
    if a.toNat % n ≠ 0 then none
    else if isVault a then (if s.sameRun s.ctx.core c && decide (o + n ≤ 0x180000) then some (c, o) else none)
    else if o + n ≤ s.me.carve.scrlim then some (c, o) else none

/-- A write of producer `p` at the end of the present cycle + `d` of its core, not an engine's. -/
def State.deferSrc (s : State) (p : Src) (d : Nat) (u : Upd) : State :=
  s.push { clk := s.clkOf p.core, due := (s.core p.core).cyc + d, upd := u, src := p }

/-- The FABRIC rail, which a vault access needs (14_time_power.md Table 14.4), is in retention. -/
def State.fabricDown (s : State) : Bool := !s.me.rails.getLsbD 3

/-- Starts a vault access of the syllable in hand: its sample or write falls `d` cycles after c0 (05_registers.md R144). What
R146 refuses at c0 comes before the FABRIC rail in retention (neither rule names an order; DESIGN CHOICE, log 25). -/
def State.vaultOp (s : State) (d : Nat) (o : Op) : State :=
  if s.fabricDown then s.raise .railDown 0 0
  else
    let (n, s) := s.newOp s.ctx.core { o with src := s.src }
    s.at s.ctx.core (s.me.cyc + d) { ctx := { core := s.ctx.core, op := n }, instr := .vaultSample }

/-- LD. -/
def execLd (xd xa : XReg) (sign : Bool) (size : BitVec 2) (imm : BitVec 32) (s : State) : Out :=
  let a := s.xr xa + sext imm
  let n := 2 ^ size.toNat
  match s.access a n with
  | none => ok (s.raise .poolBounds a 0)
  | some (c, o) =>
    if isVault a then
      ok (s.vaultOp (4 + hops s.ctx.core c)
        { instr := .ld xd xa sign size imm, cs := c, as := o, hs := hops s.ctx.core c, x0 := a, futX := [xd] })
    else if s.earlyPool s.src c o n then ok (s.raise .earlyRead 0 0)
    else ok (s.deferX 3 xd (extend sign n (ofLe (s.poolRead c o n))))

/-- ST. -/
def execSt (xa xb : XReg) (size : BitVec 2) (imm : BitVec 32) (s : State) : Out :=
  let a := s.xr xa + sext imm
  let n := 2 ^ size.toNat
  match s.access a n with
  | none => ok (s.raise .poolBounds a 0)
  | some (c, o) =>
    let bs := leBytes n (s.xr xb).toNat
    if isVault a then
      ok (s.vaultOp (3 + hops s.ctx.core c)
        { instr := .st xa xb size imm, cd := c, ad := o, hd := hops s.ctx.core c, buf := bs, x0 := a, fut := [(c, o, n)] })
    else ok (s.defer 0 (.pool c o (someBytes bs) false))

/-- LDK: a window element, R149. -/
def execLdk (xd xa : XReg) (sign : Bool) (w : BitVec 3) (imm : BitVec 32) (s : State) : Out :=
  match s.window w.toNat (s.xr xa + sext imm).toNat with
  | none => ok (s.raise .unboundWindow 0 0)
  | some (v, e, oob) =>
    ok ((if oob then s.defer 0 (.stat s.ctx.core 1) else s).deferX 3 xd (extend sign e v))

/-! ## The legacy stack, R155 -/

/-- The stack access `lo .. hi` with SPSTK at `sp` is refused, 05_registers.md R155. -/
def Core.stackBad (k : Core) (lo hi : Int) : Bool :=
  k.spstk.toNat % 8 != 0 || decide (lo < k.carve.scrlim) || decide ((k.carve.sb : Int) < hi)

/-- PUSHM. -/
def execPushm (f : XReg) (n : BitVec 6) (s : State) : Out :=
  let k := s.me
  let lo : Int := (k.spstk.toNat : Int) - 8 * n.toNat
  if k.stackBad lo k.spstk.toNat then ok (s.raise .poolBounds (k.spstk.setWidth 64) 0)
  else
    let bs := (xRange f n.toNat).flatMap fun r => leBytes 8 (s.xr r).toNat
    ok ((s.defer 0 (.pool s.ctx.core lo.toNat (someBytes bs) false)).defer 0 (.spstk s.ctx.core (BitVec.ofNat 21 lo.toNat)))

/-- POPM. -/
def execPopm (f : XReg) (n : BitVec 6) (s : State) : Out :=
  let k := s.me
  let sp := k.spstk.toNat
  if k.stackBad sp (sp + 8 * n.toNat) then ok (s.raise .poolBounds (k.spstk.setWidth 64) 0)
  else
    let vs := (xRange f n.toNat).zip (chunks 8 n.toNat (s.poolRead s.ctx.core sp (8 * n.toNat)))
    ok (vs.foldl (fun s v => s.deferX 3 v.1 (BitVec.ofNat 64 (ofLe v.2)))
      (s.defer 0 (.spstk s.ctx.core (BitVec.ofNat 21 (sp + 8 * n.toNat)))))

end Sys2Proof.Machine
end

