-- ==== Sys2Proof/Machine/Control.lean ====
section
/-! DEFINITION. Control and system instructions of 04_cycles.md: selects, compares, predicates, transfers, loops, special
registers, waits and the end of a task. -/

namespace Sys2Proof.Machine

/-- SEL, R121. -/
def execSel (xd xa xb : XReg) (pn : PReg) (s : State) : Out :=
  ok (s.deferX 0 xd (if s.me.pr pn then s.xr xa else s.xr xb))

/-- A compare condition, 04_cycles.md Table 4.4. -/
def condOf (c : Cond) (a b : X) : Bool :=
  match c with
  | .eq => a == b
  | .ne => a != b
  | .lt => a.slt b
  | .ge => b.sle a
  | .le => a.sle b
  | .gt => b.slt a
  | .ltn => a.ult b
  | .gen => b.ule a
  | .len => a.ule b
  | .gtn => b.ult a
  | .tst => a &&& b != 0
  | .ntst => a &&& b == 0

/-- CMP, R119. -/
def execCmp (c : Cond) (pd : PReg) (xa xb : XReg) (s : State) : Out := ok (s.deferP pd (condOf c (s.xr xa) (s.xr xb)))
/-- CMPI, R119. -/
def execCmpi (c : Cond) (pd : PReg) (xa : XReg) (imm : BitVec 32) (s : State) : Out :=
  ok (s.deferP pd (condOf c (s.xr xa) (sext imm)))
/-- PAND, R120. -/
def execPand (pd pa pb : PReg) (na nb : Bool) (s : State) : Out :=
  ok (s.deferP pd ((s.me.pr pa != na) && (s.me.pr pb != nb)))
/-- POR, R120. -/
def execPor (pd pa pb : PReg) (na nb : Bool) (s : State) : Out :=
  ok (s.deferP pd ((s.me.pr pa != na) || (s.me.pr pb != nb)))
/-- PXOR, R120. -/
def execPxor (pd pa pb : PReg) (na nb : Bool) (s : State) : Out :=
  ok (s.deferP pd ((s.me.pr pa != na) != (s.me.pr pb != nb)))
/-- PNOT, R120. -/
def execPnot (pd pa : PReg) (s : State) : Out := ok (s.deferP pd (!s.me.pr pa))
/-- PMOV, R120. -/
def execPmov (pd pa : PReg) (s : State) : Out := ok (s.deferP pd (s.me.pr pa))
/-- The predicates p15 .. p0 as bits, R120. -/
def Core.predBits (k : Core) : Nat :=
  ((List.range 16).map fun i => (k.pr (BitVec.ofNat 4 i)).toNat * 2 ^ i).foldl (· + ·) 0
/-- PMOV.get, R120. -/
def execPmovGet (xd : XReg) (s : State) : Out := ok (s.deferX 0 xd (BitVec.ofNat 64 s.me.predBits))
/-- PMOV.put, R120. -/
def execPmovPut (xa : XReg) (s : State) : Out :=
  ok ((List.range 15).foldl (fun t i => t.deferP (BitVec.ofNat 4 (i + 1)) ((s.xr xa).getLsbD (i + 1))) s)

/-! ## Transfers, R104, R117 -/

/-- Length in words of the bundle whose header word is `w`, 02_bundles.md R41. -/
def wordLen (w : W32) : Nat := 1 + 2 * popCount 7 w.toNat + (bits w 7 3).toNat

/-- The head word of the bundle after the second delay bundle, 04_cycles.md R117. -/
def State.linkOf (s : State) : Nat :=
  let h1 := s.ctx.head + s.ctx.len
  let h2 := h1 + wordLen (s.imemAt s.ctx.core h1).1
  h2 + wordLen (s.imemAt s.ctx.core h2).1

/-- BR. -/
def execBr (xa : XReg) (imm : BitVec 32) (s : State) : Out := ok (s.transfer (s.xr xa + sext imm).toNat)
/-- BRI. -/
def execBri (imm : BitVec 32) (s : State) : Out := ok (s.transfer (s.ctx.head + imm.toInt))
/-- CALL. -/
def execCall (xd xa : XReg) (imm : BitVec 32) (s : State) : Out :=
  ok ((s.deferX 0 xd (BitVec.ofNat 64 s.linkOf)).transfer (s.xr xa + sext imm).toNat)
/-- CALLI. -/
def execCalli (xd : XReg) (imm : BitVec 32) (s : State) : Out :=
  ok ((s.deferX 0 xd (BitVec.ofNat 64 s.linkOf)).transfer (s.ctx.head + imm.toInt))

/-! ## Loops, R109, R118 -/

/-- A count: the register as NAT64, at most 0xFFFF_FFFF. -/
def loopCount (v : X) : BitVec 32 := if v.toNat < 2 ^ 32 then bits v 0 32 else 0xFFFFFFFF

/-- Arms level `lv` with a count, an active count when padded, and the end offset (04_cycles.md R109, R118); in a
nullified iteration the level is padded and inactive (R112). -/
def State.armLoop (s : State) (lv : BitVec 3) (count : BitVec 32) (act : Option (BitVec 32)) (rot : Bool) (off : Nat) : State :=
  let c := s.ctx.core
  let e := s.ctx.head + off
  if !(decide (e < 32768) && (s.imemAt c e).2) then s.raise .badTarget 0 0
  else if 6 ≤ lv.toNat || (s.me.loopOf lv.toNat).active then s.raise .loopWrite 0 0
  else
    let pad := act.isSome || s.ctx.inNull || count == 0
    let la := if s.ctx.inNull || count == 0 then 0 else act.getD count
    s.defer 0 (.arm c lv.toNat
      { lc := count, la := la, lb := BitVec.ofNat 15 (s.ctx.head + s.ctx.len), le := BitVec.ofNat 15 e, active := true,
        padded := pad, rotate := rot, iter := 0 })

/-- LOOP. -/
def execLoop (lv : BitVec 3) (xa xb : XReg) (rot pad : Bool) (off : BitVec 32) (s : State) : Out :=
  ok (s.armLoop lv (loopCount (s.xr xa)) (if pad then some (loopCount (s.xr xb)) else none) rot off.toNat)
/-- LOOPI. -/
def execLoopi (lv : BitVec 3) (xb : XReg) (rot pad : Bool) (cnt off : BitVec 16) (s : State) : Out :=
  ok (s.armLoop lv (cnt.setWidth 32) (if pad then some (loopCount (s.xr xb)) else none) rot off.toNat)

/-! ## Special registers, R122 to R124 -/

/-- RDSR. -/
def execRdsr (xd : XReg) (i : BitVec 12) (s : State) : Out := ok (s.deferX 0 xd (s.readSr s.ctx.core i.toNat))

/-- A value that TSHAPEn or FTSEL refuses, 08_matrix.md R192, 03_numbers.md Table 3.9. -/
def srValueBad (i : Nat) (v : X) : Bool :=
  if i = 0x050 then v.getLsbD 8 && decide (6 ≤ (bits v 0 3).toNat)
  else decide (0x040 ≤ i) && decide (i < 0x050) &&
    (v.getLsbD 17 || (v.getLsbD 16 && decide (63 < (bits v 0 7).toNat)))

/-- A write of LBn or LEn of an active level, 04_cycles.md R115. -/
def Core.loopWriteBad (k : Core) (i : Nat) : Bool :=
  decide (0x020 ≤ i) && decide (i < 0x030) && (k.loopOf (i % 8)).active

/-- WRSR. -/
def execWrsr (xa : XReg) (i : BitVec 12) (s : State) : Out :=
  let v := s.xr xa
  if srValueBad i.toNat v then ok (s.raise .illegalEnc 0 0)
  else if s.me.loopWriteBad i.toNat then ok (s.raise .loopWrite 0 0)
  else ok (s.defer 0 (.sr s.ctx.core i v))

/-- WFLD, R124. -/
def execWfld (xd : XReg) (sign : Bool) (i : BitVec 3) (s : State) : Out :=
  let ds := ((s.runOf s.ctx.core).map (·.last.wid)).getD []
  let o := ((ds.take i.toNat).map (·.1)).foldl (· + ·) 0
  let w := (ds.getD i.toNat (0, 0)).1
  ok (s.deferX 0 xd (if w = 0 then 0 else fieldOf sign w (s.me.wid.toNat / 2 ^ o)))

/-! ## Waits and the end of a task -/

/-- WAIT, R127. -/
def execWait (k : WaitKind) (xd xa xb : XReg) (imm : BitVec 32) (s : State) : Out :=
  let g := s.xr xa + sext imm
  match k with
  | .lcyc => ok (s.hold (.lcyc g.toNat) (some xd) none)
  | .pcc => ok (s.hold (.pcc g.toNat) (some xd) none)
  | .tag =>
    if s.me.inScratch g 1 then ok (s.hold (.tag g.toNat (bits (s.xr xb) 0 16)) (some xd) none)
    else ok (s.raise .poolBounds g 0)

/-- TKWAIT, 05_registers.md R153. -/
def execTkwait (xd : XReg) (m : BitVec 8) (s : State) : Out := ok (s.hold (.tokens m) (some xd) none)

/-- NOP, 02_bundles.md R55. -/
def execNop (s : State) : Out := ok s
/-- VNOP. -/
def execVnop (s : State) : Out := .next s
/-- MNOP. -/
def execMnop (s : State) : Out := ok s
/-- ZNOP. -/
def execZnop (s : State) : Out := ok s
/-- CNOP. -/
def execCnop (s : State) : Out := ok s

/-- TRAP, R126. -/
def execTrap (code : BitVec 32) (s : State) : Out := ok (s.raise .softTrap (code.setWidth 64) 0)
/-- BRK, R126. -/
def execBrk (code : BitVec 32) (s : State) : Out := ok (s.raise .breakpoint (code.setWidth 64) 0)

/-- LENGTH_EXPIRY: TEND has not issued by s + L, 01_machine.md R20. -/
def execLengthExpiry (s : State) : Out := if s.me.inTask then ok (s.raiseTask .deviation 0 0) else ok s

/-- BUDGET_EXPIRY: TEND has not issued by s + B, 01_machine.md R19, or a wait beside it is still open then (06_vector.md R178). The
bound's run tick is that of the cycle. -/
def execBudgetExpiry (s : State) : Out :=
  if s.me.inTask || !s.me.waits.isEmpty then ok (s.raiseTask .deadline 0 (BitVec.ofNat 64 s.myRunTick)) else ok s

end Sys2Proof.Machine
end

