-- ==== Sys2Proof/Machine/Vector.lean ====
section
/-! DEFINITION. The arithmetic of the vector pipes: floating point, integers, compares and conversions (06_vector.md R162
to R168, R174). -/

namespace Sys2Proof.Machine

/-! ## Shared operations -/

/-- The active lanes' results with their flags; an inactive lane is not computed (06_vector.md R158). -/
def activeLanes (m : List Bool) (f : Nat → Nat × Fl) : List (Option Nat) × Fl :=
  let r := m.zipIdx.map fun e => if e.1 then some (f e.2) else none
  (r.map (·.map (·.1)), (r.filterMap (·.map (·.2))).foldl (· ||| ·) 0)

/-- Mask bits of the lanes of a type in the core in hand. -/
def State.lanesQ (s : State) (t : VTy) (q : QReg) : List Bool := maskBits t.lanes (s.me.qr q)

/-- Writes the active lanes' results and raises their flags at the end of c0 + `d`, 06_vector.md R157. -/
def State.putLanes (s : State) (d : Nat) (t : VTy) (vd : VReg) (q : QReg) (f : Nat → Nat × Fl) : State :=
  let (r, fl) := activeLanes (s.lanesQ t q) f
  (s.deferLanes d t vd r).deferFlags d fl

/-- A two-source form of latency d + 1. -/
def State.vbin (s : State) (d : Nat) (f : VBin) (g : Nat → Nat → Nat × Fl) : State :=
  s.withB f.t f.b fun s b =>
    let a := s.lanesV f.t f.va
    s.putLanes d f.t f.vd f.q fun i => g (a.getD i 0) (b.getD i 0)

/-- A three-source form of latency d + 1. -/
def State.vtri (s : State) (d : Nat) (f : VTri) (g : Nat → Nat → Nat → Nat × Fl) : State :=
  s.withB f.t f.b fun s b =>
    let a := s.lanesV f.t f.va
    let c := s.lanesV f.t f.vc
    s.putLanes d f.t f.vd f.q fun i => g (a.getD i 0) (b.getD i 0) (c.getD i 0)

/-- A one-source form of latency d + 1. -/
def State.vun (s : State) (d : Nat) (f : VUn) (g : Nat → Nat × Fl) : State :=
  let a := s.lanesV f.t f.va
  s.putLanes d f.t f.vd f.q fun i => g (a.getD i 0)

/-- FPMODE.RM of the core in hand. -/
def State.rm (s : State) : Rm := Rm.of s.me.rm

/-! ## Floating point, R162 to R165 -/

/-- An exact result of FP lanes, rounded once by FPMODE.RM, with the flags of its inputs (06_vector.md R162). -/
def fpRound (t : VTy) (rm : Rm) (ins : List Num) (r : Num × Fl) : Nat × Fl :=
  let (v, f) := (laneIeee t).enc rm false r.1
  (v, f ||| r.2 ||| sigFl ins)

/-- The exact value of an FP lane. -/
def fpNum (t : VTy) (v : Nat) : Num := (laneIeee t).dec v

/-- A + B. -/
def fpAdd (t : VTy) (rm : Rm) (a b : Nat) : Nat × Fl :=
  fpRound t rm [fpNum t a, fpNum t b] ((fpNum t a).add rm (fpNum t b))
/-- A − B. -/
def fpSub (t : VTy) (rm : Rm) (a b : Nat) : Nat × Fl :=
  fpRound t rm [fpNum t a, fpNum t b] ((fpNum t a).add rm (fpNum t b).neg)
/-- A x B. -/
def fpMul (t : VTy) (rm : Rm) (a b : Nat) : Nat × Fl :=
  fpRound t rm [fpNum t a, fpNum t b] ((fpNum t a).mul (fpNum t b))
/-- A x B + C with the product and the addend negated as asked, 06_vector.md Table 6.4. -/
def fpFma (t : VTy) (rm : Rm) (np nc : Bool) (a b c : Nat) : Nat × Fl :=
  let (p, f) := (fpNum t a).mul (fpNum t b)
  let z := fpNum t c
  let (v, g) := (if np then p.neg else p).add rm (if nc then z.neg else z)
  fpRound t rm [fpNum t a, fpNum t b, z] (v, f ||| g)

/-- FADD. -/
def execFadd (f : VBin) (s : State) : Out := ok (s.vbin 3 f (fpAdd f.t s.rm))
/-- FSUB. -/
def execFsub (f : VBin) (s : State) : Out := ok (s.vbin 3 f (fpSub f.t s.rm))
/-- FMUL. -/
def execFmul (f : VBin) (s : State) : Out := ok (s.vbin 3 f (fpMul f.t s.rm))
/-- FMA. -/
def execFma (f : VTri) (s : State) : Out := ok (s.vtri 3 f (fpFma f.t s.rm false false))
/-- FMS. -/
def execFms (f : VTri) (s : State) : Out := ok (s.vtri 3 f (fpFma f.t s.rm false true))
/-- FNMA. -/
def execFnma (f : VTri) (s : State) : Out := ok (s.vtri 3 f (fpFma f.t s.rm true false))

/-- x is less than y, −0 less than +0 (06_vector.md R163); neither is NaN. -/
def numLess (x y : Num) : Bool :=
  match x.cmp y with
  | some .lt => true
  | some .eq => x.isNeg && !y.isNeg
  | _ => false

/-- The lesser or greater lane, 06_vector.md R163. -/
def fpMinMax (t : VTy) (max_ : Bool) (a b : Nat) : Nat × Fl :=
  let x := fpNum t a
  let y := fpNum t b
  let v := if x.isNan then (if y.isNan then (laneIeee t).qnan else b)
    else if y.isNan then a
    else if max_ then (if numLess x y then b else a)
    else if numLess y x then b else a
  (v, sigFl [x, y])

/-- FMIN. -/
def execFmin (f : VBin) (s : State) : Out := ok (s.vbin 1 f (fpMinMax f.t false))
/-- FMAX. -/
def execFmax (f : VBin) (s : State) : Out := ok (s.vbin 1 f (fpMinMax f.t true))
/-- FABS: the sign bit is cleared. -/
def execFabs (f : VUn) (s : State) : Out := ok (s.vun 1 f fun a => (a % 2 ^ (f.t.bits - 1), 0))
/-- FNEG: the sign bit is inverted. -/
def execFneg (f : VUn) (s : State) : Out := ok (s.vun 1 f fun a => (a ^^^ 2 ^ (f.t.bits - 1), 0))

/-- A floating-point compare with its flags, 06_vector.md R164, Table 6.5. -/
def fpCond (c : VCond) (x y : Num) : Bool × Fl :=
  let o := x.cmp y
  let b := match c with
    | .eq => o == some .eq
    | .ne => o != some .eq
    | .lt => o == some .lt
    | .le => o == some .lt || o == some .eq
    | .gt => o == some .gt
    | .ge => o == some .gt || o == some .eq
    | .un => o.isNone
    | .ord => o.isSome
  let ordered := c == .lt || c == .le || c == .gt || c == .ge
  (b, (if ordered && o.isNone then nvF else 0) ||| sigFl [x, y])

/-- Writes a whole mask, the bits of inactive lanes 0, 06_vector.md R164. -/
def State.vcmp (s : State) (f : VCmp) (g : Nat → Nat → Bool × Fl) : State :=
  s.withB f.t f.b fun s b =>
    let a := s.lanesV f.t f.va
    let r := (s.lanesQ f.t f.q).zipIdx.map fun e => if e.1 then g (a.getD e.2 0) (b.getD e.2 0) else (false, 0)
    (s.defer 1 (.q s.ctx.core f.qd (ofBits (r.map (·.1))))).deferFlags 1 ((r.map (·.2)).foldl (· ||| ·) 0)

/-- FCMP. -/
def execFcmp (f : VCmp) (s : State) : Out := ok (s.vcmp f fun a b => fpCond f.cond (fpNum f.t a) (fpNum f.t b))

/-- A table function of a lane, rounded by FPMODE.RM (03_numbers.md R92, R93). -/
def State.vtab (s : State) (f : VUn) (g : Num → Num × Fl) : State :=
  s.vun 5 f fun a => fpRound f.t s.rm [] (g (fpNum f.t a))

/-- FRCP. -/
def execFrcp (f : VUn) (s : State) : Out := ok (s.vtab f frcpOf)
/-- FRSQ. -/
def execFrsq (f : VUn) (s : State) : Out := ok (s.vtab f frsqOf)
/-- FEXP2. -/
def execFexp2 (f : VUn) (s : State) : Out := ok (s.vtab f fexp2Of)
/-- FLOG2. -/
def execFlog2 (f : VUn) (s : State) : Out := ok (s.vtab f flog2Of)

/-! ## Integers, R166, R167 -/

/-- An integer form on the values read by type, wrapping. -/
def intOp (t : VTy) (g : Int → Int → Int) (a b : Nat) : Nat × Fl :=
  (wrapInt t.bits (g (intOf t.isSint t.bits a) (intOf t.isSint t.bits b)), 0)

/-- A clipping integer form, 06_vector.md R166. -/
def intClip (t : VTy) (g : Int → Int → Int) (a b : Nat) : Nat × Fl :=
  let (v, f) := clipInt t.isSint t.bits (g (intOf t.isSint t.bits a) (intOf t.isSint t.bits b))
  (wrapInt t.bits v, f)

/-- IADD. -/
def execIadd (f : VBin) (s : State) : Out := ok (s.vbin 1 f (intOp f.t (· + ·)))
/-- ISUB. -/
def execIsub (f : VBin) (s : State) : Out := ok (s.vbin 1 f (intOp f.t (· - ·)))
/-- IMUL. -/
def execImul (f : VBin) (s : State) : Out := ok (s.vbin 3 f (intOp f.t (· * ·)))
/-- IMULH. -/
def execImulh (f : VBin) (s : State) : Out := ok (s.vbin 3 f (intOp f.t fun a b => a * b / (2 ^ f.t.bits : Nat)))
/-- IMIN. -/
def execImin (f : VBin) (s : State) : Out := ok (s.vbin 1 f (intOp f.t min))
/-- IMAX. -/
def execImax (f : VBin) (s : State) : Out := ok (s.vbin 1 f (intOp f.t max))
/-- IABS. -/
def execIabs (f : VUn) (s : State) : Out := ok (s.vun 1 f fun a => intOp f.t (fun x _ => x.natAbs) a 0)
/-- VAND. -/
def execVand (f : VBin) (s : State) : Out := ok (s.vbin 1 f fun a b => (a &&& b, 0))
/-- VOR. -/
def execVor (f : VBin) (s : State) : Out := ok (s.vbin 1 f fun a b => (a ||| b, 0))
/-- VXOR. -/
def execVxor (f : VBin) (s : State) : Out := ok (s.vbin 1 f fun a b => (a ^^^ b, 0))
/-- VSHL. -/
def execVshl (f : VBin) (s : State) : Out :=
  ok (s.vbin 1 f fun a b => (if f.t.bits ≤ b then 0 else a * 2 ^ b % 2 ^ f.t.bits, 0))
/-- VSHR. -/
def execVshr (f : VBin) (s : State) : Out := ok (s.vbin 1 f fun a b => (if f.t.bits ≤ b then 0 else a / 2 ^ b, 0))
/-- VSHA. -/
def execVsha (f : VBin) (s : State) : Out :=
  ok (s.vbin 1 f fun a b => (wrapInt f.t.bits (intOf true f.t.bits a / (2 ^ min b f.t.bits : Nat)), 0))
/-- VPOPC. -/
def execVpopc (f : VUn) (s : State) : Out := ok (s.vun 1 f fun a => (popCount f.t.bits a, 0))
/-- VCLZ. -/
def execVclz (f : VUn) (s : State) : Out := ok (s.vun 1 f fun a => (leadZeros f.t.bits a, 0))

/-- An integer compare by type, 06_vector.md Table 6.5. -/
def intCond (c : VCond) (a b : Int) : Bool :=
  match c with
  | .eq => a == b
  | .ne => a != b
  | .lt => decide (a < b)
  | .le => decide (a ≤ b)
  | .gt => decide (b < a)
  | .ge => decide (b ≤ a)
  | .un => false
  | .ord => true

/-- ICMP. -/
def execIcmp (f : VCmp) (s : State) : Out :=
  ok (s.vcmp f fun a b => (intCond f.cond (intOf f.t.isSint f.t.bits a) (intOf f.t.isSint f.t.bits b), 0))
/-- IADDS. -/
def execIadds (f : VBin) (s : State) : Out := ok (s.vbin 1 f (intClip f.t (· + ·)))
/-- ISUBS. -/
def execIsubs (f : VBin) (s : State) : Out := ok (s.vbin 1 f (intClip f.t (· - ·)))

/-- VHASH, R174. -/
def execVhash (f : VBin) (s : State) : Out :=
  ok (s.vbin 3 f fun a b =>
    ((mix32 (BitVec.ofNat 32 a ^^^ (BitVec.ofNat 32 b * 0x9E3779B9))).toNat, 0))

/-! ## Conversion, R168 -/

/-- Draws of the stochastic generator that the bundle in hand has made so far, 03_numbers.md R83. -/
def State.drawsNow (s : State) (c : Nat) : Nat :=
  ((s.pend.filter fun w => match w.upd with
    | .srs d _ => d == c && w.due == (s.core c).cyc && w.clk == s.clkOf c
    | _ => false)).length

/-- The state the syllable in hand samples, and the generator's advance at the end of the cycle, 03_numbers.md R83. -/
def State.sampleSrs (s : State) (c : Nat) : BitVec 32 × State :=
  (srsIter (s.drawsNow c) (s.core c).srs,
   s.push { clk := s.clkOf c, due := (s.core c).cyc, upd := .srs c 1, src := { s.src with core := c } })

/-- The lanes of a conversion: source lane and destination lane of element `j`, 06_vector.md R168. -/
def cvtPlace (f : VCvt) (j : Nat) : Nat × Nat :=
  let e := 256 / max f.s.bytes f.d.bytes
  (if f.s.bytes < f.d.bytes then f.h.toNat * e + j else j, if f.d.bytes < f.s.bytes then f.h.toNat * e + j else j)

/-- CVT. -/
def execCvt (f : VCvt) (s : State) : Out :=
  let c := s.ctx.core
  let a := s.lanesV f.s f.va
  let (S, s) := if f.sr then s.sampleSrs c else (0, s)
  let entry := s.me.fmtNow
  let e := 256 / max f.s.bytes f.d.bytes
  let q := s.me.qr f.q
  let res := (List.range e).filterMap fun j =>
    if q.getLsbD j then
      let (si, di) := cvtPlace f j
      some (di, cvtLane f.s f.d entry (if f.sr then .sto (rndBits S di) else s.rm) f.sat (a.getD si 0))
    else none
  let first := (cvtPlace f 0).2
  let lanes := (List.range f.d.lanes).map fun i =>
    if first ≤ i ∧ i < first + e then (res.find? fun r => r.1 == i).map (·.2.1) else none
  ok ((s.deferLanes 2 f.d f.vd lanes).deferFlags 2 ((res.map (·.2.2)).foldl (· ||| ·) 0))

end Sys2Proof.Machine
end

