-- ==== Sys2Proof/Machine/VecMem.lean ====
section
/-! DEFINITION. The vector memory forms and the vault accesses of both scalar and vector forms (06_vector.md R175 to R179,
05_registers.md R144, R146, 12_order.md R290). -/

namespace Sys2Proof.Machine

/-- A 64-bit address from a base, an immediate and an offset. -/
def addrOf (b : X) (imm : BitVec 20) (off : Int) : X := b + imm.signExtend 64 + BitVec.ofInt 64 off

/-- Own-scratch offsets of lane addresses; `none` when one is out of scratch or misaligned (06_vector.md R176). -/
def State.ownLanes (s : State) (w : Nat) (as : List (Option X)) : Option (List (Option Nat)) :=
  if as.all fun a => match a with
    | some a => a.toNat % w == 0 && s.me.inScratch a w
    | none => true
  then some (as.map (·.map (·.toNat))) else none

/-- The address that word 2 of a POOL_BOUNDS record carries: that of the lowest-numbered refused lane (16_faults.md Table 16.3
names one address only; DESIGN CHOICE, log 27). -/
def State.badLane (s : State) (w : Nat) (as : List (Option X)) : X :=
  ((as.filterMap id).find? fun a => !(a.toNat % w == 0 && s.me.inScratch a w)).getD 0

/-- The values of a load's active lanes as written to its register. -/
def State.loadLanes (s : State) (c : Nat) (w : Nat) (os : List (Option Nat)) : List (Option Byte) :=
  os.flatMap fun o =>
    match o with
    | some a => (s.poolRead c a w).map some
    | none => List.replicate w none

/-- The pool writes of a store's active lanes: address and bytes, the highest-numbered lane of an address last
(06_vector.md R176). -/
def storeRuns (w : Nat) (os : List (Option Nat)) (ls : List Nat) : List (Nat × List Byte) :=
  let all := (List.zip os ls).filterMap fun e => e.1.map fun a => (a, leBytes w e.2)
  all.zipIdx.filterMap fun e => if (all.drop (e.2 + 1)).any fun f => f.1 == e.1.1 then none else some e.1

/-- Granules of the active lanes, by a byte address in each, in lane order. -/
def granules (w : Nat) (os : List (Option Nat)) : List Nat :=
  ((os.filterMap id).flatMap fun a => [a / 1024 * 1024, (a + w - 1) / 1024 * 1024]).eraseDups

/-- The granule that word 2 of a SCHED_TAG record names: of several that mismatch the first in lane order (16_faults.md Table
16.3 names one granule only; DESIGN CHOICE, log 27). -/
def State.badTag (s : State) (c : Nat) (gs : List Nat) (e : BitVec 16) : Option Nat := gs.find? fun g => !s.tagOk c g e

/-- Word 3 of a SCHED_TAG record, 16_faults.md Table 16.3. -/
def State.tagWord (s : State) (c g : Nat) (e : BitVec 16) : X := (s.tagAt c g ++ e).setWidth 64

/-- A load from own-pool lane addresses: EARLY_READ, then the sample and the register write at c0 + `d`. -/
def State.ownLoad (s : State) (d w : Nat) (vd : VReg) (os : List (Option Nat)) : State :=
  if (os.filterMap id).any fun a => s.earlyPool s.src s.ctx.core a w then s.raise .earlyRead 0 0
  else s.defer d (.pool s.ctx.core (s.me.vaddr vd) (s.loadLanes s.ctx.core w os) true)

/-- A tag-checked own-pool load: the load, SCHED_TAG, or the elastic wait for the tags (06_vector.md R178). -/
def State.taggedLoad (s : State) (i : Instr) (d w : Nat) (vd : VReg) (tc : Option XReg) (os : List (Option Nat)) : State :=
  match tc with
  | none => s.ownLoad d w vd os
  | some x =>
    let c := s.ctx.core
    let e := bits (s.xr x) 0 16
    match s.badTag c (granules w os) e with
    | none => s.ownLoad d w vd os
    | some g =>
      if s.me.elastic then
        let (n, s) := s.newOp c { src := { s.src with slot := s.ctx.slot.num }, instr := i, cs := c, tag := e, regs := granules w os,
                                  ad := s.me.vaddr vd, hs := d, hd := w, lanes := os }
        { s with ctx := { s.ctx with op := n } }.hold .tags none (some .vaultSample)
      else s.raise .schedTag (BitVec.ofNat 64 g) (s.tagWord c g e)

/-- A store to own-pool lane addresses at the end of c0 + `d`. -/
def State.ownStore (s : State) (d w : Nat) (vd : VReg) (os : List (Option Nat)) (t : VTy) : State :=
  (storeRuns w os (s.lanesV t vd)).foldl (fun s e => s.defer d (.pool s.ctx.core e.1 (someBytes e.2) false)) s

/-- Active lanes' addresses of VLD and VST, 06_vector.md R175. -/
def blockLanes (m : List Bool) (w : Nat) (o : Nat) : List (Option Nat) :=
  m.zipIdx.map fun e => if e.1 then some (o + e.2 * w) else none

/-- The place of a VLD or VST: the core, the lane offsets, and whether it is a vault's (06_vector.md R175). Without an active
lane nothing is checked, and the address only says whose timing applies; one that does not decode has the own pool's
(DEDUCED, log 28). -/
def State.vecPlace (s : State) (w : Nat) (a : X) (m : List Bool) : Option (Nat × List (Option Nat) × Bool) :=
  if !m.any id then
    match poolAddr s.ctx.core a with
    | none => some (s.ctx.core, m.map fun _ => none, false)
    | some (c, _) => some (c, m.map fun _ => none, isVault a)
  else match poolAddr s.ctx.core a with
    | none => none
    | some (c, o) =>
      let os := blockLanes m w o
      let lim := if isVault a then 0x180000 else s.me.carve.scrlim
      if a.toNat % w == 0 && (os.filterMap id).all (fun x => decide (x + w ≤ lim)) && (!isVault a || s.sameRun s.ctx.core c)
      then some (c, os, isVault a) else none

/-- VLD. -/
def execVld (f : VMem) (s : State) : Out :=
  let a := addrOf (s.xr f.xb) f.imm 0
  let w := f.t.bytes
  match s.vecPlace w a (s.lanesQ f.t f.q) with
  | none => ok (s.raise .poolBounds a 0)
  | some (_, os, false) => ok (s.taggedLoad (.vld f) 5 w f.vd f.tc os)
  | some (c, os, true) =>
    let h := hops s.ctx.core c
    let dst := s.me.vaddr f.vd
    let held := f.tc.isSome && s.me.elastic
    let n := s.nextOp
    let s := s.vaultOp (4 + h)
      { instr := .vld f, cs := c, hs := h, ad := dst, hd := w, x0 := a, lanes := os, tag := bits (s.xr (f.tc.getD 0)) 0 16,
        regs := granules w os, fut := if held then [] else [(s.ctx.core, dst, 256)] }
    ok (if held && s.nextOp != n then { s with ctx := { s.ctx with op := n } }.hold .vault none none else s)

/-- VST. -/
def execVst (f : VMem) (s : State) : Out :=
  let a := addrOf (s.xr f.xb) f.imm 0
  let w := f.t.bytes
  match s.vecPlace w a (s.lanesQ f.t f.q) with
  | none => ok (s.raise .poolBounds a 0)
  | some (_, os, false) => ok (s.ownStore 5 w f.vd os f.t)
  | some (c, os, true) =>
    let h := hops s.ctx.core c
    ok (s.vaultOp (5 + h)
      { instr := .vst f, cd := c, hd := w, x0 := a, lanes := os, buf := s.vreg f.vd,
        fut := (os.filterMap id).map fun o => (c, o, w) })

/-- Lane addresses from per-lane offsets. -/
def laneAddrs (m : List Bool) (b : X) (imm : BitVec 20) (off : Nat → Int) : List (Option X) :=
  m.zipIdx.map fun e => if e.1 then some (addrOf b imm (off e.2)) else none

/-- VLDS. -/
def execVlds (f : VStr) (s : State) : Out :=
  let as := laneAddrs (s.lanesQ f.t f.q) (s.xr f.xb) f.imm fun i => i * (s.xr f.xs).toInt
  match s.ownLanes f.t.bytes as with
  | none => ok (s.raise .poolBounds (s.badLane f.t.bytes as) 0)
  | some os => ok (s.ownLoad 5 f.t.bytes f.vd os)
/-- VSTS. -/
def execVsts (f : VStr) (s : State) : Out :=
  let as := laneAddrs (s.lanesQ f.t f.q) (s.xr f.xb) f.imm fun i => i * (s.xr f.xs).toInt
  match s.ownLanes f.t.bytes as with
  | none => ok (s.raise .poolBounds (s.badLane f.t.bytes as) 0)
  | some os => ok (s.ownStore 5 f.t.bytes f.vd os f.t)
/-- VGATH. -/
def execVgath (f : VGat) (s : State) : Out :=
  let ix := s.lanesV f.t f.va
  let as := laneAddrs (s.lanesQ f.t f.q) (s.xr f.xb) f.imm fun i => ix.getD i 0 * f.t.bytes
  match s.ownLanes f.t.bytes as with
  | none => ok (s.raise .poolBounds (s.badLane f.t.bytes as) 0)
  | some os => ok (s.taggedLoad (.vgath f) 11 f.t.bytes f.vd f.tc os)
/-- VSCAT. -/
def execVscat (f : VGat) (s : State) : Out :=
  let ix := s.lanesV f.t f.va
  let as := laneAddrs (s.lanesQ f.t f.q) (s.xr f.xb) f.imm fun i => ix.getD i 0 * f.t.bytes
  match s.ownLanes f.t.bytes as with
  | none => ok (s.raise .poolBounds (s.badLane f.t.bytes as) 0)
  | some os => ok (s.ownStore 11 f.t.bytes f.vd os f.t)

/-- VGATHK: window elements by lane, fitted to the lane (06_vector.md R179). -/
def execVgathk (f : VUn) (w : BitVec 3) (imm : BitVec 20) (s : State) : Out :=
  let ix := s.lanesV f.t f.va
  let read := fun i => s.window w.toNat (BitVec.ofNat 64 (ix.getD i 0) + imm.signExtend 64).toNat
  match s.window w.toNat 0 with
  | none => ok (s.raise .unboundWindow 0 0)
  | some _ =>
    let ls := (s.lanesQ f.t f.q).zipIdx.map fun e => if e.1 then read e.2 else none
    let s := if ls.any fun l => (l.map (·.2.2)).getD false then s.defer 0 (.stat s.ctx.core 1) else s
    ok (s.deferLanes 11 f.t f.vd (ls.map (·.map fun v => wrapInt f.t.bits (intOf f.t.isSint (8 * v.2.1) v.1))))

/-! ## Vault accesses -/

/-- An atomic operation on a value of `n` bits, 12_order.md Table 12.5: the new value. -/
def amolNew (op : AmolOp) (n : Nat) (o b d : Nat) : Nat :=
  let so := intOf true n o
  let sb := intOf true n b
  match op with
  | .swap => b
  | .add => (o + b) % 2 ^ n
  | .and => o &&& b
  | .or => o ||| b
  | .xor => o ^^^ b
  | .mins => if sb < so then b else o
  | .maxs => if so < sb then b else o
  | .minn => min o b
  | .maxn => max o b
  | .cas => if o = d then b else o

/-- A byte of the access reaches the SCRLIM in force on core `c`, 05_registers.md R146. -/
def State.overLim (s : State) (c : Nat) (os : List Nat) (w : Nat) : Bool :=
  os.any fun o => decide ((s.core c).carve.scrlim < o + w)

/-- The core a vault store or AMOL writes to, and its runs of bytes. -/
def State.vaultRuns (s : State) (o : Op) : Nat × List (Nat × List Byte) :=
  match o.instr with
  | .st .. => (o.cd, [(o.ad, o.buf)])
  | .vst f => (o.cd, storeRuns o.hd o.lanes (lanesOf f.t.bytes o.buf))
  | .amol op _ _ _ w8 _ =>
    let n := if w8 then 8 else 4
    let old := ofLe (s.poolRead o.cs o.as n)
    (o.cs, [(o.as, leBytes n (amolNew op (8 * n) old (o.x1.toNat % 2 ^ (8 * n)) (o.mask.toNat % 2 ^ (8 * n))))])
  | _ => (0, [])

/-- A vault store or AMOL of a recovery task that has ended by THAW performs at the end of the present tick; one that would have
failed, the task being over, writes nothing (16_faults.md R365). -/
def State.lateStore (s : State) : State :=
  let o := s.myOp
  let (d, rs) := s.vaultRuns o
  let s := s.setOp s.ctx.core s.ctx.op none
  if rs.any (fun e => s.overLim d [e.1] e.2.length) || !(s.core d).rails.getLsbD 2 then s
  else rs.foldl (fun s e => s.deferTick { o.src with eng := true } s.tick (.pool d e.1 (someBytes e.2) false)) s

/-- VAULT_SAMPLE: the vault access of the operation in hand samples or writes core c's bytes, judged by the SCRLIM and the
SRAM rail in force there (05_registers.md R146, 14_time_power.md R322); a store into another core's pool is judged by its rail where
it performs. An own-pool operation is a tag-checked load whose
tags have come (06_vector.md R178). Of several faults at the sample POOL_BOUNDS comes first, then RAIL_DOWN, SCHED_TAG and
EARLY_READ (R146 names no order; DESIGN CHOICE, log 25). A tag-checked vault load whose wait has ended in DEADLINE goes on to check
its tags until the freeze and may still write its register (R178 does not say; DESIGN CHOICE, log 28). Index 4 of the context marks a store of a recovery task that is over. -/
def execVaultSample (s : State) : Out :=
  if s.ctx.idx = 4 then ok s.lateStore
  else
  let c := s.ctx.core
  let o := s.myOp
  let p := o.src
  let fin := fun (s : State) => s.setOp c s.ctx.op none
  let fail := fun (f : FCode) (w2 w3 : X) => ok ((fin s).raiseOn c f p w2 w3)
  let down := fun d => d != c && !(s.core d).rails.getLsbD 2
  match o.instr with
  | .ld xd _ sign size _ =>
    let n := 2 ^ size.toNat
    if s.overLim o.cs [o.as] n then fail .poolBounds o.x0 0
    else if down o.cs then fail .railDown 0 0
    else if s.earlyPool p o.cs o.as n then fail .earlyRead 0 0
    else ok ((fin s).deferSrc p (3 + o.hs) (.x c xd (extend sign n (ofLe (s.poolRead o.cs o.as n)))))
  | .st _ _ _ _ =>
    if s.overLim o.cd [o.ad] o.buf.length then fail .poolBounds o.x0 0
    else if o.cd = c && !s.me.rails.getLsbD 2 then fail .railDown 0 0
    else ok ((fin s).deferSrc p 0 (.pool o.cd o.ad (someBytes o.buf) false))
  | .vld f =>
    let os := o.lanes.filterMap id
    if f.tc.isSome && o.cs == c && o.hs == 5 && o.x0 == 0 then
      (if os.any fun a => s.earlyPool p c a o.hd then fail .earlyRead 0 0
       else ok ((fin s).deferSrc p 5 (.pool c o.ad (s.loadLanes c o.hd o.lanes) true)))
    else if s.overLim o.cs os o.hd then fail .poolBounds o.x0 0
    else if !os.isEmpty && down o.cs then fail .railDown 0 0
    else
      match (if f.tc.isSome then s.badTag o.cs o.regs o.tag else none) with
      | some g =>
        if s.me.elastic then ok (s.at c (s.me.cyc + 1) { ctx := { core := c, op := s.ctx.op }, instr := .vaultSample })
        else fail .schedTag (BitVec.ofNat 64 g) (s.tagWord o.cs g o.tag)
      | none =>
        if os.any fun a => s.earlyPool p o.cs a o.hd then fail .earlyRead 0 0
        else
          let s := (fin s).deferSrc p (3 + o.hs) (.pool c o.ad (s.loadLanes o.cs o.hd o.lanes) true)
          ok (s.modMe fun k => { k with waits := k.waits.map fun w =>
            if w.op = s.ctx.op && w.what == .vault then { w with ans := some 0 } else w })
  | .vst f =>
    let os := o.lanes.filterMap id
    if s.overLim o.cd os o.hd then fail .poolBounds o.x0 0
    else if !os.isEmpty && o.cd = c && !s.me.rails.getLsbD 2 then fail .railDown 0 0
    else ok ((storeRuns o.hd o.lanes (lanesOf f.t.bytes o.buf)).foldl
      (fun s e => s.deferSrc p 0 (.pool o.cd e.1 (someBytes e.2) false)) (fin s))
  | .vgath _ =>
    if (o.lanes.filterMap id).any fun a => s.earlyPool p c a o.hd then fail .earlyRead 0 0
    else ok ((fin s).deferSrc p 11 (.pool c o.ad (s.loadLanes c o.hd o.lanes) true))
  | .amol op xd _ _ w8 _ =>
    let n := if w8 then 8 else 4
    let s := s.setOp c s.ctx.op (some { o with fut := [] })
    if s.overLim o.cs [o.as] n then fail .poolBounds o.x0 0
    else if down o.cs then fail .railDown 0 0
    else if s.earlyPool p o.cs o.as n then fail .earlyRead 0 0
    else
      let old := ofLe (s.poolRead o.cs o.as n)
      let new := amolNew op (8 * n) old (o.x1.toNat % 2 ^ (8 * n)) (o.mask.toNat % 2 ^ (8 * n))
      let s := s.deferSrc p 0 (.amol o.cs o.as (someBytes (leBytes n new)) s.ctx.op)
      if s.me.elastic then ok (s.setOp c s.ctx.op (some { o with fut := [], x1 := o.x1, buf := leBytes 8 old }))
      else ok ((fin s).deferSrc p (3 + o.hs) (.x c xd (BitVec.ofNat 64 old)))
  | _ => ok (fin s)

end Sys2Proof.Machine
end

