-- ==== Sys2Proof/Machine/Matrix.lean ====
section
/-! DEFINITION. The matrix array, the tile mover, the scale slot and the follow-on commands (08_matrix.md, 03_numbers.md
R89, R90). -/

namespace Sys2Proof.Machine

/-! ## Shapes and units -/

/-- Rows, columns and element size of TSHAPE, 08_matrix.md Table 8.1. -/
def shapeOf (v : BitVec 18) : Nat × Nat × Nat := ((bits v 8 7).toNat + 1, (bits v 0 7).toNat + 1, (bits v 16 2).toNat + 1)

/-- The array is busy, R193. -/
def Core.arrayBusy (k : Core) : Bool := decide (k.cyc < k.arrayFree)
/-- The tile mover is busy, R193. -/
def Core.moverBusy (k : Core) : Bool := decide (k.cyc < k.moverFree)

/-- The syllable in hand takes the array for `n` cycles. -/
def State.takeArray (s : State) (n : Nat) : State := s.modMe fun k => { k with arrayFree := k.cyc + n, arraySrc := s.src }
/-- The syllable of producer `p` takes the tile mover for `n` cycles. -/
def State.takeMoverBy (s : State) (p : Src) (n : Nat) : State := s.modMe fun k => { k with moverFree := k.cyc + n, moverSrc := p }
/-- The syllable in hand takes the tile mover for `n` cycles. -/
def State.takeMover (s : State) (n : Nat) : State := s.takeMoverBy s.src n

/-- A mover form: the busy check and the occupancy of a nullified syllable, else the form itself (R193). -/
def State.onMover (s : State) (n : Nat) (go : State → State) : State :=
  if s.me.moverBusy then s.raise .arrayCollision 0 0 else if s.ctx.exec then go s else s.takeMover n

/-- The 512-byte groups of `n` x 512 bytes from an address, for the scoreboard of R194. -/
def groups512 (c a n : Nat) : List (Nat × Nat × Nat) := (List.range n).map fun g => (c, a + 512 * g, 512)

/-- Starts a mover operation: it holds the mover for `n` cycles and runs its groups from the present cycle. -/
def State.startMover (s : State) (n : Nat) (o : Op) : State :=
  let (i, s) := s.newOp s.ctx.core { o with src := s.src, st := some s.me.cyc }
  (s.takeMover n).at s.ctx.core s.me.cyc { ctx := { core := s.ctx.core, op := i, idx := 0 }, instr := .tileMoverGroup }

/-! ## MMA and MMAT, R197 -/

/-- The row that `b` multiplies: K is cols(ta), N is cols(tb) for MMA and rows(tb) for MMAT. -/
def mmaShape (mmat : Bool) (a b : BitVec 18) : Nat × Nat × Nat :=
  ((shapeOf a).1, (shapeOf a).2.1, if mmat then (shapeOf b).1 else (shapeOf b).2.1)

/-- The shapes break the rules of R197. -/
def mmaBad (mmat bf : Bool) (a b : BitVec 18) : Bool :=
  let k := (shapeOf a).2.1
  let e := if bf then 2 else 1
  (shapeOf a).2.2 != e || (shapeOf b).2.2 != e || (if mmat then (shapeOf b).2.1 else (shapeOf b).1) != k ||
    k % (if bf then 16 else 32) != 0

/-- Issues MMA or MMAT: the busy check, the shape checks, and the operation with its samples. -/
def State.issueMma (s : State) (i : Instr) (mmat : Bool) (aD : BitVec 3) (ta tb : BitVec 4) (bf : Bool) : State :=
  let k := s.me
  let c := if bf then 4 else 1
  let a := k.shape ta.toNat
  let b := k.shape tb.toNat
  let kk := (shapeOf a).2.1
  if k.arrayBusy then s.raise .arrayCollision 0 0
  else if !s.ctx.exec then s.takeArray (c * kk)
  else if mmaBad mmat bf a b then s.raise .illegalEnc 0 0
  else
    let (n, s) := s.newOp s.ctx.core
      { src := s.src, instr := i, st := some k.cyc, as := k.taddr ta, ad := k.taddr tb, regs := [k.aaddr aD], shA := a, shB := b,
        fmt := k.fmtNow, fut := [(s.ctx.core, k.aaddr aD, 512 * (shapeOf a).1)] }
    (s.takeArray (c * kk)).at s.ctx.core s.me.cyc { ctx := { core := s.ctx.core, op := n, idx := 0 }, instr := .arraySample }

/-- MMA. -/
def execMma (aD : BitVec 3) (ta tb : BitVec 4) (bf z : Bool) (s : State) : Out :=
  ok (s.issueMma (.mma aD ta tb bf z) false aD ta tb bf)
/-- MMAT. -/
def execMmat (aD : BitVec 3) (ta tb : BitVec 4) (bf z : Bool) (s : State) : Out :=
  ok (s.issueMma (.mmat aD ta tb bf z) true aD ta tb bf)

/-- What the syllable of an array operation says: MMAT, BF16, zero-start. -/
def mmaVar : Instr → Bool × Bool × Bool
  | .mma _ _ _ bf z => (false, bf, z)
  | .mmat _ _ _ bf z => (true, bf, z)
  | _ => (false, false, false)

/-- The bytes of elements (i, k), i = 0 .. n − 1, of the tile at `b` with element size `e`. -/
def State.tileCol (s : State) (c b e n k : Nat) : List Byte := (List.range n).flatMap fun i => s.poolRead c (b + 128 * i + k * e) e

/-- A pending write of a scale latch, for EARLY_READ (R194). -/
def State.pendingLatch (s : State) (c : Nat) : Bool :=
  s.pend.any fun w => decide (w.src.tick < s.tick) && match w.upd with
    | .latchA d _ _ => d == c
    | .latchB d _ _ => d == c
    | _ => false

/-- A unit's sample of its own core's pool bytes reads a location with a pending write of another operation, R194. -/
def State.earlyUnit (s : State) (p : Src) (c a n : Nat) : Bool := (s.core c).early && s.pendingPool (some p) c a n

/-- The row groups that hold `n` rows from row `r` of a tile. -/
def rowGroups (b r n : Nat) : Nat × Nat := (b + 512 * (r / 4), 512 * ((r + n + 3) / 4 - r / 4))

/-- ARRAY_SAMPLE k: column k of ta and row or column k of tb; at a block's first k the scale latches and table; at the
second block's first k the accumulator (R197, R204). -/
def execArraySample (s : State) : Out :=
  let c := s.ctx.core
  let o := s.myOp
  let k := s.ctx.idx
  let (mmat, bf, z) := mmaVar o.instr
  let (m, kk, n) := mmaShape mmat o.shA o.shB
  let e := if bf then 2 else 1
  let kb := if bf then 16 else 32
  let aD := o.regs.headD 0
  let mode := bits o.fmt 19 2
  let ga := rowGroups o.as 0 m
  let gb := if mmat then rowGroups o.ad 0 n else rowGroups o.ad k 1
  let tiles := decide (k < kk)
  let scales := tiles && k % kb == 0 && mode != 0
  let acc := k == kb && !z
  let early := (tiles && (s.earlyUnit o.src c ga.1 ga.2 || s.earlyUnit o.src c gb.1 gb.2)) ||
    (scales && s.me.early && s.pendingLatch c) || (acc && s.earlyUnit o.src c aD (512 * m))
  let col := s.tileCol c o.as e m k
  let row := if mmat then s.tileCol c o.ad e n k else s.poolRead c (o.ad + 128 * k) (n * e)
  let o := if tiles then { o with cols := (col, row) :: o.cols } else o
  let o := if scales then
      { o with latches := o.latches ++ [(s.me.latchA, s.me.latchB, (List.range 16).map s.me.scaleOf)] }
    else o
  let o := if acc then
      { o with accs := (List.range m).flatMap fun i =>
          (chunks 4 n (s.poolRead c (aD + 512 * i) (4 * n))).map fun b => BitVec.ofNat 32 (ofLe b) }
    else o
  let src := o.src
  let s := s.setOp c s.ctx.op (some o)
  let s := if tiles then s.at c (s.me.cyc + (if bf then 4 else 1)) { ctx := { s.ctx with idx := k + 1 }, instr := .arraySample }
    else s.at c (s.me.cyc + 3) { ctx := s.ctx, instr := .mmaResultWrite }
  ok (if early then s.raiseOp .earlyRead src 0 else s)

/-- The exact sum of a block's products, −0 only when every product is −0 (03_numbers.md R90). -/
def blockSum (as bs : List Num) : Num × Fl :=
  (List.zip as bs).foldl (fun t e =>
    let p := e.1.mul e.2
    let r := t.1.add .rne p.1
    (r.1, t.2 ||| p.2 ||| r.2)) (.fin true 0 0, 0)

/-- A rounding of the chain to FP32, with its value, saturating finite values when `sat` (03_numbers.md R90). -/
def rnd32 (sat : Bool) (x : Num) : Nat × Num × Fl :=
  let (b, f) := fp32.enc .rne sat x
  (b, fp32.dec b, f)

/-- The accumulator's rounding: FP32, or BF16 with the low 16 bits zero. -/
def rndAcc (half sat : Bool) (x : Num) : Nat × Num × Fl :=
  if half then
    let (b, f) := bf16.enc .rne sat x
    (b * 65536, bf16.dec b, f)
  else rnd32 sat x

/-- The flag of a NaN in the chain, 03_numbers.md R90. -/
def nanFl (x : Num) : Fl := if x.isNan then nvF else 0

/-- One element's chain over its blocks, each with its operands and its two scales (03_numbers.md R90). -/
def mmaChain (half sat : Bool) (acc : Nat) : List (List Num × List Num × Option (Num × Num)) → Nat × Fl
  | [] => (acc, nanFl (fp32.dec acc))
  | (as, bs, sc) :: r =>
    let (t, f0) := blockSum as bs
    let (_, s1, f1) := rnd32 sat t
    let (s2, f2) := match sc with
      | none => (s1, 0)
      | some (x, y) =>
        let (p, g) := s1.mul x
        let (q, h) := p.mul y
        let (_, v, i) := rnd32 sat q
        (v, g ||| h ||| i)
    let (u, f3) := (fp32.dec acc).add .rne s2
    let (b, v, f4) := rndAcc half sat u
    let (w, f5) := mmaChain half sat b r
    (w, f0 ||| f1 ||| f2 ||| f3 ||| f4 ||| nanFl v ||| f5)

/-- The scale of index position `i` of a latch, 03_numbers.md R89, 08_matrix.md R203. -/
def scaleAt (l : BitVec 512) (tab : List (BitVec 16)) (i : Nat) : Num :=
  bf16.dec (tab.getD (l.toNat / 16 ^ i % 16) 0x3F80).toNat

/-- The elements of a list's bytes as exact values: BF16, or binary8 of a format code. -/
def elemNums (bf : Bool) (code : BitVec 5) (bs : List Byte) : List Num :=
  if bf then (lanesOf 2 bs).map bf16.dec else bs.map fun b => b8dec code b.toNat

/-- Rows become columns. -/
def transpose_ (n : Nat) (l : List (List Num)) : List (List Num) :=
  (List.range n).map fun i => l.map fun r => r.getD i (.nan false)

/-- The accumulator rows of an array operation, with the flags of all chains. -/
def mmaResult (o : Op) : List (List (Nat × Fl)) :=
  let (mmat, bf, z) := mmaVar o.instr
  let (m, kk, n) := mmaShape mmat o.shA o.shB
  let kb := if bf then 16 else 32
  let cs := o.cols.reverse
  let as := transpose_ m (cs.map fun c => elemNums bf (bits o.fmt 0 5) c.1)
  let bs := transpose_ n (cs.map fun c => elemNums bf (bits o.fmt 5 5) c.2)
  let nb := kk / kb
  as.zipIdx.map fun a => bs.zipIdx.map fun b =>
    let blocks := (List.range nb).map fun t =>
      let sc := (o.latches[t]?).map fun l => (scaleAt l.1 l.2.2 a.2, scaleAt l.2.1 l.2.2 b.2)
      ((a.1.drop (t * kb)).take kb, (b.1.drop (t * kb)).take kb, sc)
    mmaChain (o.fmt.getLsbD 15) (o.fmt.getLsbD 18) (if z then 0 else (o.accs.getD (a.2 * n + b.2) 0).toNat) blocks

/-- The bytes of an accumulator's rows, elements outside M x N kept (R197). -/
def mmaBytes (r : List (List (Nat × Fl))) : List (Option Byte) :=
  r.flatMap fun row =>
    let l := row.flatMap fun e => someBytes (leBytes 4 e.1)
    l ++ List.replicate (512 - l.length) none

/-- MMA_RESULT_WRITE: the result and its flags are written at the end of c0 + O + 3, R197. -/
def execMmaResultWrite (s : State) : Out :=
  let c := s.ctx.core
  let o := s.myOp
  let r := mmaResult o
  let fl := (r.flatMap fun row => row.map (·.2)).foldl (· ||| ·) 0
  let s := s.modCore c fun k => { k with lastMma := some o }
  let s := (s.setOp c s.ctx.op none).deferOp o.src 0 (.acc c (o.regs.headD 0) 0 (mmaBytes r))
  ok (if fl = 0 then s else s.deferOp o.src 0 (.flags c fl))

/-! ## The tile mover, R199 to R201 -/

/-- Writes a tile row group at the end of c0 + `d`: groups collide as wholes (08_matrix.md R194). -/
def State.deferGroup (s : State) (d a : Nat) (bs : List (Option Byte)) : State := s.defer d (.pool s.ctx.core a bs true)

/-- MZERO. -/
def execMzero (tile : Bool) (d : BitVec 4) (s : State) : Out :=
  ok (s.onMover 1 fun s =>
    let c := s.ctx.core
    let z := fun n => List.replicate n (some (0 : Byte))
    let s := s.takeMover 1
    let a := s.me.taddr d
    if tile then (List.range 32).foldl (fun s g => s.deferGroup 1 (a + 512 * g) (z 512)) s
    else s.defer 1 (.acc c (s.me.aaddr (bits d 0 3)) 0 (z 65536)))

/-- The address of a pool form, `none` for POOL_BOUNDS; with it the address itself (R199). -/
def State.moverAddr (s : State) (xb : BitVec 4) (imm : BitVec 32) (n : Nat) : X × Bool :=
  let a := s.xr (0#1 ++ xb) + sext imm
  (a, a.toNat % 128 == 0 && s.me.inScratch a n)

/-- MLD; the tag check raises SCHED_TAG in a locked phase and waits in an elastic one (R200). -/
def execMld (tD : BitVec 4) (tc : Option (BitVec 4)) (xb : BitVec 4) (imm : BitVec 32) (s : State) : Out :=
  ok (s.onMover 32 fun s =>
    let c := s.ctx.core
    let k := s.me
    let (a, good) := s.moverAddr xb imm 16384
    if !good then s.raise .poolBounds a 0
    else
      let o : Op := { instr := .mld tD tc xb imm, as := a.toNat, ad := k.taddr tD, fut := groups512 c (k.taddr tD) 32 }
      match tc with
      | none => s.startMover 32 o
      | some t =>
        let e := bits (s.xr (0#1 ++ t)) 0 16
        let gs := (List.range 17).filterMap fun i =>
          let g := a.toNat / 1024 * 1024 + 1024 * i
          if g < a.toNat + 16384 then some g else none
        match s.badTag c gs e with
        | none => s.startMover 32 o
        | some g =>
          if k.elastic then
            let (n, s) := s.newOp c { o with src := s.src, cs := c, tag := e, regs := gs, fut := [] }
            { s with ctx := { s.ctx with op := n } }.hold .tags none (some .tileMoverGroup)
          else s.raise .schedTag (BitVec.ofNat 64 g) (s.tagWord c g e))

/-- MST. -/
def execMst (ta xb : BitVec 4) (imm : BitVec 32) (s : State) : Out :=
  ok (s.onMover 32 fun s =>
    let (a, good) := s.moverAddr xb imm 16384
    if !good then s.raise .poolBounds a 0
    else s.startMover 32
      { instr := .mst ta xb imm, as := s.me.taddr ta, ad := a.toNat, fut := groups512 s.ctx.core a.toNat 32 })

/-- MLDA. -/
def execMlda (aD : BitVec 3) (xb : BitVec 4) (imm : BitVec 32) (s : State) : Out :=
  ok (s.onMover 128 fun s =>
    let (a, good) := s.moverAddr xb imm 65536
    if !good then s.raise .poolBounds a 0
    else s.startMover 128
      { instr := .mlda aD xb imm, as := a.toNat, ad := s.me.aaddr aD, fut := groups512 s.ctx.core (s.me.aaddr aD) 128 })

/-- MACS. -/
def execMacs (xb : BitVec 4) (aS : BitVec 3) (imm : BitVec 32) (s : State) : Out :=
  ok (s.onMover 128 fun s =>
    let (a, good) := s.moverAddr xb imm 65536
    if !good then s.raise .poolBounds a 0
    else s.startMover 128
      { instr := .macs xb aS imm, as := s.me.aaddr aS, ad := a.toNat, fut := groups512 s.ctx.core a.toNat 128 })

/-- MTRN: ta is sampled whole at issue, R199. -/
def execMtrn (tD ta : BitVec 4) (s : State) : Out :=
  ok (s.onMover 32 fun s =>
    let c := s.ctx.core
    let k := s.me
    let a := k.shape ta.toNat
    let d := k.shape tD.toNat
    let (r, n, e) := shapeOf a
    if (shapeOf d).1 != n || (shapeOf d).2.1 != r || (shapeOf d).2.2 != e then s.raise .illegalEnc 0 0
    else if s.earlyUnit s.src c (k.taddr ta) 16384 then s.raise .earlyRead 0 0
    else s.startMover 32
      { instr := .mtrn tD ta, ad := k.taddr tD, shA := a, buf := s.poolRead c (k.taddr ta) 16384,
        fut := groups512 c (k.taddr tD) ((n + 3) / 4) })

/-- MCVT: the scale, the entry and the shape are those of the issue; SRSTATE is sampled with the first group, after the
V0, V1 and M syllables of that cycle (R201, R206, 03_numbers.md R83). -/
def execMcvt (tD : BitVec 4) (aS : BitVec 3) (bf h : Bool) (sc : BitVec 4) (s : State) : Out :=
  ok (s.onMover 128 fun s =>
    let c := s.ctx.core
    let k := s.me
    let d := k.shape tD.toNat
    if (shapeOf d).2.2 != (if bf then 2 else 1) then s.raise .illegalEnc 0 0
    else s.startMover 128
      { instr := .mcvt tD aS bf h sc, as := k.aaddr aS, ad := k.taddr tD, shD := d, fmt := k.fmtNow,
        mask := (k.scaleOf sc.toNat).setWidth 256,
        fut := (List.range (shapeOf d).1).map fun g => (c, (rowGroups (k.taddr tD) g 1).1, 512) })

/-- One element of MCVT, R201. -/
def mcvtElem (fmt : BitVec 32) (bf : Bool) (sc srs : BitVec 32) (e a : Nat) : Nat × Fl :=
  let x := fp32.dec a
  let y := bf16.dec (bits sc 0 16).toNat
  let sat := fmt.getLsbD 18
  let (p, f0) := x.mul y
  let (_, v, f1) := rnd32 sat p
  let rm : Rm := if bits fmt 16 2 = 0 then .rne else if bits fmt 16 2 = 1 then .rtz else .sto (rndBits srs e)
  let (r, f2) := if bf then bf16.enc .rne sat v else b8enc (bits fmt 10 5) rm sat v
  (r, f0 ||| f1 ||| f2 ||| sigFl [x, y])

/-- Group `g` of MTRN: rows 4g .. 4g + 3 of the transpose. -/
def mtrnGroup (o : Op) (g : Nat) : List (Option Byte) :=
  let (r, n, e) := shapeOf o.shA
  (List.range 4).flatMap fun q =>
    let j := 4 * g + q
    if j < n then
      ((List.range r).flatMap fun i => ((o.buf.drop (128 * i + j * e)).take e).map some) ++ List.replicate (128 - r * e) none
    else List.replicate 128 none

/-- Row `g` of MCVT: bytes and flags. -/
def mcvtRow (o : Op) (bf h : Bool) (g : Nat) (row : List Byte) : List (Option Byte) × Fl :=
  let n := (shapeOf o.shD).2.1
  let as := lanesOf 4 row
  let r := (List.range n).map fun j =>
    let col := if bf then j + (if h then 64 else 0) else j
    mcvtElem o.fmt bf (o.mask.setWidth 32) o.srs (g * 128 + col) (as.getD col 0)
  (someBytes (bytesOf (if bf then 2 else 1) (r.map (·.1))), (r.map (·.2)).foldl (· ||| ·) 0)

/-- The bytes of tile row `g` in its row group, 08_matrix.md R194. -/
def inGroup (g : Nat) (bs : List (Option Byte)) : List (Option Byte) :=
  List.replicate (128 * (g % 4)) none ++ bs ++ List.replicate (512 - 128 * (g % 4) - bs.length) none

/-- Number of groups of a mover form. -/
def moverGroups : Instr → Nat
  | .mlda .. | .macs .. | .mcvt .. => 128
  | _ => 32

/-- One group of a mover operation: its sample and its deferred write (R199, R201). -/
def State.moverGroup (s : State) (c n g : Nat) (o : Op) : State :=
  let a := o.as + 512 * g
  let d := o.ad + 512 * g
  let early := match o.instr with
    | .mtrn _ _ => false
    | _ => s.earlyUnit o.src c a 512
  let data := s.poolRead c a 512
  let (rows, fl) := match o.instr with
    | .mcvt _ _ bf h _ => mcvtRow o bf h g data
    | _ => ([], 0)
  let s := match o.instr with
    | .mld .. => s.deferOp o.src 1 (.pool c d (someBytes data) true)
    | .mst .. | .macs .. => s.deferOp o.src 1 (.pool c d (someBytes data) false)
    | .mlda .. => s.deferOp o.src 1 (.acc c o.ad (512 * g) (someBytes data))
    | .mtrn .. => if 4 * g < (shapeOf o.shA).2.1 then s.deferOp o.src 1 (.pool c d (mtrnGroup o g) true) else s
    | .mcvt .. =>
      if g < (shapeOf o.shD).1 then
        let s := s.deferOp o.src 2 (.pool c (rowGroups o.ad g 1).1 (inGroup g rows) true)
        if fl = 0 then s else s.deferOp o.src 2 (.flags c fl)
      else s
    | _ => s
  let last := decide (moverGroups o.instr ≤ g + 1)
  let s := s.setOp c n (if last then none else some { o with fut := o.fut.drop 1 })
  let s := if last then s else
    s.at c (s.me.cyc + 1) { ctx := { core := c, op := n, idx := g + 1 }, instr := .tileMoverGroup }
  if early then s.raiseOp .earlyRead o.src 0 else s

/-- TILE_MOVER_GROUP: group `idx` of the mover operation in hand. An operation that has waited for its tags takes the
mover now, or finds it busy (R200). -/
def execTileMoverGroup (s : State) : Out :=
  let c := s.ctx.core
  let n := s.ctx.op
  let o := s.myOp
  if o.st.isNone then
    if s.me.moverBusy then ok ((s.setOp c n none).raiseOn c .arrayCollision o.src 0 0)
    else
      let o := { o with st := some s.me.cyc, fut := groups512 c o.ad 32, src := { o.src with tick := s.tick, cyc := s.me.cyc } }
      ok ((s.takeMoverBy o.src 32).moverGroup c n 0 o)
  else
    match o.instr, s.ctx.idx with
    | .mcvt _ _ bf _ _, 0 =>
      if !bf && bits o.fmt 16 2 == 2 then
        let (v, s) := s.sampleSrs c
        ok (s.moverGroup c n 0 { o with srs := v })
      else ok (s.moverGroup c n 0 o)
    | _, g => ok (s.moverGroup c n g o)

/-! ## The scale slot, R202 to R204 -/

/-- The 512 bits that ZSCLA and ZSCLB load. -/
def State.quarter (s : State) (va : VReg) (h : BitVec 2) : BitVec 512 :=
  BitVec.ofNat 512 (ofLe (((s.vreg va).drop (64 * h.toNat)).take 64))

/-- ZSCLA. -/
def execZscla (va : VReg) (h : BitVec 2) (s : State) : Out := ok (s.defer 2 (.latchA s.ctx.core h (s.quarter va h)))
/-- ZSCLB. -/
def execZsclb (va : VReg) (h : BitVec 2) (s : State) : Out := ok (s.defer 2 (.latchB s.ctx.core h (s.quarter va h)))
/-- ZTAB. -/
def execZtab (i : BitVec 4) (v : BitVec 16) (s : State) : Out := ok (s.defer 0 (.scale s.ctx.core i v))
/-- ZFMT. -/
def execZfmt (i : BitVec 4) (v : BitVec 32) (s : State) : Out := ok (s.defer 0 (.fmt s.ctx.core i v))
/-- ZFSEL. -/
def execZfsel (follow : Bool) (base : BitVec 4) (level : BitVec 3) (s : State) : Out :=
  ok (s.defer 0 (.ftsel s.ctx.core (BitVec.ofBool follow ++ base ++ 0#1 ++ level)))

/-! ## Follow-ons, R205, R206 -/

/-- FOLLOW_ON_ISSUE: in cycle C + 1 of its copy the command issues to its unit, with its guard read as of the end of C. A follow-on MMA
or MMAT runs on the array, as R205 and R206 send it to its own unit, although R193 lists every follow-on under the tile mover
(DESIGN CHOICE, log entry 28). -/
def execFollowOnIssue (s : State) : Out :=
  let c := s.ctx.core
  let o := s.myOp
  let s := s.setOp c s.ctx.op none
  match o.follow with
  | none => ok s
  | some y =>
    let run := s.me.pr y.gp != y.gs
    let slot : Slot := if o.src.slot = 5 then .c0 else .c1
    let ctx : Ctx := { core := c, slot := slot, head := o.src.head, delay := o.src.delay, exec := run, idx := 3, req := y.gp.toNat }
    let w : Work := { ctx := ctx, instr := y.instr }
    ok { s with todo := (if run then [{ ctx := { ctx with idx := 1 }, instr := .bundleIssue : Work }, w] else [w]) ++ s.todo }

end Sys2Proof.Machine
end

