-- ==== Sys2Proof/Machine/Pool.lean ====
section
/-! DEFINITION. The copy engines, the decanter, DTAB and CPI, and the spill-and-fill engine (09_pool.md, 05_registers.md
R150 to R152). -/

namespace Sys2Proof.Machine

/-! ## The copy engines, R215 -/

/-- The engine of the syllable in hand. -/
def State.myEngine (s : State) : Nat := s.ctx.slot.num - 5

/-- Operations of engine `e` queued or running, 09_pool.md R215. -/
def Core.queued (k : Core) (e : Nat) : Nat :=
  (k.ops.filter fun o => o.2.any fun p => p.src.slot == e + 5 && !p.src.fo && p.fin.isNone && p.eng == e &&
    match p.instr with
    | .spb _ => false
    | .fla _ => false
    | .mld .. => false
    | _ => true).length

/-- The step that starts an operation of a copy engine. -/
def startInstr : Instr → Instr
  | .cpl a => if a.dec.isSome then .decodeContainer else .copyBeat
  | .cpv _ => .copyBeat
  | .cpi _ => .codeImageLoad
  | .dtab _ _ => .decodeTableLoad
  | .chr _ => .chrCollect
  | .chw _ => .chwArrival
  | _ => .copyBeat

/-- Queues an operation on its engine: it starts at the later of c0 + 1 and the end of the one before it. -/
def State.enqueue (s : State) (o : Op) : State :=
  let c := s.ctx.core
  let e := s.myEngine
  let k := s.me
  let (n, s) := s.newOp c { o with src := s.src, eng := e }
  let q := Table.get [] k.copyQ e
  let s := s.modMe fun k => { k with copyQ := Table.put k.copyQ e (q ++ [n]) }
  if q.isEmpty then
    s.at c (max (k.cyc + 1) (Table.get 0 k.copyFree e)) { ctx := { core := c, op := n }, instr := startInstr o.instr }
  else s

/-- A copy form: SENDQ_FULL or the elastic wait at a full engine, else the form (09_pool.md R215). -/
def State.onEngine (s : State) (i : Instr) (go : State → State) : State :=
  if 8 ≤ s.me.queued s.myEngine then (if s.me.elastic then s.hold .room none (some i) else s.raise .sendqFull 0 0)
  else go s

/-- Operation `n` of core `c` starts now for `d` cycles; the next of its engine follows. -/
def State.startOp (s : State) (c n d : Nat) (o : Op) : State :=
  let k := s.core c
  let q := (Table.get [] k.copyQ o.eng).filter (· != n)
  let s := s.modCore c fun k =>
    { k with copyQ := Table.put k.copyQ o.eng q, copyFree := Table.put k.copyFree o.eng (k.cyc + d) }
  let s := s.setOp c n (some { o with st := some k.cyc })
  match q with
  | [] => s
  | m :: _ => s.at c (k.cyc + d) { ctx := { core := c, op := m }, instr := startInstr (s.op c m).instr }

/-- The operation completes in the present cycle C: its follow-on issues in C + 1, and it is forgotten then but for a sample of it that a
THAW takes again (16_faults.md R373). -/
def State.finishOp (s : State) (c n : Nat) (o : Op) : State :=
  let k := s.core c
  let s := match k.run with
    | some r => if (s.run r).replay.isEmpty then s else s.modRun r fun u => { u with replay := u.replay.map fun (q : Replay) =>
        if q.work.ctx.op = n && q.work.ctx.core = c then { q with last := some o } else q }
    | none => s
  (s.setOp c n (some { o with fin := some k.cyc, fut := [], futX := [] })).at c (k.cyc + 1)
    { ctx := { core := c, op := n }, instr := .followOnIssue }

/-- A fault of an operation at its start: it completes at once, without a follow-on. -/
def State.failOp (s : State) (c n : Nat) (o : Op) (f : FCode) (w2 : X) : State :=
  ((s.startOp c n 1 o).finishOp c n { o with follow := none }).raiseOp f o.src w2

/-- The follow-on syllable of the copy in hand. -/
def State.followSyl (s : State) (fo : Option (BitVec 2)) : Option Syllable :=
  match fo.map (followOf s.ctx.lits) with
  | some (.ok y) => some y
  | _ => none

/-! ## CPL and CPV, R219 to R221 -/

/-- A row of `m` bytes at address `a` lies in the scratch of a core of the run: the core and the offset (R219). -/
def State.rowAt (s : State) (a : X) (m : Nat) : Option (Nat × Nat) :=
  match poolAddr s.ctx.core a with
  | some (c, o) =>
    if s.sameRun s.ctx.core c && decide (o + m ≤ (s.core c).carve.scrlim) then some (c, o) else none
  | none => none

/-- The rows of a copy on one side: the core and the offsets, or the address of the row that fails (R219). -/
def State.rowsAt (s : State) (a : X) (stride : Int) (n m : Nat) : Except X (Nat × List Nat) :=
  let as := (List.range n).map fun (r : Nat) => a + BitVec.ofInt 64 (stride * r)
  let ps := as.map fun x => s.rowAt x m
  let c := ((ps.headD none).map (·.1)).getD 0
  match (List.zip as ps).find? fun e => !(e.2.any fun p => p.1 == c) with
  | some e => .error e.1
  | none => .ok (c, ps.filterMap (·.map (·.2)))

/-- Issues a copy of `n` rows of `m` bytes. -/
def State.issueCopy (s : State) (i : Instr) (xa xb xc : XReg) (fo : Option (BitVec 2)) (ss ds : Int) (n m : Nat) : State :=
  s.onEngine i fun s =>
    match s.rowsAt (s.xr xb) ss n m, s.rowsAt (s.xr xa) ds n m with
    | .error a, _ => s.raise .poolBounds a 0
    | _, .error a => s.raise .poolBounds a 0
    | .ok (cs, rs), .ok (cd, rd) =>
      s.enqueue { instr := i, cs := cs, cd := cd, hs := hops s.ctx.core cs, hd := hops cs cd, regs := rs, rowsD := rd,
                  x0 := BitVec.ofNat 64 m, tag := bits (s.xr xc) 0 16, follow := s.followSyl fo,
                  fut := rd.map fun d => (cd, d, m) }

/-- Issues a decode copy: the source's start and the destination are checked here, its length at the start (R219, R224). -/
def State.issueDecode (s : State) (a : CplArgs) (slot : BitVec 2) : State :=
  s.onEngine (.cpl a) fun s =>
    match s.rowAt (s.xr a.xb) 1, s.rowAt (s.xr a.xa) a.n.toNat with
    | none, _ => s.raise .poolBounds (s.xr a.xb) 0
    | _, none => s.raise .poolBounds (s.xr a.xa) 0
    | some (cs, o), some (cd, d) =>
      s.enqueue { instr := .cpl a, cs := cs, cd := cd, hs := hops s.ctx.core cs, hd := hops cs cd, as := o, ad := d,
                  x0 := s.xr a.xb, x1 := slot.setWidth 64, mask := a.n.setWidth 256, tag := bits (s.xr a.xc) 0 16,
                  follow := s.followSyl a.fo, fut := [(cd, d, a.n.toNat)] }

/-- CPL. -/
def execCpl (a : CplArgs) (s : State) : Out :=
  match a.dec with
  | none => ok (s.issueCopy (.cpl a) a.xa a.xb a.xc a.fo 0 0 1 a.n.toNat)
  | some d => ok (s.issueDecode a d)

/-- CPV. -/
def execCpv (a : CpvArgs) (s : State) : Out :=
  let lit := fun (i : Nat) => (s.ctx.lits.getD i 0).toInt
  ok (s.issueCopy (.cpv a) a.xa a.xb a.xc a.fo (lit (2 * a.sp.toNat)) (lit (2 * a.sp.toNat + 1)) (a.rows.toNat + 1) a.m.toNat)

/-- Beats of a copy. -/
def Op.beats (o : Op) : Nat := o.regs.length * ceilDiv o.x0.toNat 128

/-- Beat `t`: source offset, destination offset and length (R220). -/
def Op.beat (o : Op) (t : Nat) : Nat × Nat × Nat :=
  let m := o.x0.toNat
  let b := max 1 (ceilDiv m 128)
  let j := 128 * (t % b)
  (o.regs.getD (t / b) 0 + j, o.rowsD.getD (t / b) 0 + j, min 128 (m - j))

/-- Granules that beat `t` writes and no later beat does, R212. -/
def Op.lastGranules (o : Op) (t : Nat) : List Nat :=
  let (_, d, n) := o.beat t
  let later := (List.range (o.beats - t - 1)).map fun i => (o.beat (t + 1 + i)).2
  ([d / 1024, (d + n - 1) / 1024].eraseDups).filter fun g =>
    !(later.any fun e => decide (e.1 / 1024 ≤ g) && decide (g ≤ (e.1 + e.2 - 1) / 1024))

/-- Beat `t` touches a granule. -/
def Op.beatTouches (o : Op) (t g : Nat) : Bool :=
  let (_, d, n) := o.beat t
  decide (d / 1024 ≤ g) && decide (g ≤ (d + n - 1) / 1024)

/-- Bytes a copy has still to write after beat `t`. -/
def Op.futAfter (o : Op) (t : Nat) : List (Nat × Nat × Nat) :=
  let b := max 1 (ceilDiv o.x0.toNat 128)
  (o.rowsD.zipIdx.filterMap fun e =>
    if e.2 < t / b then none
    else if e.2 = t / b then
      (let j := 128 * (t % b + 1); if j < o.x0.toNat then some (o.cd, e.1 + j, o.x0.toNat - j) else none)
    else some (o.cd, e.1, o.x0.toNat))

/-- The SRAM rail of core `d` is in retention: a sample of its pool by a copy raises RAIL_DOWN, 14_time_power.md R322. -/
def State.sramDown (s : State) (d : Nat) : Bool := !(s.core d).rails.getLsbD 2

/-- COPY_BEAT: the copy in hand starts; then its beat `idx` is sampled and its write falls 2 + Hd cycles later, with the
tags of the granules it completes; after the last write the copy completes (R220, R212). A granule takes its tag only if
some beat has written in it; where RAIL_DOWN drops the last of several beats, the tag falls where that beat's write would
have (DEDUCED, log 29). `outs` keeps whether each beat was sampled. -/
def execCopyBeat (s : State) : Out :=
  let c := s.ctx.core
  let n := s.ctx.op
  let o := s.myOp
  let t := s.ctx.idx
  let again := fun (s : State) d i => s.at c (s.me.cyc + d) { ctx := { core := c, op := n, idx := i }, instr := .copyBeat }
  if o.st.isNone then ok (again (s.startOp c n o.beats o) o.hs 0)
  else if o.beats ≤ t then ok (s.finishOp c n o)
  else
    let (a, d, l) := o.beat t
    let down := s.sramDown o.cs
    let o := { o with fut := o.futAfter t, outs := o.outs ++ [([], down, false)] }
    let s := s.setOp c n (some o)
    let s := if s.earlyPool o.src o.cs a l then s.raiseOp .earlyRead o.src 0 else s
    let s := if down then s.raiseOp .railDown o.src 0
      else s.deferOp o.src (2 + o.hd) (.pool o.cd d (someBytes (s.poolRead o.cs a l)) false)
    let wrote := fun (g : Nat) => (o.outs.zipIdx).any fun e => !e.1.2.1 && o.beatTouches e.2 g
    let s := ((o.lastGranules t).filter wrote).foldl (fun s g => s.deferOp o.src (2 + o.hd) (.tag o.cd g o.tag)) s
    ok (if t + 1 = o.beats then again s (2 + o.hd) (t + 1) else again s 1 (t + 1))

/-! ## The decanter, R222 to R225 -/

/-- A table's codes, 09_pool.md R223: counts from length 1, symbols in order. -/
def canonical : List Nat → Nat → Nat → List Byte → List (Nat × Nat × Byte)
  | [], _, _, _ => []
  | n :: r, l, code, syms =>
    ((syms.take n).zipIdx.map fun e => (l, code + e.2, e.1)) ++ canonical r (l + 1) (2 * (code + n)) (syms.drop n)

/-- A decode table from its 288 bytes, `none` when a check of Table 9.4 fails. -/
def decTabOf (b : List Byte) : Option DecTab :=
  let at_ := fun (i : Nat) => (b.getD i 0).toNat
  let counts := lanesOf 2 ((b.drop 4).take 24)
  let total : Nat := counts.foldl (· + ·) 0
  let kraft : Nat := (counts.zipIdx.map fun e => e.1 * 2 ^ (11 - e.2)).foldl (· + ·) 0
  let syms := (b.drop 32).take total
  if at_ 0 + 256 * at_ 1 ≠ 1 || at_ 3 ≠ 0 || at_ 2 = 0 || decide (64 < at_ 2) || ofLe ((b.drop 28).take 4) ≠ 0 || total = 0 ||
      decide (256 < total) || decide (4096 < kraft) || decide (syms.eraseDups.length < total) then none
  else some { z := at_ 2, codes := canonical counts 1 0 syms }

/-- The bits of a container: byte 0 first, bit 7 down to bit 0 (R223). -/
def bitsOf (bs : List Byte) : List Bool := bs.flatMap fun b => (List.range 8).map fun i => b.getLsbD (7 - i)

/-- Reads one symbol: the shortest code that matches, at most 12 bits. -/
def readSym (codes : List (Nat × Nat × Byte)) : Nat → Nat → Nat → List Bool → Option (Byte × List Bool)
  | 0, _, _, _ => none
  | _ + 1, _, _, [] => none
  | f + 1, l, code, b :: r =>
    let v := 2 * code + b.toNat
    match codes.find? fun e => e.1 == l + 1 && e.2.1 == v with
    | some e => some (e.2.2, r)
    | none => readSym codes f (l + 1) v r

/-- Decodes `n` symbols. -/
def readSyms (codes : List (Nat × Nat × Byte)) : Nat → List Bool → Option (List Byte)
  | 0, _ => some []
  | n + 1, bs =>
    match readSym codes 12 0 0 bs with
    | none => none
    | some (y, r) => (readSyms codes n r).map (y :: ·)

/-- The 4,096 bytes of a container, `none` when it fails (R225). -/
def decant (t : Option DecTab) (bs : List Byte) : Option (List Byte) :=
  match t with
  | none => none
  | some t => readSyms t.codes 4096 (bitsOf bs)

/-- The output of container `k` of `num`: its groups' writes and tags, `d` cycles after the present one (R224, R225).
`bad` says that the container failed, `prev` that the one before it did. -/
def State.putContainer (s : State) (o : Op) (d k num : Nat) (out : List Byte) (bad prev : Bool) : State :=
  let base := o.ad + 4096 * k
  let s := (List.range 64).foldl (fun s q =>
    s.deferOp o.src (d + q) (.pool o.cd (base + 64 * q) (someBytes ((out.drop (64 * q)).take 64)) false)) s
  let gs := (List.range 5).filterMap fun i =>
    let g := base / 1024 + i
    if 1024 * g < base + 4096 ∧ (k + 1 = num ∨ 1024 * (g + 1) ≤ base + 4096) then some g else none
  gs.foldl (fun s g =>
    let q := (min (1024 * (g + 1)) (base + 4096) - 1 - base) / 64
    let fail := bad || (prev && decide (1024 * g < base))
    s.deferTag o.src (d + q) o.cd g fail o.tag) s

/-- Container `k` is dropped: the granule that the one before it has shared with it takes its tag where that of container `k` would
have fallen (R212, log 29). -/
def State.dropContainer (s : State) (o : Op) (d k : Nat) : State :=
  let base := o.ad + 4096 * k
  let g := base / 1024
  if k = 0 || base % 1024 == 0 then s
  else s.deferTag o.src (d + (1024 * (g + 1) - 1 - base) / 64) o.cd g o.failed o.tag

/-- DECODE_CONTAINER: the decode copy in hand starts, with its table and the check of its source; then container `idx` is
sampled and its output scheduled; with an invalid slot nothing is sampled. Plane 1 of the context is a failed
container's last output write, plane 2 the completion (R224, R225). -/
def execDecodeContainer (s : State) : Out :=
  let c := s.ctx.core
  let n := s.ctx.op
  let o := s.myOp
  let k := s.ctx.idx
  let num := o.mask.toNat / 4096
  let z := 64 * ((o.tab.map (·.z)).getD 0)
  let again := fun (s : State) d i p =>
    s.at c (s.me.cyc + d) { ctx := { core := c, op := n, idx := i, plane := p }, instr := .decodeContainer }
  if o.st.isNone then
    let tab := Table.get none s.me.dectab o.x1.toNat
    let z := 64 * ((tab.map (·.z)).getD 0)
    let o := { o with tab := tab }
    if tab.isSome && decide ((s.core o.cs).carve.scrlim < o.as + num * z) then ok (s.failOp c n o .poolBounds o.x0)
    else ok (again (s.startOp c n (64 * num) o) o.hs 0 0)
  else if s.ctx.plane = 1 then ok (s.raiseOp .decodeOverrun o.src 0)
  else if s.ctx.plane = 2 then ok (s.finishOp c n o)
  else
    let s := if z != 0 && s.earlyPool o.src o.cs (o.as + z * k) z then s.raiseOp .earlyRead o.src 0 else s
    let down := o.tab.isSome && s.sramDown o.cs
    let s := if down then s.raiseOp .railDown o.src 0 else s
    let out := decant o.tab (s.poolRead o.cs (o.as + z * k) z)
    let bad := out.isNone
    let d := 4 + o.hd
    let s := s.setOp c n (some { o with failed := bad, fut := [(o.cd, o.ad + 4096 * (k + 1), 4096 * (num - k - 1))] })
    let s := if down then s.dropContainer o d k else s.putContainer o d k num (out.getD (List.replicate 4096 0)) bad o.failed
    let s := if bad && !down then again s (d + 63) k 1 else s
    ok (if k + 1 = num then again s (d + 63) k 2 else again s 64 (k + 1) 0)

/-! ## DTAB and CPI, R226, R227 -/

/-- DTAB. -/
def execDtab (xa : XReg) (slot : BitVec 2) (s : State) : Out :=
  ok (s.onEngine (.dtab xa slot) fun s =>
    let a := s.xr xa
    if s.me.inScratch a 288 then s.enqueue { instr := .dtab xa slot, as := a.toNat, cs := s.ctx.core, x1 := slot.setWidth 64 }
    else s.raise .poolBounds a 0)

/-- DECODE_TABLE_LOAD: a third of the table is sampled in each of three cycles; the slot loads at the end of the last. -/
def execDecodeTableLoad (s : State) : Out :=
  let c := s.ctx.core
  let n := s.ctx.op
  let o := s.myOp
  let i := s.ctx.idx
  let s := if o.st.isNone then s.startOp c n 3 o else s
  let l := if i = 2 then 32 else 128
  let s := if s.earlyPool o.src c (o.as + 128 * i) l then s.raiseOp .earlyRead o.src 0 else s
  let o := { o with st := some (o.st.getD s.me.cyc), buf := o.buf ++ s.poolRead c (o.as + 128 * i) l }
  if i = 2 then ok ((s.deferOp o.src 0 (.decTab c o.x1.toNat (decTabOf o.buf))).finishOp c n o)
  else ok ((s.setOp c n (some o)).at c (s.me.cyc + 1) { ctx := { core := c, op := n, idx := i + 1 }, instr := .decodeTableLoad })

/-- CPI. -/
def execCpi (xa : XReg) (s : State) : Out :=
  ok (s.onEngine (.cpi xa) fun s =>
    let a := s.xr xa
    if a.toNat % 4 = 0 && s.me.inScratch a 16 then
      s.enqueue { instr := .cpi xa, as := a.toNat, cs := s.ctx.core, x0 := a }
    else s.raise .poolBounds a 0)

/-- The header of a code image: its word count and load address, `none` when invalid (02_bundles.md Table 2.1). -/
def imageHeader (b : List Byte) : Option (Nat × Nat) :=
  let n := ofLe ((b.drop 4).take 4)
  let a := ofLe ((b.drop 8).take 4)
  if ofLe (b.take 2) = 1 ∧ ofLe ((b.drop 2).take 2) = 0 ∧ 1 ≤ n ∧ n ≤ 32768 ∧ a < 32768 ∧ a + n ≤ 32768 ∧
    ofLe ((b.drop 12).take 4) = 0
  then some (n, a) else none

/-- The instruction words and head bits of group `g` of an image of `n` words at pool address `p` of core `c`. -/
def State.imageGroup (s : State) (c p n g : Nat) : List (W32 × Bool) :=
  let m := ofLe (s.poolRead c (p + 16 + 4 * n + 4 * g) 4)
  (lanesOf 4 (s.poolRead c (p + 16 + 128 * g) (4 * min 32 (n - 32 * g)))).zipIdx.map fun e =>
    (BitVec.ofNat 32 e.1, m.testBit e.2)

/-- CODE_IMAGE_LOAD: the header and the last head-map word are sampled and checked, then a group of 32 words a cycle is loaded
(R227). A sample at st with EARLY_READ loads nothing, like any fault at st, and it comes before the faults of what it read (12_order.md
R278 names no order; DESIGN CHOICE, log 25). -/
def execCodeImageLoad (s : State) : Out :=
  let c := s.ctx.core
  let n := s.ctx.op
  let o := s.myOp
  let again := fun (s : State) i => s.at c (s.me.cyc + 1) { ctx := { core := c, op := n, idx := i }, instr := .codeImageLoad }
  if o.st.isNone then
    if s.earlyPool o.src c o.as 16 then ok (s.failOp c n o .earlyRead 0)
    else
    match imageHeader (s.poolRead c o.as 16) with
    | none => ok (s.failOp c n o .illegalEnc 0)
    | some (nw, a) =>
      let w := ceilDiv nw 32
      let head := o.as + 16 + 4 * nw + 4 * (w - 1)
      let last := ofLe (s.poolRead c head 4)
      if s.earlyPool o.src c head 4 then ok (s.failOp c n o .earlyRead 0)
      else if nw % 32 ≠ 0 && decide (2 ^ (nw % 32) ≤ last) then ok (s.failOp c n o .illegalEnc 0)
      else if s.me.carve.scrlim < o.as + 16 + 4 * nw + 4 * w then ok (s.failOp c n o .poolBounds o.x0)
      else ok (again (s.startOp c n (w + 1) { o with hs := nw, hd := a }) 0)
  else
    let w := ceilDiv o.hs 32
    let g := s.ctx.idx
    if w ≤ g then ok (s.finishOp c n o)
    else
      let early := s.earlyPool o.src c (o.as + 16 + 128 * g) (4 * min 32 (o.hs - 32 * g)) ||
        s.earlyPool o.src c (o.as + 16 + 4 * o.hs + 4 * g) 4
      let s := if early then s.raiseOp .earlyRead o.src 0 else s
      ok (again (s.deferOp o.src 1 (.imem c (o.hd + 32 * g) (s.imageGroup c o.as o.hs g))) (g + 1))

/-! ## The spill-and-fill engine, 05_registers.md R150 to R152 -/

/-- Issues SPB or FLA: in an elastic phase a token busy at the end of c0 − 1 is waited for first; then POOL_BOUNDS, in a locked
phase the busy token (of the two faults R152 names none first; DESIGN CHOICE, log 25), and the operation, whose token is busy
from the end of c0 (02_bundles.md R56). Words 2 and 3 of the record of the busy token are 0: 16_faults.md Table 16.3 says nothing of a
token (DESIGN CHOICE, log 27). -/
def State.issueSpill (s : State) (i : Instr) (spb : Bool) (a : SpillArgs) : State :=
  let c := s.ctx.core
  let k := s.me
  let p := s.xr a.xa + a.off.setWidth 64
  let w := if a.vec then 256 else 8
  let r := if a.vec then 1 else 8
  let m := a.tok.toNat
  let busy := decide (k.cyc < Table.get 0 k.tok m)
  if busy && k.elastic then s.hold .room none (some i)
  else if !(decide (p.toNat < 0x180000) && k.inScratch p (a.n.toNat * w)) then s.raise .poolBounds p 0
  else if busy then s.raise .writeCollision 0 0
  else
    let g := (a.n.toNat - 1) / r
    let st := max (k.cyc + 1) k.spillFree
    let fin := st + g + (if spb then 1 else 2)
    let va := fun j => k.vaddr (a.f + BitVec.ofNat 6 j)
    let regs := (List.range a.n.toNat).map fun j => if a.vec then va j else a.f.toNat + j
    let fut := if spb then [(c, p.toNat, a.n.toNat * w)] else if a.vec then regs.map fun x => (c, x, 256) else []
    let (n, s) := s.newOp c
      { src := { s.src with own := true }, instr := i, st := some st, ad := p.toNat, regs := regs, fut := fut,
        futX := if spb || a.vec then [] else regs.map (BitVec.ofNat 5) }
    ((s.modMe fun k => { k with spillFree := st + g + 1, spillSrc := s.src }).defer 0 (.tok c m (fin + 1))).at c st
      { ctx := { core := c, op := n, idx := 0 }, instr := .spillFillGroup }

/-- SPB. -/
def execSpb (a : SpillArgs) (s : State) : Out := ok (s.issueSpill (.spb a) true a)
/-- FLA. -/
def execFla (a : SpillArgs) (s : State) : Out := ok (s.issueSpill (.fla a) false a)

/-- What a spill syllable says: SPB, and its arguments. -/
def spillVar : Instr → Option (Bool × SpillArgs)
  | .spb a => some (true, a)
  | .fla a => some (false, a)
  | _ => none

/-- SPILL_FILL_GROUP: group `idx` of the spill or fill in hand reads its registers or pool bytes and writes the other side
(R151). -/
def execSpillFillGroup (s : State) : Out :=
  let c := s.ctx.core
  let n := s.ctx.op
  let o := s.myOp
  match spillVar o.instr with
  | none => ok s
  | some (spb, a) =>
    let w := if a.vec then 256 else 8
    let r := if a.vec then 1 else 8
    let g := s.ctx.idx
    let js := (List.range r).filterMap fun i => if r * g + i < a.n.toNat then some (r * g + i) else none
    let s := js.foldl (fun s j =>
      let x := o.regs.getD j 0
      let p := o.ad + w * j
      if spb then
        let bs := if a.vec then s.poolRead c x 256 else leBytes 8 (s.me.xr (BitVec.ofNat 5 x)).toNat
        s.deferOp o.src 1 (.pool c p (someBytes bs) false)
      else
        let bs := s.poolRead c p w
        if a.vec then s.deferOp o.src 2 (.pool c x (someBytes bs) true)
        else if x = 0 then s
        else s.deferOp o.src 2 (.x c (BitVec.ofNat 5 x) (BitVec.ofNat 64 (ofLe bs)))) s
    if r * (g + 1) < a.n.toNat then
      let fut := if spb then [(c, o.ad + w * r * (g + 1), w * (a.n.toNat - r * (g + 1)))] else o.fut.drop 1
      ok ((s.setOp c n (some { o with fut := fut, futX := o.futX.drop 8 })).at c (s.me.cyc + 1)
        { ctx := { core := c, op := n, idx := g + 1 }, instr := .spillFillGroup })
    else ok (s.setOp c n none)

end Sys2Proof.Machine
end

