-- ==== Sys2Proof/Machine/Crypto.lean ====
section
/-! DEFINITION. AES-256-GCM, which 10_channels.md R256 and 15_light.md R357 name; its computation is the published
standard's (log entry 9). -/

namespace Sys2Proof.Machine

/-- Doubling in the field of AES. -/
def gfDouble (x : Nat) : Nat := if 128 ≤ x then ((2 * x) % 256) ^^^ 0x1B else 2 * x

/-- The product in the field of AES, over the low `n` bits of `b`. -/
def gfMul : Nat → Nat → Nat → Nat
  | 0, _, _ => 0
  | n + 1, a, b => (if b % 2 = 1 then a else 0) ^^^ gfMul n (gfDouble a) (b / 2)

/-- The inverse in the field of AES, 0 for 0: the power 254. -/
def gfInv (x : Nat) : Nat :=
  let m := gfMul 8
  let x2 := m x x
  let x3 := m x2 x
  let x6 := m x3 x3
  let x12 := m x6 x6
  let x14 := m x12 x2
  let x15 := m x12 x3
  let x30 := m x15 x15
  let x60 := m x30 x30
  let x120 := m x60 x60
  let x240 := m x120 x120
  m x240 x14

/-- The S-box. -/
def sboxTab : List Byte :=
  (List.range 256).map fun i =>
    let b : Byte := BitVec.ofNat 8 (gfInv i)
    b ^^^ b.rotateLeft 1 ^^^ b.rotateLeft 2 ^^^ b.rotateLeft 3 ^^^ b.rotateLeft 4 ^^^ 0x63

/-- The S-box of a byte. -/
def aesSub (b : Byte) : Byte := sboxTab.getD b.toNat 0

/-- The next word of the key schedule from the words so far, latest first. -/
def keyWord (i : Nat) (ws : List (List Byte)) : List Byte :=
  let t := ws.getD 0 []
  let t := if i % 8 = 0 then
      xorBytes ((t.drop 1 ++ t.take 1).map aesSub) [BitVec.ofNat 8 (2 ^ (i / 8 - 1)), 0, 0, 0]
    else if i % 8 = 4 then t.map aesSub
    else t
  xorBytes t (ws.getD 7 [])

/-- The key schedule's words up to number `i` + `n`, latest first. -/
def keyWords : Nat → Nat → List (List Byte) → List (List Byte)
  | 0, _, ws => ws
  | n + 1, i, ws => keyWords n (i + 1) (keyWord i ws :: ws)

/-- The 15 round keys of a 32-byte key. -/
def roundKeys (key : List Byte) : List (List Byte) :=
  chunks 16 15 ((keyWords 52 8 (chunks 4 8 key).reverse).reverse.flatMap id)

/-- ShiftRows on the 16 bytes of a block, column by column. -/
def shiftRows (b : List Byte) : List Byte :=
  (List.range 16).map fun i => b.getD ((i + 4 * (i % 4)) % 16) 0

/-- MixColumns. -/
def mixColumns (b : List Byte) : List Byte :=
  (List.range 16).map fun i =>
    let at_ := fun (j : Nat) => (b.getD (i / 4 * 4 + (i + j) % 4) 0).toNat
    BitVec.ofNat 8 (gfDouble (at_ 0) ^^^ gfDouble (at_ 1) ^^^ at_ 1 ^^^ at_ 2 ^^^ at_ 3)

/-- The rounds after the first key addition. -/
def aesRounds : List (List Byte) → List Byte → List Byte
  | [], b => b
  | [k], b => xorBytes (shiftRows (b.map aesSub)) k
  | k :: r, b => aesRounds r (xorBytes (mixColumns (shiftRows (b.map aesSub))) k)

/-- AES-256 of one block under its round keys. -/
def aesBlock (ks : List (List Byte)) (b : List Byte) : List Byte := aesRounds (ks.drop 1) (xorBytes b (ks.headD []))

/-- The number of big-endian bytes. -/
def ofBe (bs : List Byte) : Nat := ofLe bs.reverse
/-- `n` big-endian bytes of a number. -/
def beBytes (n v : Nat) : List Byte := (leBytes n v).reverse

/-- The product of GHASH: the low `n` bits of `x` still to come. -/
def ghashMul : Nat → BitVec 128 → BitVec 128 → BitVec 128
  | 0, _, _ => 0
  | n + 1, x, y =>
    (if x.getLsbD n then y else 0) ^^^
      ghashMul n x (if y.getLsbD 0 then (y >>> 1) ^^^ (0xE1#128 <<< 120) else y >>> 1)

/-- GHASH over bytes padded to blocks. -/
def ghash (h : BitVec 128) (acc : BitVec 128) (bs : List Byte) : BitVec 128 :=
  (chunks 16 (ceilDiv bs.length 16) bs).foldl
    (fun a b => ghashMul 128 (a ^^^ BitVec.ofNat 128 (ofBe b * 256 ^ (16 - b.length))) h) acc

/-- The keystream block `n` after the first counter of a 12-byte nonce. -/
def ctrBlock (ks : List (List Byte)) (nonce : List Byte) (n : Nat) : List Byte := aesBlock ks (nonce ++ beBytes 4 (n + 1))

/-- Counter-mode encryption from data block `first`. -/
def gcmCrypt (key : BitVec 256) (nonce bs : List Byte) (first : Nat) : List Byte :=
  let ks := roundKeys (leBytes 32 key.toNat)
  xorBytes bs ((List.range (ceilDiv bs.length 16)).flatMap fun i => ctrBlock ks nonce (first + i + 1))

/-- The GCM tag of additional data and ciphertext. -/
def gcmTag (key : BitVec 256) (nonce aad cipher : List Byte) : List Byte :=
  let ks := roundKeys (leBytes 32 key.toNat)
  let h := BitVec.ofNat 128 (ofBe (aesBlock ks (List.replicate 16 0)))
  let g := ghash h (ghash h 0 aad) cipher
  let l := ghashMul 128 (g ^^^ BitVec.ofNat 128 (8 * aad.length * 2 ^ 64 + 8 * cipher.length)) h
  xorBytes (beBytes 16 l.toNat) (ctrBlock ks nonce 0)

end Sys2Proof.Machine
end

