-- ==== Sys2Proof/Machine/Chan.lean ====
section
/-! DEFINITION. The memory channels and their scripts: the checks of each command, its bursts, parity, refresh, guest
windows, blocks and epochs (10_channels.md R230 to R257, R267). Times of a channel are run ticks. -/

namespace Sys2Proof.Machine

/-! ## Units and reports -/

/-- The run tick of the present tick for channel `cn`. -/
def State.chanTime (s : State) (cn : Nat) : Nat := ((s.chan cn).run.map s.runTick).getD 0
/-- The channel of the step in hand. -/
def State.myChan (s : State) : Chan := s.chan s.ctx.chan
/-- The run tick of the step in hand. -/
def State.now (s : State) : Nat := s.chanTime s.ctx.chan
/-- Changes the channel of the step in hand. -/
def State.modMyChan (s : State) (f : Chan → Chan) : State := s.modChan s.ctx.chan f
/-- Bank `k` of a channel. -/
def Chan.bank (c : Chan) (k : Nat) : Bank := Table.get {} c.banks k
/-- Changes bank `k`. -/
def Chan.modBank (c : Chan) (k : Nat) (f : Bank → Bank) : Chan := { c with banks := Table.put c.banks k (f (c.bank k)) }

/-- Words 2 and 3 of a channel fault's record, 16_faults.md Table 16.3. -/
def chanWord (cn block word : Nat) : X := BitVec.ofNat 64 (cn + block % 2 ^ 20 * 2 ^ 10 + word * 2 ^ 30)

/-- Raises a channel fault at the present tick against the command in hand: its block, word and stamp stand in the
context's `op`, `head` and `req` (R245). -/
def State.raiseChan (s : State) (f : FCode) : State :=
  match s.myChan.run with
  | none => s
  | some r =>
    s.raiseRun r f 1 s.ctx.chan s.ctx.head (chanWord s.ctx.chan s.ctx.op s.ctx.head) (BitVec.ofNat 64 s.ctx.req) s.tick

/-- A step of the channel in hand, `d` ticks of script time later. -/
def State.later (s : State) (d : Nat) (w : Work) : State :=
  s.modMyChan fun c => { c with bursts := c.bursts ++ [{ due := s.now + d, work := w }] }

/-- A command: inside a guest window it raises SCRIPT_TIMING; a check that fails raises its code and performs nothing
(R243, R253). -/
def State.command (s : State) (bad : Option FCode) (go : State → State) : State :=
  if s.myChan.guest.isSome then s.raiseChan .scriptTiming
  else match bad with
    | some f => s.raiseChan f
    | none => go s

/-- The first check that fails. -/
def firstBad (l : List (Bool × FCode)) : Option FCode := (l.find? fun e => e.1).map (·.2)

/-! ## Timing rules, R239, R243 -/

/-- At least `d` ticks lie between an earlier event and `t`. -/
def gap (e : Option Nat) (t d : Nat) : Bool := match e with
  | some x => decide (x + d ≤ t)
  | none => true

/-- Every bank of `ks` is precharged with TRP elapsed. -/
def Chan.idle (c : Chan) (ks : List Nat) (t : Nat) : Bool :=
  ks.all fun k => (c.bank k).row.isNone && gap (c.bank k).pre t Config.trp

/-- Bank index and column of burst `i`, R236. -/
def burstPlace (a : Burst) (i : Nat) : Nat × Nat :=
  if a.t then (4 * ((a.g.toNat + i) % 4) + a.b.toNat, a.c.toNat + i / 4) else (4 * a.g.toNat + a.b.toNat, a.c.toNat + i)

/-- Two bursts, `d` ticks apart, the earlier a write or not and the later one so, keep the rules of Table 10.6. -/
def pairOk (w1 w2 same : Bool) (d : Nat) : Bool :=
  decide ((if same then Config.tccdl else Config.tccds) ≤ d) &&
  (!(w1 && !w2) || decide ((if same then Config.twtrl else Config.twtrs) ≤ d)) &&
  (!(!w1 && w2) || decide (Config.trtw ≤ d))

/-- A burst at tick `x` keeps the rules against every burst of the column bus. -/
def Chan.burstOk (c : Chan) (x : Nat) (w : Bool) (k row : Nat) : Bool :=
  (c.bank k).row == some row && gap (c.bank k).act x Config.trcd &&
  c.hist.all fun (y, v, j) =>
    y != x && (if y < x then pairOk v w (j / 4 == k / 4) (x - y) else pairOk w v (j / 4 == k / 4) (y - x))

/-- Books the bursts of a command when every one keeps the rules. -/
def Chan.book (c : Chan) : List (Nat × Bool × Nat × Nat) → Option Chan
  | [] => some c
  | (x, w, k, row) :: r => if c.burstOk x w k row then Chan.book { c with hist := (x, w, k) :: c.hist } r else none

/-- The bursts of a column command at tick `x`. -/
def cmdBursts (a : Burst) (x : Nat) (w : Bool) : List (Nat × Bool × Nat × Nat) :=
  (List.range (a.cnt.toNat + 1)).map fun i => (x + i, w, (burstPlace a i).1, a.row.toNat)

/-- Books a command's bursts or raises SCRIPT_TIMING, then goes on. -/
def State.booked (s : State) (l : List (Nat × Bool × Nat × Nat)) (bad : Option FCode) (go : State → State) : State :=
  match s.myChan.book l with
  | none => s.command (some (bad.getD .scriptTiming)) id
  | some c => s.command bad fun s => go (s.modMyChan fun _ => c)

/-- A row command: one a tick (R239). -/
def State.rowCommand (s : State) (bad : Option FCode) (go : State → State) : State :=
  if s.myChan.rowAt = some s.now then s.command (some .scriptTiming) id
  else s.command bad fun s => go (s.modMyChan fun c => { c with rowAt := some s.now })

/-- A row of channel `cn` that firmware has retired, 16_faults.md R377. -/
def State.retiredRow (s : State) (cn row : Nat) : Bool :=
  s.caps.rows.any fun e => e.1 == cn && decide (e.2.1 ≤ row) && decide (row ≤ e.2.2)

/-- A row that the commands for data may not reach: outside the data rows, or retired (R232, Table 10.2). -/
def State.notData (s : State) (row : Nat) : Bool := decide (Config.sealRow ≤ row) || s.retiredRow s.ctx.chan row
/-- A row that ACT and PARRMW may not reach: outside the data and seal rows, or retired. -/
def State.notSeal (s : State) (row : Nat) : Bool := decide (Config.ownRow ≤ row) || s.retiredRow s.ctx.chan row

/-- Bank index of a group and bank. -/
def bankIx (g b : BitVec 2) : Nat := 4 * g.toNat + b.toNat

/-- ACT. -/
def execAct (g b : BitVec 2) (row : BitVec 16) (s : State) : Out :=
  let c := s.myChan
  let t := s.now
  let k := bankIx g b
  let bk := c.bank k
  let bad := bk.row.isSome || !gap bk.pre t Config.trp || !gap bk.act t Config.trc || !gap c.lastRef t Config.trfc ||
    !gap bk.refpb t Config.trfcpb || (List.range 16).any (fun j => j != k && !gap (c.bank j).refpb t Config.trrefd) ||
    c.acts.any (fun e => !gap (some e.1) t (if e.2 / 4 = k / 4 then Config.trrdl else Config.trrds)) ||
    decide (4 ≤ (c.acts.filter fun e => !gap (some e.1) t Config.tfaw).length)
  ok (s.rowCommand (firstBad [(s.notSeal row.toNat, .channelBounds), (bad, .scriptTiming)]) fun s => s.modMyChan fun c =>
    { c.modBank k (fun b => { b with row := some row.toNat, act := some t }) with acts := (t, k) :: c.acts.take 7 })

/-- A bank may close at tick `t`: TRAS, TWR and TRTP, the bursts to come included. -/
def Chan.closable (c : Chan) (k t : Nat) : Bool :=
  (c.bank k).row.isNone || (gap (c.bank k).act t Config.tras &&
    c.hist.all fun (y, w, j) => j != k || decide (y + (if w then Config.twr else Config.trtp) ≤ t))

/-- Closes banks; a closed bank stays as it is. -/
def Chan.close (c : Chan) (ks : List Nat) (t : Nat) : Chan :=
  ks.foldl (fun c k => if (c.bank k).row.isSome then c.modBank k fun b => { b with row := none, pre := some t } else c) c

/-- PRE. -/
def execPre (g b : BitVec 2) (s : State) : Out :=
  let k := bankIx g b
  ok (s.rowCommand (firstBad [(!s.myChan.closable k s.now, .scriptTiming)]) fun s => s.modMyChan fun c => c.close [k] s.now)

/-- PREA. -/
def execPrea (s : State) : Out :=
  let all := List.range 16
  ok (s.rowCommand (firstBad [(!all.all fun k => s.myChan.closable k s.now, .scriptTiming)]) fun s =>
    s.modMyChan fun c => c.close all s.now)

/-- Lowers the debts of banks, R244. -/
def Chan.refresh (c : Chan) (ks : List Nat) : Chan := ks.foldl (fun c k => c.modBank k fun b => { b with debt := b.debt - 1 }) c
/-- A refresh would bring a debt below −8. -/
def Chan.overRefresh (c : Chan) (ks : List Nat) : Bool := ks.any fun k => decide ((c.bank k).debt ≤ -8)

/-- REFPB. -/
def execRefpb (g b : BitVec 2) (s : State) : Out :=
  let k := bankIx g b
  let c := s.myChan
  let t := s.now
  let bad := !c.idle [k] t || c.overRefresh [k] ||
    (List.range 16).any fun j => j != k && !gap (c.bank j).refpb t Config.trrefd
  ok (s.rowCommand (firstBad [(bad, .scriptTiming)]) fun s => s.modMyChan fun c =>
    (c.refresh [k]).modBank k fun b => { b with refpb := some t })

/-- REF. -/
def execRef (s : State) : Out :=
  let c := s.myChan
  let t := s.now
  let all := List.range 16
  ok (s.rowCommand (firstBad [(!c.idle all t || c.overRefresh all || !gap c.lastRef t Config.trfc, .scriptTiming)]) fun s =>
    s.modMyChan fun c => { c.refresh all with lastRef := some t })

/-! ## Column commands -/

/-- A page's counter rises by one; at the partition's threshold an event is posted on vector 1 (R267). -/
def State.countPage (s : State) (cn row bank : Nat) : State :=
  let page := (4 * row + bank % 4) / 16
  let i := cn * 12192 + page
  let v := Table.get 0 s.counters i
  let s := { s with counters := Table.put s.counters i (min 65535 (v + 1)) }
  match s.parts.find? fun e => e.2.made && e.2.parityGroups.getLsbD (cn % 64) with
  | none => s
  | some (_, p) =>
    if p.counterThreshold != 0 && v + 1 == p.counterThreshold.toNat then
      match p.vf with
      | some f => s.event f 1 (leBytes 4 cn ++ leBytes 4 page ++ List.replicate 24 0)
      | none => s
    else s

/-- The burst that burst `i` of the command in hand addresses. -/
def State.burstOf (s : State) (a : Burst) (i : Nat) : Nat :=
  burstKey s.ctx.chan (burstPlace a i).1 a.row.toNat (burstPlace a i).2

/-- The next burst of a column command. -/
def State.nextBurst (s : State) (n i : Nat) (w : Instr) : State :=
  if i < n then s.later 1 { ctx := { s.ctx with idx := i + 1 }, instr := w } else s

/-- The slot of burst `i`. -/
def slotOf (q : BitVec 5) (i : Nat) : Nat := (q.toNat + i) % 32

/-- Notes a burst for the stripe checks at the end of the tick. -/
def State.noteStripe (s : State) (k : StripeKind) (key : Nat) (d : List Byte) : State :=
  { s with stripe := s.stripe ++ [{ chan := s.ctx.chan, key := key, kind := k, data := d, ctx := s.ctx }] }

/-- Keeps a copy of a burst; the oldest of 256 goes (R250). -/
def Chan.keepCopy (c : Chan) (key : Nat) (d : List Byte) (t : Nat) : Chan :=
  { c with keep := ((key, d, t) :: c.keep.filter fun e => e.1 != key).take 256 }

/-- A burst is read, by a script, by the controller or for a guest: what the stack reports as uncorrectable is poisoned from now on,
and its self-test is due (R252, 16_faults.md R376). -/
def State.readUe (s : State) (key : Nat) : State :=
  if s.hbmUe.contains key then
    ({ s with hbmUe := s.hbmUe.filter (· != key) }.setPoison key true).startTest
      { unit := .hbmBurst (key / (49152 * 512)) (key % (49152 * 512)) }
  else s

/-- Burst `i` of an RD: it lands 23 ticks later, or enters the stripe's reconstruction; it counts for its page, a parity or
seal burst not (R267). -/
def State.rdBurst (s : State) (a : Burst) (q : BitVec 5) (k x : Bool) (i : Nat) : State :=
  let key := s.burstOf a i
  let bank := (burstPlace a i).1
  let s := s.readUe key
  let d := s.burst key
  let s := s.nextBurst a.cnt.toNat i (.rd a q k x)
  let s := if Config.sealRow ≤ a.row.toNat ∨ parityStack a.row.toNat bank = s.ctx.chan / 64 then s
    else s.countPage s.ctx.chan a.row.toNat bank
  if x then s.noteStripe (.read (slotOf q i)) key d
  else
    let s := s.later 23 { ctx := { s.ctx with burst := key }, instr := .rdLanding s.ctx.chan (slotOf q i) d (s.isPoisoned key) }
    if k then s.modMyChan fun c => c.keepCopy key d s.now else s

/-- RD, R236, R250, R251. -/
def execRd (a : Burst) (q : BitVec 5) (k x : Bool) (s : State) : Out :=
  if s.ctx.idx ≠ 0 then ok (s.rdBurst a q k x s.ctx.idx)
  else
    let legalX := match s.lostStack with
      | some f => f != s.ctx.chan / 64
      | none => false
    ok (s.booked (cmdBursts a s.now false)
      (firstBad [(if x then s.notSeal a.row.toNat else s.notData a.row.toNat, .channelBounds), (x && !legalX, .scriptTiming)])
      fun s => s.rdBurst a q k x 0)

/-- RD_LANDING: a burst fills its slot at the end of the tick, R236, R247. -/
def execRdLanding (cn q : Nat) (data : List Byte) (poison : Bool) (s : State) : Out :=
  ok (s.deferTick { slot := s.ctx.head, head := s.ctx.op, cyc := s.ctx.req, tick := s.tick } s.tick (.slot cn q data poison s.ctx.burst none))

/-- Empties slot `q` of channel `cn` in the present tick: the burst, or none when it was empty or is emptied already
(R247). -/
def State.emptySlot (s : State) (cn q : Nat) : Option QSlot × State :=
  match Table.get none (s.chan cn).slots q with
  | none => (none, s)
  | some b =>
    (some b, s.modChan cn fun c => { c with slots := Table.put c.slots q none, emptied := (q, s.chanTime cn) :: c.emptied })

/-- The parity burst of a burst's stripe. -/
def parityBurst (key : Nat) : Nat := stripeBurst key (parityStack (key / 512 % 49152) (key / 32 % 16))

/-- Adds a delta of a stripe to its group's buffer, `none` when the buffer is full (R250). A delta is filed for a stripe whose parity
stack is the retired one too, though no PARRMW can free it: Table 10.7 calls such a stripe unprotected and R250 makes no exception
(DESIGN CHOICE, log 31). -/
def State.addDelta (s : State) (key : Nat) (d : List Byte) : Option State :=
  let g := s.ctx.chan % 64
  let l := Table.get [] s.deltas g
  if 256 ≤ l.length then none
  else some { s with deltas := Table.put s.deltas g (l ++ [{ key := parityBurst key, data := d, at_ := s.now, chan := s.ctx.chan }]) }

/-- Writes a burst from its slot; a poisoned one poisons its stripe at the end of the tick (R252). -/
def State.writeBurst (s : State) (key : Nat) (b : QSlot) : State :=
  let s := (s.putBurst key b.data).setPoison key false
  if b.poison then s.noteStripe .poison key [] else s

/-- Burst `i` of a WR. One that raises PARITY_DEBT for want of a WR.X in its cycle has emptied its slot and is written: R249 says so
of neither, and the fault is found when the cycle's commands are compared (DESIGN CHOICE, log 31). A WR.X of a degraded stripe takes
the retired stack's burst from its slot in the script's turn, before the copies (R247, Table 10.7); of that slot's DATAQ_OVERRUN and
the PARITY_DEBT of the stripe the former is raised (DESIGN CHOICE, log 31). -/
def State.wrBurst (s : State) (a : Burst) (q : BitVec 5) (p x : Bool) (i : Nat) : State :=
  let key := s.burstOf a i
  let s := s.nextBurst a.cnt.toNat i (.wr a q p x)
  if x then
    match s.lostStack with
    | none => s.noteStripe (.par none) key []
    | some f =>
      if f = parityStack a.row.toNat (burstPlace a i).1 then s
      else
        match s.emptySlot (64 * f + s.ctx.chan % 64) (slotOf q i) with
        | (none, s) => (s.raiseChan .dataqOverrun).noteStripe (.par none) key []
        | (some b, s) => s.noteStripe (.par (some b)) key []
  else
    let (b, s) := s.emptySlot s.ctx.chan (slotOf q i)
    match b with
    | none => s.raiseChan .dataqOverrun
    | some b =>
      let s := s.countPage s.ctx.chan a.row.toNat (burstPlace a i).1
      if p then
        match s.myChan.keep.find? fun e => e.1 == key with
        | none => s.raiseChan .parityDebt
        | some e =>
          match s.addDelta key (xorBytes e.2.1 b.data) with
          | none => s.raiseChan .parityDebt
          | some s => (s.writeBurst key b).modMyChan fun c => c.keepCopy key b.data s.now
      else
        let s := s.writeBurst key b
        if s.lostStack = some (parityStack a.row.toNat (burstPlace a i).1) then s else s.noteStripe .data key b.data

/-- WR, R236, R248 to R251. -/
def execWr (a : Burst) (q : BitVec 5) (p x : Bool) (s : State) : Out :=
  if s.ctx.idx ≠ 0 then ok (s.wrBurst a q p x s.ctx.idx)
  else
    let st := s.ctx.chan / 64
    let par := parityStack a.row.toNat a.b.toNat
    let lost := s.lostStack
    let degraded := match lost with
      | some f => f != par
      | none => false
    ok (s.booked (cmdBursts a s.now true)
      (firstBad [(s.notData a.row.toNat, .channelBounds), ((par == st) != x, .channelBounds), (p && lost == some st, .channelBounds),
        (x && q != 0 && !degraded, .scriptTiming)])
      fun s => s.wrBurst a q p x 0)

/-- The record burst of data tile 4 x row + B in the channel in hand: bank, row and column. -/
def sealPlace (b : BitVec 2) (row : BitVec 16) : Nat × Nat × Nat :=
  let t := 4 * row.toNat + b.toNat
  (t % 512 / 32, Config.sealRow + t / 512, t % 32)

/-- Remembers a burst read for a later step of its command. -/
def Chan.remember (c : Chan) (key : Nat) (d : List Byte) : Chan := { c with par := c.par ++ [(key, d)] }
/-- The burst remembered first under a key, and the channel without it. -/
def Chan.recall (c : Chan) (key : Nat) : List Byte × Chan :=
  match c.par.findIdx? fun e => e.1 == key with
  | some i => ((c.par.getD i (0, [])).2, { c with par := c.par.eraseIdx i })
  | none => ([], c)

/-- Latch `l` of a channel. -/
def Chan.latch (c : Chan) (l : Nat) : Latch := Table.get {} c.latches l

/-- SEALRD: the record is read now and loads the latch 23 ticks later, R257. -/
def execSealrd (b : BitVec 2) (row : BitVec 16) (l : Bool) (s : State) : Out :=
  let cn := s.ctx.chan
  let (k, r, col) := sealPlace b row
  let key := burstKey cn k r col
  let t := 4 * row.toNat + b.toNat
  if s.ctx.idx ≠ 0 then
    let (d, c) := s.myChan.recall key
    ok ((s.modMyChan fun _ => c).deferTick {} s.tick (.latch cn l.toNat { st := .read, tile := t, base := d, cur := d } true))
  else
    let o := s.myChan.latch (!l).toNat
    ok (s.booked [(s.now, false, k, r)]
      (firstBad [(s.notData row.toNat || s.retiredRow cn r, .channelBounds), (o.st != .empty && o.tile == t, .sealOrder)]) fun s =>
      (((s.readUe key).modMyChan fun c => c.remember key (s.burst key))).later 23
        { ctx := { s.ctx with idx := 1 }, instr := .sealrd b row l })

/-- SEALWR: the latch's record is written, with its delta, and the latch turns to READ at the end of the tick, R257. -/
def execSealwr (b : BitVec 2) (row : BitVec 16) (l : Bool) (s : State) : Out :=
  let cn := s.ctx.chan
  let (k, r, col) := sealPlace b row
  let key := burstKey cn k r col
  let v := s.myChan.latch l.toNat
  let st := cn / 64
  ok (s.booked [(s.now, true, k, r)]
    (firstBad [(s.notData row.toNat || s.retiredRow cn r, .channelBounds), (parityStack r k == st || s.lostStack == some st, .channelBounds),
      (v.st != .sealed || v.tile != 4 * row.toNat + b.toNat, .sealOrder)]) fun s =>
    match s.addDelta key (xorBytes v.base v.cur) with
    | none => s.raiseChan .parityDebt
    | some s => (s.putBurst key v.cur).deferTick {} s.tick (.latch cn l.toNat { v with base := v.cur, st := .read } false))

/-- PARRMW: parity burst i is read in t + i and written in t + 40 + i, R250. -/
def execParrmw (a : Burst) (s : State) : Out :=
  let go := fun (i : Nat) (s : State) =>
    let key := s.burstOf a i
    (((s.readUe key).modMyChan fun c => c.remember key (s.burst key)).nextBurst a.cnt.toNat i (.parrmw a)).later 40
      { ctx := { s.ctx with idx := i }, instr := .parrmwWrite s.ctx.chan a i }
  if s.ctx.idx ≠ 0 then ok (go s.ctx.idx s)
  else
    ok (s.booked (cmdBursts a s.now false ++ cmdBursts a (s.now + 40) true)
      (firstBad [(s.notSeal a.row.toNat, .channelBounds), (parityStack a.row.toNat a.b.toNat != s.ctx.chan / 64, .channelBounds)]) (go 0))

/-- PARRMW_WRITE: the parity burst with the deltas present at the end of the tick before, which are freed (R250). -/
def execParrmwWrite (cn : Nat) (a : Burst) (i : Nat) (s : State) : Out :=
  let s := { s with ctx := { s.ctx with chan := cn } }
  let key := s.burstOf a i
  let (d, c) := s.myChan.recall key
  let l := Table.get [] s.deltas (cn % 64)
  let hit := fun (e : Delta) => e.key == key && decide (e.at_ < s.now)
  let v := (l.filter hit).foldl (fun v e => xorBytes v e.data) d
  ok { (s.modMyChan fun _ => c).putBurst key v with deltas := Table.put s.deltas (cn % 64) (l.filter fun e => !hit e) }

/-! ## Guest windows and the script's own commands -/

/-- GOPEN, R253. -/
def execGopen (len : BitVec 28) (s : State) : Out :=
  let t := s.now
  ok (s.command (firstBad [(!s.myChan.idle (List.range 16) t, .scriptTiming)]) fun s => s.modMyChan fun c =>
    { c with guest := some (if len = 0 then none else some (t + len.toNat)), heldAt := t })

/-- A guest window of channel `cn` closes: the requests that wait there have waited one more (01_machine.md R35). -/
def State.closeWindow (s : State) (cn : Nat) : State :=
  { s with fars := s.fars.map fun (e : Nat × Option Far) => (e.1, e.2.map fun (f : Far) =>
      if f.chan == some cn && decide (f.at_ ≤ s.tick) then { f with age := f.age + 1 } else f) }.modChan cn fun c => { c with guest := none }

/-- GCLOSE, R253. With no window open nothing closes, and the requests that wait at the channel have waited one window more: R253
names no fault and no effect for that case (DESIGN CHOICE, log 30). -/
def execGclose (s : State) : Out := ok (s.closeWindow s.ctx.chan)

/-- GUEST_WINDOW_END, R253. -/
def execGuestWindowEnd (s : State) : Out := ok (s.closeWindow s.ctx.chan)

/-- Index of the block that a FETCH names, R240: 4t + c/4 with t = 4 × row + B. -/
def fetchIndex (b : BitVec 2) (row : BitVec 16) (c : BitVec 5) : Nat := 4 * (4 * row.toNat + b.toNat) + c.toNat / 4

/-- FETCH: the sixteen bursts of a block are read from now on, R240. The block's index locates it (R234), so that a column of
16 or above names a block of the next tile (DEDUCED, log 30). -/
def execFetch (b : BitVec 2) (row : BitVec 16) (c : BitVec 5) (s : State) : Out :=
  let ix := fetchIndex b row c
  let t := ix / 4
  let row' := t / 4
  let place := fun (i : Nat) => (4 * (i % 4) + t % 4, 4 * (ix % 4) + i / 4)
  let go := fun (i : Nat) (s : State) =>
    let key := burstKey s.ctx.chan (place i).1 row' (place i).2
    let d := s.burst key
    ((s.readUe key).modMyChan fun k => { k with fbuf := k.fbuf ++ d }).nextBurst 15 i (.fetch b row c)
  if s.ctx.idx ≠ 0 then ok (go s.ctx.idx s)
  else
    let k := s.myChan
    let t := s.now
    ok (s.booked ((List.range 16).map fun i => (t + i, false, (place i).1, row'))
      (firstBad [(s.notData row', .channelBounds), (k.fetch.isSome || k.next.isSome, .scriptTiming)]) fun s =>
      go 0 ((s.modMyChan fun k => { k with fetch := some (ix, t), fbuf := [] }).later 39
        { ctx := s.ctx, instr := .fetchComplete }))

/-- A block from its 512 bytes. -/
def blockOf (index : Nat) (bs : List Byte) : Block :=
  let ws := (lanesOf 8 bs).map (BitVec.ofNat 64)
  { index := index, hdr := ws.headD 0, words := ws.drop 1 }

/-- Command count of a block. -/
def Block.count (b : Block) : Nat := (bits b.hdr 50 6).toNat
/-- Base cycle of a block. -/
def Block.base (b : Block) : Nat := (bits b.hdr 0 48).toNat
/-- Command word `i`, 1..n. -/
def Block.word (b : Block) (i : Nat) : BitVec 64 := b.words.getD (i - 1) 0
/-- Stamp of command `i`. -/
def Block.stamp (b : Block) (i : Nat) : Nat := b.base + cmdStamp (b.word i)
/-- Opcode of command `i`. -/
def Block.opcode (b : Block) (i : Nat) : Nat := (bits (b.word i) 60 4).toNat
/-- The header's checks, Table 10.3. -/
def Block.bad (b : Block) (last : Nat) : Bool :=
  bits b.hdr 56 8 != 0 || b.count == 0 || bits b.hdr 48 2 != 0 || decide (b.base < last)

/-- FETCH_COMPLETE: the block enters the buffer; a command of it stamped by now raises SCRIPT_TIMING, unless a GSYNC puts
it into the next epoch (R240). -/
def execFetchComplete (s : State) : Out :=
  let c := s.myChan
  match c.fetch with
  | none => ok s
  | some (ix, _) =>
    let b := blockOf ix c.fbuf
    let s := s.modMyChan fun c => { c with next := some b, fetch := none, fbuf := [] }
    let epoch := c.script != .running || c.cur.opcode c.cur.count == 14
    let x := s.now - c.epoch
    match (if epoch then none else (List.range b.count).find? fun i => decide (b.stamp (i + 1) ≤ x)) with
    | none => ok s
    | some i => ok (({ s with ctx := { s.ctx with op := ix, head := i + 1, req := b.stamp (i + 1) } }).raiseChan .scriptTiming)

/-- The channel's script stops; after its run's end the channel's latches are emptied, and the run's completion may follow
(R241, R257). -/
def State.stopScript (s : State) (q : Script) : State :=
  let s := s.modMyChan fun c => { c with script := q, heldAt := s.now }
  match s.myChan.run with
  | some r => match (s.run r).st with
    | .runon _ =>
      { s.modMyChan (fun c => { c with latches := [] }) with todo := s.todo ++ [{ ctx := { run := r }, instr := .runEnd }] }
    | _ => s
  | none => s

/-- GSYNC: the last command of its block; the script waits for the run's next gate, R241. -/
def execGsync (s : State) : Out :=
  let c := s.myChan
  ok (s.command (firstBad [(!c.idle (List.range 16) s.now || s.ctx.head != c.cur.count, .scriptTiming)]) fun s =>
    s.stopScript .sync)

/-- END, R241. -/
def execScriptEnd (s : State) : Out :=
  ok (s.command (firstBad [(!s.myChan.idle (List.range 16) s.now, .scriptTiming)]) fun s => s.stopScript .ended)

/-- The row that a script command names. -/
def cmdRow : Instr → Option Nat
  | .act _ _ r => some r.toNat
  | .rd a _ _ _ => some a.row.toNat
  | .wr a _ _ _ => some a.row.toNat
  | .parrmw a => some a.row.toNat
  | .sealrd _ r _ => some r.toNat
  | .sealwr _ r _ => some r.toNat
  | .fetch _ r _ => some r.toNat
  | _ => none

/-- The pages of a channel that the commands of a block name. -/
def Block.pages (b : Block) : List Nat :=
  ((List.range b.count).filterMap fun i => ((decodeCmd (b.word (i + 1))).bind cmdRow).map (· / 4)).eraseDups

/-- The buffered block `b` becomes current; the pages of the one before stay pinned (10_channels.md R268). -/
def Chan.turn (c : Chan) (b : Block) : Chan := { c with cur := b, next := none, ix := 0, named := (c.named ++ c.cur.pages).eraseDups }

/-- EPOCH_START: the run has passed a gate; the buffered block runs in the new epoch, whose time starts at the gate tick
(R241). With no block buffered the script stops, and SCRIPT_TIMING is raised at the gate (R240 exempts a block that ends with GSYNC
from its fault, and R241 does not speak of this case; DESIGN CHOICE, log 30). -/
def execEpochStart (s : State) : Out :=
  let c := s.myChan
  let g := ((c.run.map s.run).bind (·.gateTick)).getD s.now
  match c.next with
  | none => ok ((s.modMyChan fun c => { c with script := .none_ }).raiseChan .scriptTiming)
  | some b => ok ((s.closeWindow s.ctx.chan).modMyChan fun c =>
      { c.turn b with script := .running, epoch := g, lastStamp := 0 })

/-! ## Ages and refresh -/

/-- SLOT_AGE_EXPIRY: a slot full for 64 ticks after its fill, R247. -/
def execSlotAgeExpiry (s : State) : Out := ok (s.raiseChan .dataqOverrun)
/-- KEPT_COPY_EXPIRY: copies older than 512 ticks are dropped, R250. -/
def execKeptCopyExpiry (s : State) : Out :=
  ok (s.modMyChan fun c => { c with keep := c.keep.filter fun e => decide (s.now ≤ e.2.2 + 512) })
/-- DELTA_AGE_EXPIRY: a delta present 512 ticks after its creation, on its data channel, R250. -/
def execDeltaAgeExpiry (s : State) : Out := ok (s.raiseChan .parityDebt)

/-- The channel refreshes autonomously and serves guest traffic: it serves no run, its run is frozen, its script is not
running, or a guest window is open (R234, R241, R244, R253, R362). A channel armed with a script serves no guest traffic between
arming and T0 (R234 and R254 do not speak of that time; DESIGN CHOICE, log 30). -/
def State.chanOpen (s : State) (cn : Nat) : Bool :=
  let c := s.chan cn
  match c.run with
  | none => true
  | some r => (match (s.run r).st with
      | .frozen _ => true
      | _ => false) || c.script != .running || c.guest.isSome

/-- REFRESH_INTERVAL: every debt rises by 1, unless the controller refreshes autonomously; a debt of 9 raises
REFRESH_DEBT (R244). -/
def execRefreshInterval (s : State) : Out :=
  if s.chanOpen s.ctx.chan then ok s
  else
    let s := s.modMyChan fun c => (List.range 16).foldl (fun c k => c.modBank k fun b => { b with debt := b.debt + 1 }) c
    ok (if (List.range 16).any fun k => decide (9 ≤ (s.myChan.bank k).debt) then s.raiseChan .refreshDebt else s)

/-! ## The order within a tick -/

/-- A channel whose run's scripts go on at the present tick. -/
def State.chanLive (s : State) (cn : Nat) : Bool :=
  match (s.chan cn).run with
  | none => false
  | some r =>
    let ru := s.run r
    (match ru.st with
      | .live => true
      | .runon _ => true
      | _ => false) && decide (ru.gatedTill ≤ s.runTick r)

/-- A step on channel `cn` against its current block. -/
def State.onChan (s : State) (cn i : Nat) (w : Instr) : Work :=
  { ctx := { chan := cn, idx := i, op := (s.chan cn).cur.index }, instr := w }

/-- What ages, windows, gates and refresh make due on a channel. The debt of a script that stops after its run's end is settled
without a fault (R241). -/
def State.chanEvents (s : State) (cn : Nat) : List Work :=
  if !s.chanLive cn then []
  else
    let c := s.chan cn
    let t := s.chanTime cn
    let gate := ((c.run.map s.run).bind (·.gateTick)).any fun g => decide (c.heldAt < g)
    let win := match c.guest with
      | some (some e) => decide (e ≤ t)
      | some none => gate
      | none => false
    let live := match (c.run.map s.run).map (·.st) with
      | some .live => true
      | _ => false
    (if c.keep.any fun e => decide (e.2.2 + 512 < t) then [s.onChan cn 0 .keptCopyExpiry] else []) ++
    (c.slots.filterMap fun e => if e.2.any fun q => decide (q.at_ + 65 ≤ t) then some (s.onChan cn e.1 .slotAgeExpiry) else none) ++
    (if (live || c.script == .running) && (Table.get [] s.deltas (cn % 64)).any fun e => e.chan == cn && decide (e.at_ + 513 ≤ t)
      then [s.onChan cn (cn % 64) .deltaAgeExpiry] else []) ++
    (if win then [s.onChan cn 0 .guestWindowEnd] else []) ++
    (if 0 < t && t % Config.trefi == 0 then [s.onChan cn 0 .refreshInterval] else []) ++
    (if c.script == .sync && live && gate then [s.onChan cn 0 .epochStart] else [])

/-- The commands of the current block from `i` on whose stamps have come, at most `f`; an undecodable word, or one whose
stamp lies below the one before it, gives no step. With them the next command and the last stamp. A command stamped equal to the
last stamp of the block before, which Table 10.3 allows, issues in the tick in which its block becomes current, one after that
stamp (R240 makes a block current in the cycle after that stamp and does not say when such a command issues; DESIGN CHOICE, log
30). -/
def dueCmds (cn : Nat) (b : Block) (x : Nat) : Nat → Nat → Nat → List (Work × Bool) × Nat × Nat
  | 0, i, l => ([], i, l)
  | f + 1, i, l =>
    if b.count < i || x < b.stamp i then ([], i, l)
    else
      let ctx : Ctx := { chan := cn, op := b.index, head := i, req := b.stamp i }
      let w : Work × Bool := match decodeCmd (b.word i) with
        | some c => ({ ctx := ctx, instr := c }, true)
        | none => ({ ctx := ctx, instr := .nop }, false)
      if b.stamp i < l then dueCmds cn b x f (i + 1) l
      else if b.opcode i = 15 then ([w], b.count + 1, b.stamp i)
      else
        let (r, j, m) := dueCmds cn b x f (i + 1) (b.stamp i)
        (w :: r, j, m)

/-- Raises SCRIPT_TIMING against word `i` of the current block of channel `cn`. -/
def State.scriptBad (s : State) (cn i st : Nat) : State :=
  let s := { s with ctx := { chan := cn, op := (s.chan cn).cur.index, head := i, req := st } }
  s.raiseChan .scriptTiming

/-- The buffered block becomes current when the current one has issued its last command (R240). -/
def Chan.switch (c : Chan) : Chan :=
  match c.next with
  | some b => if c.script == .running && decide (1 ≤ c.ix) && decide (c.cur.count < c.ix) then c.turn b else c
  | none => c

/-- The script of channel `cn` at the present tick: the block switch and the header's checks, the bursts of earlier
commands, then the commands whose stamps have come (R234 to R240). A block whose last command issues before the FETCH of the
next is complete ends with no block buffered. -/
def State.chanCommands (s : State) (cn : Nat) : State :=
  if !s.chanLive cn then s
  else
    let t := s.chanTime cn
    let s := s.modChan cn fun c => { c with hist := c.hist.filter fun e => decide (t ≤ e.1 + 20)
                                            emptied := c.emptied.filter fun e => e.2 == t }
    let due : List Due := (s.chan cn).bursts.filter fun d => decide (d.due ≤ t)
    let s := s.modChan cn fun c => { c with bursts := c.bursts.filter fun d => !decide (d.due ≤ t) }
    let s := { s with todo := s.todo ++ due.map Due.work }
    let s := s.modChan cn Chan.switch
    let c := s.chan cn
    if c.script != .running then s
    else
      let x := t - c.epoch
      if c.ix = 0 && c.cur.bad c.lastStamp then (s.modChan cn fun c => { c with script := .none_ }).scriptBad cn 0 0
      else
        let b := c.cur
        let early := (List.range (b.count - 1)).find? fun i =>
          decide (b.stamp (i + 2) < b.stamp (i + 1)) && decide (b.stamp (i + 2) ≤ x)
        let s := match early with
          | some i => s.scriptBad cn (i + 2) (b.stamp (i + 2))
          | none => s
        let (ws, j, l) := dueCmds cn b x 64 (max 1 c.ix) c.lastStamp
        let s := (ws.filter fun w => !w.2).foldl (fun s w => s.scriptBad cn w.1.ctx.head w.1.ctx.req) s
        let short := decide (b.count < j) && decide (c.ix ≤ b.count) && b.opcode b.count != 14 && c.next.isNone &&
          !(c.fetch.any fun f => decide (f.2 + 39 ≤ t)) && !(ws.any fun w => match w.1.instr with
            | .scriptEnd => true
            | _ => false)
        let s := if short then s.scriptBad cn b.count (b.stamp b.count) else s
        { s.modChan cn (fun c => { c with ix := j, lastStamp := l }) with todo := s.todo ++ (ws.filter (·.2)).map (·.1) }

/-- Numbers of the channels that serve a run. -/
def State.activeChans (s : State) : List Nat := (s.chans.filter fun e => e.2.run.isSome).map (·.1)

/-- Resolves one burst of the stripe checks (R249, R251). A record that RD.X reads into the latch of the retired stack's channel is
not held against its other latch: Table 10.7 says that it enters the latch, and R257's SEAL_ORDER speaks of SEALRD (DESIGN CHOICE,
log 31). Where the eleven RD.X of a cycle name different slots the XOR lands in the slot that the lowest channel's names: Table 10.7
says slot q alone (DESIGN CHOICE, log 31). -/
def State.resolveStripe (s : State) (all : List StripeOp) (o : StripeOp) : State :=
  let s := { s with ctx := o.ctx }
  let same := all.filter fun e => stripeBurst e.key 0 == stripeBurst o.key 0 && e.kind != .poison
  let datas := same.filter fun e => e.kind == .data
  let lost := s.lostStack
  match o.kind with
  | .data => if same.any fun e => match e.kind with
      | .par _ => true
      | _ => false then s else s.raiseChan .parityDebt
  | .par b =>
    let x := datas.foldl (fun v e => xorBytes v e.data) (List.replicate 32 0)
    match lost, b with
    | some _, some b =>
      if datas.length = 10 then (s.putBurst o.key (xorBytes x b.data)).setPoison o.key false else s.raiseChan .parityDebt
    | some _, none => s
    | none, _ => if datas.length = 11 then (s.putBurst o.key x).setPoison o.key false else s.raiseChan .parityDebt
  | .poison => s
  | .read q =>
    let rs := same.filter fun e => match e.kind with
      | .read _ => true
      | _ => false
    match lost with
    | none => s
    | some f =>
      if rs.length ≠ 11 then s.raiseChan .scriptTiming
      else if (rs.map (·.chan)).foldl min o.chan ≠ o.chan then s
      else
        let cf := 64 * f + o.chan % 64
        let d := rs.foldl (fun v e => xorBytes v e.data) (List.replicate 32 0)
        let row := o.key / 512 % 49152
        let tile := (row - Config.sealRow) * 512 + o.key / 32 % 16 * 32 + o.key % 32
        let work : Work :=
          if row < Config.sealRow then
            { ctx := { o.ctx with chan := cf, burst := stripeBurst o.key f },
              instr := .rdLanding cf q d (rs.any fun e => s.isPoisoned e.key) }
          else { ctx := { o.ctx with chan := cf, idx := 1 },
                 instr := .sealrd (BitVec.ofNat 2 tile) (BitVec.ofNat 16 (tile / 4)) (q % 2 == 1) }
        s.modChan cf fun c =>
          { c.remember (stripeBurst o.key f) d with bursts := c.bursts ++ [{ due := s.chanTime cf + 25, work := work }] }

/-- A burst of the stripe checks that was poisoned in its slot, R252. -/
def StripeOp.bad (o : StripeOp) : Bool :=
  match o.kind with
  | .poison => true
  | .par b => b.any (·.poison)
  | _ => false

/-- The stripe checks at the end of a tick; a WR of a poisoned burst poisons its stripe (R252). -/
def State.stripeEnd (s : State) : State :=
  let all := s.stripe
  let s := all.foldl (fun s o => s.resolveStripe all o) { s with stripe := [] }
  (all.filter StripeOp.bad).foldl (fun s o =>
    (List.range 12).foldl (fun s st => s.setPoison (stripeBurst o.key st) true) s) s

end Sys2Proof.Machine
end

