-- ==== Sys2Proof/Machine/Seal.lean ====
section
/-! DEFINITION. CHR and CHW: bursts between a channel's data queue and the pool, the decanter on their way, and seals
(10_channels.md R252, R255 to R266). An operation runs by its own cycles, counted from its start; an elastic wait holds
all of them. -/

namespace Sys2Proof.Machine

/-! ## Issue, R258 to R260 -/

/-- The channel lies in the allotment of the run of core `c`, R232. -/
def State.allotted (s : State) (c cn : Nat) : Bool :=
  decide (cn < Config.channels) && ((s.runOf c).map fun r => r.last.channels.getLsbD (cn % 64)).getD false

/-- The checks of R260, then the form goes to its engine. -/
def State.issueChan (s : State) (i : Instr) (chan : BitVec 10) (xa : XReg) (sealed_ : Bool) (bytes : Nat) (o : Op) : State :=
  s.onEngine i fun s =>
    let a := s.xr xa
    if !s.allotted s.ctx.core chan.toNat then s.raise .channelBounds (chan.setWidth 64) 0
    else if !s.me.inScratch a bytes || (sealed_ && a.toNat % 1024 != 0) then s.raise .poolBounds a 0
    else s.enqueue { o with instr := i, cs := chan.toNat, hs := chanHops s.ctx.core chan.toNat, ad := a.toNat }

/-- CHR. -/
def execChr (a : ChrArgs) (s : State) : Out :=
  let n := a.n.toNat * (if a.s || a.dec.isSome then 4096 else 32)
  ok (s.issueChan (.chr a) a.chan a.xa a.s n
    { tag := bits (s.xr a.xc) 0 16, follow := s.followSyl a.fo, fut := [(s.ctx.core, (s.xr a.xa).toNat, n)] })

/-- CHW. -/
def execChw (a : ChwArgs) (s : State) : Out :=
  ok (s.issueChan (.chw a) a.chan a.xa a.s (a.n.toNat * (if a.s then 4096 else 32)) {})

/-! ## The engine's occupation -/

/-- The operation in hand leaves its engine to the next in the present cycle (R215); C0's takes its turn before C1's steps
(R247). -/
def State.leaveEngine (s : State) (c n : Nat) (o : Op) : State :=
  let k := s.core c
  let q := (Table.get [] k.copyQ o.eng).filter (· != n)
  let s := s.modCore c fun k => { k with copyQ := Table.put k.copyQ o.eng q, copyFree := Table.put k.copyFree o.eng k.cyc }
  match q with
  | [] => s
  | m :: _ =>
    let p := s.op c m
    let w : Work := { ctx := { core := c, op := m }, instr := startInstr p.instr }
    if p.src.cyc < k.cyc then { s with todo := if o.src.slot = 5 then w :: s.todo else s.todo ++ [w] } else s.at c (k.cyc + 1) w

/-- The granules that chunk `j` of `n` chunks of `w` bytes from `d` completes, R212. -/
def doneGranules (d w n j : Nat) : List Nat :=
  let lo := d + w * j
  ([lo / 1024, (lo + w - 1) / 1024].eraseDups).filter fun g => j + 1 == n || decide (g < (lo + w) / 1024)

/-- A chunk range touches a granule. -/
def touchesGranule (d w j g : Nat) : Bool := decide ((d + w * j) / 1024 ≤ g) && decide (g ≤ (d + w * (j + 1) - 1) / 1024)

/-- The mark of a poisoned burst that a CHR collects: the run tick of the sample, and the burst. -/
def ueMark (tick key : Nat) : List Byte := leBytes 8 tick ++ leBytes 8 key

/-- Raises MEM_UE of a CHR in its cycle `t` against the first poisoned of the bursts in hand, with the sample's run tick
and the burst's HBM address (16_faults.md Table 16.3, which does not say in what form; DESIGN CHOICE, log 27); its cycles `first` .. `last`, which write from them, are performed again after a THAW (R373). -/
def State.raiseUe (s : State) (o : Op) (bursts : List (List Byte × List Byte)) (t first last : Nat) : State :=
  let c := o.src.core
  let k := s.core c
  let mark := ((bursts.find? fun e => !e.2.isEmpty).map (·.2)).getD []
  let s := match k.run with
    | some r => s.modRun r fun (u : Run) =>
        let redo : Rewrite := { op := o, first := first, last := last, cyc := k.cyc + first - t }
        { u with rewrites := u.rewrites ++ [redo] }
    | none => s
  let key := ofLe (mark.drop 8)
  s.raiseMem c { o.src with eng := true } (.hbmBurst (key / (49152 * 512)) (key % (49152 * 512))) (BitVec.ofNat 64 (burstAddr key))
    (BitVec.ofNat 64 (ofLe (mark.take 8)))

/-! ## CHR -/

/-- Bursts of a container under the table in force, 0 when it is invalid or above 32 units (R262). -/
def Op.containerBursts (o : Op) : Nat :=
  match o.tab with
  | some t => if t.z ≤ 32 then 2 * t.z else 0
  | none => 0

/-- The burst that a CHR collects in its cycle `t`. -/
def chrTakes (a : ChrArgs) (o : Op) (t : Nat) : Option Nat :=
  if a.dec.isSome then
    (if t / 64 < a.n.toNat && decide (t % 64 < o.containerBursts) then some (o.containerBursts * (t / 64) + t % 64) else none)
  else if t < a.n.toNat * (if a.s then 128 else 1) then some t
  else none

/-- Cycles of engine and of completion, R261 to R263. -/
def chrD (a : ChrArgs) : Nat := a.n.toNat * (if a.s then 128 else if a.dec.isSome then 64 else 1)
/-- Completion cycle after the start. -/
def chrC (a : ChrArgs) (o : Op) : Nat := chrD a + (if a.s then 33 else if a.dec.isSome then 65 else 1) + o.hs

/-- Collected bursts `f` .. `f + n − 1`: bytes and poison. -/
def Op.collected (o : Op) (f n : Nat) : List Byte × Bool :=
  let l := (o.cols.drop f).take n
  (l.flatMap (·.1), l.any fun e => !e.2.isEmpty)

/-- The record's key and the plaintext of a tile, `none` when the verification fails (R255, R256). -/
def State.openTile (s : State) (part cn tile : Nat) (rec_ cipher : List Byte) : Option (List Byte) :=
  let ks := (rec_.getD 20 0).toNat
  let p := s.part part
  if ks ≥ 128 || ks / 2 != part || (rec_.drop 21).any (· != 0) then none
  else
    match (if ks % 2 = 1 then p.key1 else p.key0) with
    | none => none
    | some key =>
      let pi := leBytes 8 (cn * 2 ^ 18 + tile)
      let nonce := pi ++ (rec_.drop 16).take 4
      if gcmTag key nonce (pi ++ [BitVec.ofNat 8 ks]) cipher = rec_.take 16 then some (gcmCrypt key nonce cipher 0) else none

/-- SEAL_VERDICT: tile `idx` of the CHR.S in hand under the latch as it stands; of a tile that fails the record is kept (R263,
R252). -/
def execSealVerdict (s : State) : Out :=
  let c := s.ctx.core
  let n := s.ctx.op
  let o := s.myOp
  let k := s.ctx.idx
  match o.instr with
  | .chr a =>
    let l := (s.chan o.cs).latch ((a.l.toNat + k) % 2)
    let (bs, p) := o.collected (128 * k) 128
    let r := if l.st == .empty || p then none else s.openTile (s.partOf c) o.cs l.tile l.cur bs
    let kept := if l.st == .empty then [] else l.cur
    ok (s.setOp c n (some { o with outs := o.outs ++ [(r.getD kept, r.isNone, p)],
                                   regs := o.regs ++ [o.cs * 2 ^ 18 + l.tile] }))
  | _ => ok s

/-- The tags that a plain CHR or one with DEC writes in its cycle `t` (R212, R252): of the granules that its write completes and
in which it has written, with whether a burst was poisoned or a container failed. -/
def chrTags (a : ChrArgs) (o : Op) (t : Nat) : List (Nat × Bool) :=
  let n := a.n.toNat
  let tags := fun (gs : List Nat) (bad : Nat → Bool) => gs.map fun g => (g, bad g)
  if a.s then []
  else if a.dec.isSome then
    let u := t - (66 + o.hs)
    if t < 66 + o.hs ∨ 64 * n ≤ u then []
    else tags (doneGranules o.ad 64 (64 * n) u) fun g =>
      (o.outs.zipIdx).any fun e => (e.1.2.1 || e.1.2.2) && touchesGranule o.ad 4096 e.2 g
  else
    let j := t - (2 + o.hs)
    if t < 2 + o.hs ∨ n ≤ j then []
    else
      let wrote := fun (g : Nat) => o.cols.zipIdx.any fun e => !e.1.1.isEmpty && touchesGranule o.ad 32 e.2 g
      tags ((doneGranules o.ad 32 n j).filter wrote) fun g =>
        o.cols.zipIdx.any fun e => !e.1.2.isEmpty && touchesGranule o.ad 32 e.2 g

/-- Defers the tags of a CHR's cycle `t`. -/
def State.chrTag (s : State) (c : Nat) (a : ChrArgs) (o : Op) (t : Nat) : State :=
  (chrTags a o t).foldl (fun s e => s.deferTag o.src 0 c e.1 e.2 o.tag) s

/-- The pool write of a CHR in its cycle `t`, with tags and the faults of its data (R252, R261 to R263). -/
def State.chrWrite (s : State) (c : Nat) (a : ChrArgs) (o : Op) (t : Nat) : State :=
  let put := fun (s : State) (j w : Nat) (bs : List Byte) => s.deferOp o.src 0 (.pool c (o.ad + w * j) (someBytes bs) false)
  let n := a.n.toNat
  if a.s then
    let u := t - (130 + o.hs)
    let k := u / 128
    let i := u % 128
    let (bs, failed, poison) := o.outs.getD k ([], true, false)
    if t < 130 + o.hs || n ≤ k || 32 ≤ i then s
    else if failed then
      (if i = 0 then
        let s := (List.range 4).foldl (fun s g => s.markTag o.src 0 c (o.ad / 1024 + 4 * k + g)) s
        if poison then s.raiseUe o ((o.cols.drop (128 * k)).take 128) t t (t + 31)
        else s.raiseOp .sealFail o.src (BitVec.ofNat 64 (o.regs.getD k 0))
       else s)
    else
      let s := put s (32 * k + i) 128 ((bs.drop (128 * i)).take 128)
      if i % 8 = 7 then s.deferOp o.src 0 (.tag c (o.ad / 1024 + 4 * k + i / 8) o.tag) else s
  else if a.dec.isSome then
    let u := t - (66 + o.hs)
    let k := u / 64
    let q := u % 64
    let (bs, failed, poison) := o.outs.getD k ([], true, false)
    if t < 66 + o.hs || n ≤ k then s
    else
      let s := (put s u 64 ((bs.drop (64 * q)).take 64)).chrTag c a o t
      if q = 63 && failed then s.raiseOp .decodeOverrun o.src 0
      else if q = 63 && poison then
        s.raiseUe o ((o.cols.drop (o.containerBursts * k)).take o.containerBursts) t (t - 63) t
      else s
  else
    let j := t - (2 + o.hs)
    if t < 2 + o.hs || n ≤ j then s
    else
      let (bs, p) := o.cols.getD j ([], [])
      let s := (if bs.isEmpty then s else put s j 32 bs).chrTag c a o t
      if p.isEmpty then s else s.raiseUe o [(bs, p)] t t t

/-- The CHR of a rewrite with the bursts that have been repaired, and what they decode or unseal to (16_faults.md R373). -/
def State.repaired (s : State) (w : Rewrite) : Op :=
  let o := w.op
  match o.instr with
  | .chr a =>
    let o := { o with cols := o.cols.map fun e =>
      let key := ofLe (e.2.drop 8)
      if e.2.isEmpty || s.isPoisoned key then e else (s.burst key, []) }
    if a.s then
      let k := (w.first - (130 + o.hs)) / 128
      let cur := (o.outs.getD k ([], true, false)).1
      let (bs, p) := o.collected (128 * k) 128
      let r := if p || cur.isEmpty then none else s.openTile (s.partOf o.src.core) o.cs (o.regs.getD k 0 % 2 ^ 18) cur bs
      { o with outs := o.outs.set k (r.getD cur, r.isNone, p) }
    else if a.dec.isSome then
      let k := (w.first - (66 + o.hs)) / 64
      let (bs, p) := o.collected (o.containerBursts * k) o.containerBursts
      let r := decant o.tab bs
      { o with outs := o.outs.set k (r.getD (List.replicate 4096 0), r.isNone, p) }
    else o
  | _ => o

/-- Bytes of the pool that a CHR has still to write after its cycle `t`. -/
def chrFut (a : ChrArgs) (c : Nat) (o : Op) (t : Nat) : List (Nat × Nat × Nat) :=
  let u := t + 1 - (130 + o.hs)
  let w := if a.s then 4096 * (u / 128) + 128 * min 32 (u % 128) else if a.dec.isSome then 64 * (t + 1 - (66 + o.hs)) else 32 * (t + 1 - (2 + o.hs))
  let all := a.n.toNat * (if a.s || a.dec.isSome then 4096 else 32)
  if w < all then [(c, o.ad + w, all - w)] else []

/-- Cycle `t` of the CHR: its collection, the containers and tiles that are complete, its write, and the next cycle. The latch of
a tile is sampled once, in the first try of the cycle after the tile's last burst, as of the end of the one before (R263). -/
def State.chrCycle (s : State) (c n : Nat) (a : ChrArgs) (o : Op) (t : Nat) : State :=
  let k := s.core c
  let again := fun (s : State) i => s.at c (k.cyc + 1) { ctx := { core := c, op := n, idx := i }, instr := .chrCollect }
  let verdict := fun (s : State) =>
    if a.s && t % 128 == 0 && decide (0 < t) && t / 128 ≤ a.n.toNat && !o.waiting then
      { s with todo := { ctx := { core := c, op := n, idx := t / 128 - 1 }, instr := .sealVerdict } :: s.todo }
    else s
  let go := fun (s : State) (o : Op) =>
    let b := o.containerBursts
    let o := { o with waiting := false }
    let o := if a.dec.isSome && t / 64 < a.n.toNat && t % 64 == max b 1 - 1 then
        let (bs, p) := o.collected (b * (t / 64)) b
        let r := if b = 0 then none else decant o.tab bs
        { o with outs := o.outs ++ [(r.getD (List.replicate 4096 0), r.isNone, p)] }
      else o
    let s := s.setOp c n (some { o with fut := chrFut a c o t })
    let s := verdict (s.chrWrite c a o t)
    let s := if t = chrD a then s.leaveEngine c n o else s
    if t = chrC a o then s.finishOp c n o else again s (t + 1)
  match chrTakes a o t with
  | none => go s o
  | some j =>
    let slot := (a.q.toNat + j) % 32
    let (b, s') := s.emptySlot o.cs slot
    match b with
    | some b => go s' { o with cols := o.cols ++ [(b.data, if b.poison then ueMark (s.runTick (k.run.getD 0)) b.key else [])] }
    | none =>
      let twice := (s.chan o.cs).emptied.any fun e => e.1 == slot && e.2 == s.chanTime o.cs
      if k.elastic && !twice then verdict (again (s.setOp c n (some { o with waiting := true })) t)
      else go (s.raiseOp .dataqOverrun o.src 0) { o with cols := o.cols ++ [([], [])] }

/-- CHR_COLLECT: cycle `idx` of the CHR in hand; its first starts the operation with its table (R247, R261 to R263,
R266). With plane 1 in the context the writes alone of a cycle that a THAW performs again, with plane 2 its tags alone
(16_faults.md R373). -/
def execChrCollect (s : State) : Out :=
  let c := s.ctx.core
  let n := s.ctx.op
  let o := s.myOp
  match o.instr with
  | .chr a =>
    if s.ctx.plane = 1 then ok (s.chrWrite c a o s.ctx.idx)
    else if s.ctx.plane = 2 then ok (s.chrTag c a o s.ctx.idx)
    else if o.st.isNone then
      let o := { o with st := some s.me.cyc, tab := (a.dec.map fun d => Table.get none s.me.dectab d.toNat).getD none }
      ok (s.chrCycle c n a o 0)
    else ok (s.chrCycle c n a o s.ctx.idx)
  | _ => ok s

/-! ## CHW -/

/-- Bursts of a CHW. -/
def chwN (a : ChwArgs) : Nat := a.n.toNat * (if a.s then 128 else 1)
/-- Completion cycle after the start, R264, R265. -/
def chwC (a : ChwArgs) (o : Op) : Nat := chwN a + (if a.s then 2 else 1) + o.hs

/-- What a CHW.S does with tile `k` from its latch: the parameters of its seal, or the fault (R265). -/
def State.sealTile (s : State) (c : Nat) (a : ChwArgs) (o : Op) (k : Nat) :
    Except (FCode × X) (BitVec 256 × Nat × Nat × Nat) :=
  let l := (s.chan o.cs).latch ((a.l.toNat + k) % 2)
  let p := s.partOf c
  let pt := s.part p
  let pi := o.cs * 2 ^ 18 + l.tile
  let ver := ofLe ((l.cur.drop 16).take 4)
  if l.st == .empty || decide (l.load + 1024 < s.runTick ((s.core c).run.getD 0)) then .error (.sealOrder, 0)
  else if ver = 0xFFFFFFFF then .error (.sealWrap, BitVec.ofNat 64 pi)
  else .ok (((if pt.current then pt.key1 else pt.key0).getD 0), pi, ver + 1, 2 * p + pt.current.toNat)

/-- Nonce of a seal, R256. -/
def sealNonce (pi ver : Nat) : List Byte := leBytes 8 pi ++ leBytes 4 ver

/-- The burst that leaves: plain, or encrypted (R264, R265). -/
def chwBurst (a : ChwArgs) (o : Op) (j : Nat) : Option (List Byte) :=
  let bs := (o.cols.getD j ([], [])).1
  if a.s then (o.seals.getD (j / 128) none).map fun p => gcmCrypt p.1 (sealNonce p.2.1 p.2.2.1) bs (2 * (j % 128))
  else some bs

/-- SEAL_LATCH_UPDATE: tile `idx` of the CHW.S in hand: the latch takes the new record (R265). -/
def execSealLatchUpdate (s : State) : Out :=
  let o := s.myOp
  let k := s.ctx.idx
  match o.instr, o.seals.getD k none with
  | .chw a, some (key, pi, ver, ks) =>
    let plain := (o.collected (128 * k) 128).1
    let nonce := sealNonce pi ver
    let tag := gcmTag key nonce (leBytes 8 pi ++ [BitVec.ofNat 8 ks]) (gcmCrypt key nonce plain 0)
    let i := (a.l.toNat + k) % 2
    let l := (s.chan o.cs).latch i
    ok (s.deferOp o.src 0 (.latch o.cs i
      { l with cur := tag ++ leBytes 4 ver ++ [BitVec.ofNat 8 ks] ++ List.replicate 11 0, st := .sealed } true))
  | _, _ => ok s

/-- The arrival of cycle `t` of the CHW in its slot, and the next step. A slot that stands full may be emptied before the fill, and
one that stands empty may be filled by another in this cycle: the operation completes with its last arrival (R264 to R266). -/
def State.chwArrive (s : State) (c n : Nat) (a : ChwArgs) (o : Op) (t : Nat) : State :=
  let k := s.core c
  let again := fun (s : State) i => s.at c (k.cyc + 1) { ctx := { core := c, op := n, idx := i }, instr := .chwArrival }
  let j := t - (2 + o.hs)
  let slot := (a.q.toNat + j) % 32
  let out := if 2 + o.hs ≤ t && j < chwN a then chwBurst a o j else none
  let s := match out with
    | some bs => s.deferOp o.src 0 (.slot o.cs slot bs false 0 (some n))
    | none => s
  let full := out.isSome && k.elastic && (Table.get none (s.chan o.cs).slots slot).isSome
  if t = chwC a o && !full then (let s := s.finishOp c n o; if out.isSome && k.elastic then again s (t + 1) else s)
  else again s (t + 1)

/-- Cycle `t` of the CHW: the sample, the seal steps, the arrival in its slot, and the next cycle. -/
def State.chwCycle (s : State) (c n : Nat) (a : ChwArgs) (o : Op) (t : Nat) : State :=
  let nb := chwN a
  let (o, s) := if a.s && t < nb && t % 128 == 0 then
      match s.sealTile c a o (t / 128) with
      | .ok p => ({ o with seals := o.seals ++ [some p] }, s)
      | .error (f, w) => ({ o with seals := o.seals ++ [none] }, s.raiseOp f o.src w)
    else (o, s)
  let addr := o.ad + 32 * t
  let s := if t < nb && s.earlyPool o.src c addr 32 then s.raiseOp .earlyRead o.src 0 else s
  let o := if t < nb then { o with cols := o.cols ++ [(s.poolRead c addr 32, [])] } else o
  let s := s.setOp c n (some o)
  let u := t - (130 + o.hs)
  let s := if a.s && 130 + o.hs ≤ t && u % 128 == 0 then
      { s with todo := { ctx := { core := c, op := n, idx := u / 128 }, instr := .sealLatchUpdate } :: s.todo }
    else s
  (if t = nb then s.leaveEngine c n o else s).chwArrive c n a o t

/-- CHW_ARRIVAL: cycle `idx` of the CHW in hand; a refused arrival in an elastic phase is tried again, and the later cycles of
the operation shift by the wait (R264 to R266). -/
def execChwArrival (s : State) : Out :=
  let c := s.ctx.core
  let n := s.ctx.op
  let o := s.myOp
  let t := s.ctx.idx
  match o.instr with
  | .chw a =>
    if o.st.isNone then ok (s.chwCycle c n a { o with st := some s.me.cyc } 0)
    else if o.waiting then
      let o := { o with waiting := false }
      ok ((s.setOp c n (some o)).chwArrive c n a o (t - 1))
    else if chwC a o < t then ok (s.setOp c n none)
    else ok (s.chwCycle c n a o t)
  | _ => ok s

end Sys2Proof.Machine
end

