-- ==== Sys2Proof/Machine/Far.lean ====
section
/-! DEFINITION. Far memory: page tables, far loads and stores, fences, atomics and the cobbler, barriers and shared queues
(12_order.md R276 to R300, 10_channels.md R254). -/

namespace Sys2Proof.Machine

/-! ## Homes -/

/-- A home in this device's own HBM. -/
def State.inHbm (s : State) (h : Home) : Bool := !h.host && h.dev == s.devIndex

/-- `n` bytes at a home as they are stored: host memory's, a tile's of this device, or a peer's, which are free values (log
entry 34). -/
def State.homeBytes (s : State) (h : Home) (n : Nat) : List Byte :=
  if h.host then s.host.read (4096 * h.frame + h.off) n
  else if s.inHbm h then
    let b := h.off / 32
    let m := if n = 0 then 0 else (h.off + n - 1) / 32 + 1 - b
    (((List.range m).flatMap fun i => s.burst (tileBurst (h.frame / 2 ^ 18) (h.frame % 2 ^ 18) (b + i))).drop (h.off % 32)).take n
  else (List.range n).map fun i => Config.peerByte h.dev h.frame (h.off + i) s.tick

/-- A tile can be sealed: it holds data, and so does the burst of its record (10_channels.md R231, R248, R257). -/
def sealable (frame : Nat) : Bool :=
  let st := frame / 2 ^ 18 / 64
  let t := frame % 2 ^ 18
  parityStack (t / 4) (t % 4) != st && parityStack (Config.sealRow + t / 512) (t % 512 / 32) != st
/-- The record of a tile. -/
def State.record (s : State) (frame : Nat) : List Byte := s.burst (recordBurst (frame / 2 ^ 18) (frame % 2 ^ 18))
/-- A tile has a seal record that is not zero. -/
def State.sealedTile (s : State) (frame : Nat) : Bool := sealable frame && (s.record frame).any (· != 0)
/-- A seal latch of the channel holds the tile. -/
def State.latchHolds (s : State) (frame : Nat) : Bool :=
  (s.chan (frame / 2 ^ 18)).latches.any fun l => l.2.st != .empty && l.2.tile == frame % 2 ^ 18
/-- The plaintext of a sealed tile, `none` when its verify fails. -/
def State.unseal (s : State) (p frame : Nat) : Option (List Byte) :=
  let cn := frame / 2 ^ 18
  let t := frame % 2 ^ 18
  s.openTile p cn t (s.burst (recordBurst cn t)) (s.homeBytes { dev := s.devIndex, frame := frame } 4096)

/-- Writes bytes into a tile with the parity of its stripes. -/
def State.putTile (s : State) (frame off : Nat) (bs : List Byte) : State :=
  let cn := frame / 2 ^ 18
  let t := frame % 2 ^ 18
  let b := off / 32
  let m := if bs.isEmpty then 0 else (off + bs.length - 1) / 32 + 1 - b
  (List.range m).foldl (fun s i =>
    let k := tileBurst cn t (b + i)
    let lo := 32 * (b + i)
    let new := (s.burst k).zipIdx.map fun e =>
      if off ≤ lo + e.2 && decide (lo + e.2 < off + bs.length) then bs.getD (lo + e.2 - off) 0 else e.1
    s.putStriped k new) s

/-- Seals 4,096 bytes into a tile under key slot `ks` at a version, with its record (R255, R256). -/
def State.putSealed (s : State) (frame ver ks : Nat) (key : BitVec 256) (plain : List Byte) : State :=
  let nonce := sealNonce frame ver
  let c := gcmCrypt key nonce plain 0
  let r := gcmTag key nonce (leBytes 8 frame ++ [BitVec.ofNat 8 ks]) c ++ leBytes 4 ver ++ [BitVec.ofNat 8 ks] ++ List.replicate 11 0
  (s.putTile frame 0 c).putStriped (recordBurst (frame / 2 ^ 18) (frame % 2 ^ 18)) r

/-- Bytes replaced in a list from an offset. -/
def splice (l : List Byte) (off : Nat) (bs : List Byte) : List Byte := l.take off ++ bs ++ l.drop (off + bs.length)

/-- Reads at the home, a sealed tile's plaintext included; `none` is a failed verify (R254, R280). -/
def State.homeRead (s : State) (p : Nat) (h : Home) (n : Nat) : Option (List Byte) :=
  if s.inHbm h && s.sealedTile h.frame then (s.unseal p h.frame).map fun l => (l.drop h.off).take n
  else some (s.homeBytes h n)

/-- Writes at the home: a sealed tile is merged and sealed at version + 1 under CURRENT; `none` is a failed verify, or a
version that cannot rise (R254, R265). -/
def State.homeWrite (s : State) (p : Nat) (h : Home) (bs : List Byte) : Option State :=
  if h.host then some { s with host := s.host.write (4096 * h.frame + h.off) (someBytes bs) }
  else if s.sealedTile h.frame then
    let pt := s.part p
    let ver := ofLe (((s.burst (recordBurst (h.frame / 2 ^ 18) (h.frame % 2 ^ 18))).drop 16).take 4)
    match s.unseal p h.frame with
    | none => none
    | some l =>
      if ver = 0xFFFFFFFF then none
      else some (s.putSealed h.frame (ver + 1) (2 * p + pt.current.toNat) ((if pt.current then pt.key1 else pt.key0).getD 0)
        (splice l h.off bs))
  else some (s.putTile h.frame h.off bs)

/-- A guest access counts on its page (R267). -/
def State.countHome (s : State) (h : Home) : State :=
  if s.inHbm h then s.countPage (h.frame / 2 ^ 18) (h.frame % 2 ^ 18 / 4) (h.frame % 4) else s

/-- The bursts that a guest access to `n` bytes at a home reads: those it touches, of a sealed tile the whole tile and its record
(R254). -/
def State.burstsOf (s : State) (h : Home) (n : Nat) : List Nat :=
  let cn := h.frame / 2 ^ 18
  let t := h.frame % 2 ^ 18
  if s.sealedTile h.frame then recordBurst cn t :: (List.range 128).map fun i => tileBurst cn t i
  else (List.range ((h.off % 32 + n + 31) / 32)).map fun i => tileBurst cn t (h.off / 32 + i)
/-- A read of `n` bytes at a home marks the bursts that the stack reports as uncorrectable (R252). -/
def State.homeUe (s : State) (h : Home) (n : Nat) : State := if s.inHbm h then (s.burstsOf h n).foldl State.readUe s else s
/-- A guest access reads `n` bytes at a home: it counts, and an uncorrectable error that the stack reports marks its burst
(R252, R267). -/
def State.guestRead (s : State) (h : Home) (n : Nat) : State := (s.countHome h).homeUe h n
/-- The bursts of which a write of `n` bytes at a home leaves bytes as they were. -/
def mergedOf (h : Home) (n : Nat) : List Nat :=
  ((List.range ((h.off % 32 + n + 31) / 32)).filter fun i =>
    decide (32 * (h.off / 32 + i) < h.off) || decide (h.off + n < 32 * (h.off / 32 + i) + 32)).map fun i =>
      tileBurst (h.frame / 2 ^ 18) (h.frame % 2 ^ 18) (h.off / 32 + i)
/-- A guest access writes `n` bytes at a home: it counts, and it reads what it merges with, of a sealed tile the whole tile (R252,
R254, R267). -/
def State.guestWrite (s : State) (h : Home) (n : Nat) : State :=
  if !s.inHbm h then s
  else if s.sealedTile h.frame then s.guestRead h n
  else (mergedOf h n).foldl State.readUe (s.countHome h)

/-! ## Page tables, R279, R280 -/

/-- Entry `i` of a page of a page table of partition `p`: of a sealed tile its plaintext, and an invalid entry when its verify fails
(log entry 44). -/
def State.entryAt (s : State) (p : Nat) (h : Home) (i : Nat) : BitVec 64 :=
  BitVec.ofNat 64 (ofLe ((s.homeRead p { h with off := 8 * i } 8).getD []))

/-- The page a page-table entry names. -/
def pteFrame (e : BitVec 64) : Nat := (bits e 12 40).toNat
/-- HOST. -/
def pteHost (e : BitVec 64) : Bool := e.getLsbD 60
/-- Pod device index. -/
def pteDev (e : BitVec 64) : Nat := (bits e 55 5).toNat

/-- An HBM frame of `n` tiles lies in one channel of a parity group of the partition, and no tile of it in a retired row, in which
none is allotted (16_faults.md R377; a frame there is as one outside the groups, DEDUCED, log entry 38). -/
def State.frameOk (s : State) (p frame n : Nat) : Bool :=
  decide (frame / 2 ^ 18 < Config.channels) && decide (frame % 2 ^ 18 + n ≤ Config.tiles) &&
  (s.part p).parityGroups.getLsbD (frame / 2 ^ 18 % 64) &&
  (List.range ((frame % 4 + n + 3) / 4)).all fun i => !s.retiredRow (frame / 2 ^ 18) (frame % 2 ^ 18 / 4 + i)

/-- A valid entry without reserved values, whose frame of `n` pages the partition may name, Table 12.2. -/
def State.pteOk (s : State) (p n : Nat) (e : BitVec 64) : Bool :=
  e.getLsbD 0 && bits e 61 3 == 0 && bits e 52 3 == 0 && bits e 8 4 == 0 && bits e 1 2 == 0 &&
  (pteHost e || s.frameOk p (pteFrame e) n)

/-- The pages a leaf maps: by its level, and 16 for a 64 KiB entry. -/
def leafPages (lv : Nat) (big : Bool) : Nat :=
  match lv with
  | 2 => 2 ^ 18
  | 3 => 512
  | _ => if big then 16 else 1

/-- Where an entry's frame lies, with page `i` of it and an offset: PEER_UNREACHABLE of a device outside the pod or outside the
reach map (Table 12.2, 15_light.md R355), and XLATE of the host memory of a confidential partition whose interface does not run
(19_host.md R404). -/
def State.pteHome (s : State) (p : Nat) (e : BitVec 64) (i off : Nat) : Except FCode Home :=
  let pt := s.part p
  let h : Home := { frame := pteFrame e + i, off := off, dev := s.devIndex }
  if pteHost e then (if pt.confidential && pt.tdi != .run then .error .xlate else .ok { h with host := true })
  else if s.podSize ≤ pteDev e || (pteDev e != s.devIndex && !pt.reach.getLsbD (pteDev e)) then .error .peerUnreachable
  else .ok { h with dev := pteDev e }

/-- What the table at `h`, of level `lv` (1 to 4), says of an address: the leaf with its number of pages, or the next table (R279,
R280). -/
def State.walkLevel (s : State) (p va lv : Nat) (h : Home) : Except FCode ((BitVec 64 × Nat) ⊕ Home) :=
  let i := va / 2 ^ (12 + 9 * (4 - lv)) % 512
  let g := s.entryAt p h (i / 16 * 16)
  let big := lv == 4 && g.getLsbD 0 && g.getLsbD 6
  let e := if big then g else s.entryAt p h i
  let leaf := lv == 4 || e.getLsbD 7
  let n := if leaf then leafPages lv big else 1
  let bad := !s.pteOk p n e || (leaf && (lv == 1 || (lv == 2 && !pteHost e))) || (lv == 4 && e.getLsbD 6 && !big)
  if bad then .error .xlate
  else if leaf then .ok (.inl (e, n))
  else (s.pteHome p e 0 0).map .inr

/-- Walks from level `lv`: the tables read, and the leaf with its number of pages. -/
def State.walk (s : State) (p va : Nat) : Nat → Nat → Home → List Home × Except FCode (BitVec 64 × Nat)
  | 0, _, _ => ([], .error .xlate)
  | f + 1, lv, h =>
    match s.walkLevel p va lv h with
    | .error c => ([h], .error c)
    | .ok (.inl l) => ([h], .ok l)
    | .ok (.inr t) =>
      let (l, r) := s.walk p va f (lv + 1) t
      (h :: l, r)

/-- Walks from level `lv` through the tables that need no window of another channel than `cn`: the leaf, or the first table that
does, with its level (R254). -/
def State.walkIn (s : State) (p va : Nat) (cn : Option Nat) : Nat → Nat → Home → Except FCode ((BitVec 64 × Nat) ⊕ (Nat × Home))
  | 0, _, _ => .error .xlate
  | f + 1, lv, h =>
    if s.inHbm h && cn != some (h.frame / 2 ^ 18) then .ok (.inr (lv, h))
    else match s.walkLevel p va lv h with
      | .error c => .error c
      | .ok (.inl l) => .ok (.inl l)
      | .ok (.inr t) => s.walkIn p va cn f (lv + 1) t

/-- The table a walk of partition `p` starts from. The root is a word with the frame fields of a page-table entry. -/
def State.rootOf (s : State) (p va : Nat) : Except FCode Home :=
  match (s.part p).root with
  | none => .error .xlate
  | some r => if 2 ^ 48 ≤ va then .error .xlate else s.pteHome p (BitVec.ofNat 64 r) 0 0

/-- The walk of partition `p` for an address. -/
def State.walkOf (s : State) (p va : Nat) : List Home × Except FCode (BitVec 64 × Nat) :=
  match s.rootOf p va with
  | .error c => ([], .error c)
  | .ok h => s.walk p va 4 1 h

/-- The translation unit of the host port; those of the stacks are 0 to 11 (R279). -/
def hostUnit : Nat := 12
/-- The unit that translates for core `c`: the nearest stack's, the lowest of equally near ones (DESIGN CHOICE, log entry
34). -/
def coreUnit (c : Nat) : Nat :=
  (List.range 12).foldl (fun b st => if hops c (stackAt st) < hops c (stackAt b) then st else b) 0
/-- The unit at a home. -/
def Home.unit (h : Home) : Nat := if h.host then hostUnit else h.frame / 2 ^ 18 / 64

/-- The translation that a unit holds for an address: its first page, leaf and number of pages. -/
def State.cached (s : State) (u p va : Nat) : Option (Nat × BitVec 64 × Nat) :=
  if 2 ^ 48 ≤ va then none
  else ((Table.get [] s.tlbs u).find? fun e => e.1 == p && decide (e.2.1 ≤ va / 4096) && decide (va / 4096 < e.2.1 + e.2.2.2)).map (·.2)

/-- Loads the translation of an address into a unit; the oldest of 4,096 goes (R279). -/
def State.putTlb (s : State) (u p va : Nat) (l : BitVec 64 × Nat) : State :=
  { s with tlbs := Table.put s.tlbs u (((p, va / 4096 / l.2 * l.2, l.1, l.2) :: Table.get [] s.tlbs u).take 4096) }
/-- Preloads the translation of an address into a unit, where there is one (18_prog_rings.md R390). -/
def State.fillTlb (s : State) (u p va : Nat) : State :=
  match (s.walkOf p va).2 with
  | .ok l => s.putTlb u p va l
  | .error _ => s

/-- The units forget a partition's translations. -/
def State.flushTlbs (s : State) (p : Nat) : State :=
  { s with tlbs := s.tlbs.map fun (e : Nat × List (Nat × Nat × BitVec 64 × Nat)) => (e.1, e.2.filter fun x => x.1 != p) }

/-- The home of an address through a leaf, with the permission bit it needs: READ 3, WRITE 4, ATOMIC 5 (Table 12.2). A host
frame gives an AMO XLATE (R291). -/
def State.homeVia (s : State) (p va need : Nat) (l : Nat × BitVec 64 × Nat) : Except FCode Home :=
  let (b, e, n) := l
  if !e.getLsbD need || !s.pteOk p n e || (pteHost e && need == 5) then .error .xlate
  else s.pteHome p e (va / 4096 - b) (va % 4096)

/-- Translates an address by what unit `u` holds, `none` where it holds nothing of it. -/
def State.held (s : State) (u p va need : Nat) : Option (Except FCode Home) :=
  (s.cached u p va).map (s.homeVia p va need)
/-- Translates an address for the device controller: by what unit `u` holds, else by the tables (log entry 44). -/
def State.translate (s : State) (u p va need : Nat) : Except FCode Home :=
  match s.cached u p va with
  | some l => s.homeVia p va need l
  | none =>
    match (s.walkOf p va).2 with
    | .ok (e, n) => s.homeVia p va need (va / 4096 / n * n, e, n)
    | .error c => .error c

/-- `n` bytes of partition-virtual memory as the device controller reads them, where every page translates with READ
(01_machine.md R412). Of a sealed tile it reads the plaintext, and a failed verify counts as untranslatable; the bytes of a
peer's page are free values, and the read takes no guest window (DESIGN CHOICE, log entry 44: the section is silent on all
three). -/
def State.readVirt (s : State) (p : Nat) : Nat → Nat → Nat → Option (List Byte)
  | 0, _, _ => some []
  | f + 1, va, n =>
    if n = 0 then some []
    else
      match s.translate hostUnit p va 3 with
      | .ok h =>
        let m := min n (4096 - va % 4096)
        (s.homeRead p h m).bind fun bs => (s.readVirt p f (va + m) (n - m)).map fun r => bs ++ r
      | .error _ => none

/-- The window left on channel `cn` holds an access of `n` ticks (R254). -/
def State.windowFits (s : State) (cn n : Nat) : Bool :=
  let c := s.chan cn
  let frozen := match c.run with
    | some r => (match (s.run r).st with
      | .frozen _ => true
      | _ => false)
    | none => true
  s.chanOpen cn && (frozen || c.script != .running || match c.guest with
    | some (some e) => decide (s.chanTime cn + n ≤ e)
    | _ => true)

/-! ## Requests -/

/-- The permission bit a request needs, Table 12.2. -/
def FarKind.need : FarKind → Nat
  | .load _ => 3
  | .store => 4
  | .amo => 5
  | .qapp => 4
  | .flush => 3
  | .deliver _ _ => 3
  | .move _ => 3

/-- Where a request goes. -/
def Far.home (f : Far) : Home := { host := f.host, dev := f.dev, frame := f.frame, off := f.off }
/-- A request with its home. -/
def Far.toHome (f : Far) (h : Home) : Far := { f with host := h.host, dev := h.dev, frame := h.frame, off := h.off }
/-- Forgets request `n`. -/
def State.dropFar (s : State) (n : Nat) : State := { s with fars := s.fars.filter fun e => e.1 != n }
/-- Request `n` is no longer pending. -/
def State.gone (s : State) (n : Nat) : Bool := (Table.get none s.fars n).isNone
/-- Files a request. -/
def State.newFar (s : State) (f : Far) : Nat × State := (s.nextFar, { s with nextFar := s.nextFar + 1 }.setFar s.nextFar (some f))
/-- A step for request `n`. -/
def onReq (n : Nat) (i : Instr) : Work := { ctx := { req := n }, instr := i }

/-- The address whose tables a request walks. -/
def Far.walkVa (f : Far) : Nat := if f.stage == .ringWalk then f.ring else f.va
/-- A request reads page tables. -/
def Far.walks (f : Far) : Bool := f.stage == .walking || f.stage == .ringWalk
/-- Tables of this device that a request has still to read, level by level. -/
def State.walkLeft (s : State) (f : Far) : List Home :=
  if (s.cached f.unit f.part f.walkVa).isSome then []
  else (match f.tab with
    | none => (s.walkOf f.part f.walkVa).1
    | some (lv, h) => (s.walk f.part f.walkVa (5 - lv) lv h).1).filter s.inHbm
/-- The translation of the address of a request that has walked, `none` where its unit has lost it since. -/
def State.translated (s : State) (f : Far) : Option (Except FCode Home) :=
  match f.fail with
  | some c => some (.error c)
  | none => s.held f.unit f.part f.va f.kind.need
/-- The channel whose controller a request needs now: the next table's, or its home's (R254). -/
def State.farChan (s : State) (f : Far) : Option Nat :=
  if f.walks then (s.walkLeft f).head?.map fun h => h.frame / 2 ^ 18
  else if s.inHbm f.home then some (f.frame / 2 ^ 18)
  else none
/-- Files the state of a request, with the channel that it waits for. -/
def State.putFar (s : State) (n : Nat) (f : Far) : State := s.setFar n (some { f with chan := s.farChan f })

/-- The wait is that of request `n`. -/
def Wait.isFor (w : Wait) (n : Nat) : Bool := w.what == .far n || w.what == .qapp n
/-- The core waits for request `n`. -/
def Core.waitsFor (k : Core) (n : Nat) : Bool := k.waits.any fun w => w.isFor n
/-- Changes a saved core when it waits for the request. -/
def Recovery.modSaved (q : Recovery) (c n : Nat) (g : Core → Core) : Recovery :=
  if q.core == c && q.saved.waitsFor n then { q with saved := g q.saved } else q
/-- Changes core `c`, or its state saved for the recovery task when request `n` is one of that state's (16_faults.md
R365). -/
def State.modOwner (s : State) (c n : Nat) (g : Core → Core) : State :=
  if (s.core c).waitsFor n then s.modCore c g
  else match (s.core c).run with
    | some r => s.modRun r fun u => { u with recov := u.recov.map fun q => q.modSaved c n g }
    | none => s
/-- Gives a wait its answer. -/
def State.answerWait (s : State) (c n : Nat) (v : X) : State :=
  s.modOwner c n fun k => { k with waits := k.waits.map fun w => if w.isFor n then { w with ans := some v } else w }

/-- The core of a request is still in the run that issued it. -/
def State.farAlive (s : State) (f : Far) : Bool := f.run.isSome && (s.core f.core).run == f.run
/-- The answer is held: the run is frozen and the request is not its recovery task's (16_faults.md R362). -/
def State.farHeld (s : State) (n : Nat) (f : Far) : Bool :=
  match f.run with
  | some r => (match (s.run r).st with
      | .frozen _ => true
      | _ => false) && !((s.core f.core).inRecov && (s.core f.core).waitsFor n)
  | none => false

/-- The status of a refused access in an answer. -/
def farStatus (code : FCode) : Nat :=
  match code with
  | .sealFail => 1
  | .xlate => 3
  | .peerUnreachable => 4
  | _ => 2

/-- Ends request `n` with a fault against its syllable, or, for the host, with a status (R280); PEER_UNREACHABLE records no address
(16_faults.md Table 16.3). -/
def State.farFault (s : State) (n : Nat) (f : Far) (code : FCode) (w2 : X) : State :=
  let w2 := if code = .peerUnreachable then 0 else w2
  let s := s.dropFar n
  if f.origin = 32 then s.wire 32 (.answer f.reply 0 (farStatus code))
  else if s.farAlive f then s.raiseOn f.core code f.src w2 0 else s

/-- Pending stores of one source to overlapping bytes. -/
def Far.overlaps (f g : Far) : Bool :=
  f.kind == .store && g.kind == .store && f.origin == g.origin && f.core == g.core && { f.home with off := 0 } == { g.home with off := 0 } &&
  decide (f.off < g.off + g.size) && decide (g.off < f.off + f.size)

/-- The tick at which a request arrives at its home: not fixed in advance (R287), but after the earlier stores of its source to
the same bytes (R281, R285). -/
def State.arrival (s : State) (f : Far) : Nat × State :=
  let (d, s) := s.draw
  (s.fars.foldl (fun t e => match e.2 with
    | some g => if g.stage == .sent && g.overlaps f then max t (g.at_ + 1) else t
    | none => t) (s.tick + 1 + Config.freeNat d), s)

/-- Posted writes that a peer will never perform are discarded and counted (R289). -/
def State.discardStore (s : State) (n : Nat) (f : Far) : State :=
  let s := s.dropFar n
  if s.farAlive f then s.modCore f.core fun k => { k with discarded := k.discarded + 1 } else s

/-- Sends a translated request to its home; one whose peer has left the reach map is lost (R287, R289, 18_prog_rings.md
R389). -/
def State.postFar (s : State) (n : Nat) (f : Far) : State :=
  if f.host || f.dev == s.devIndex then
    let (t, s) := s.arrival f
    s.setFar n (some { f with stage := .sent, at_ := t, chan := if f.host then none else some (f.frame / 2 ^ 18) })
  else if !(s.part f.part).reach.getLsbD f.dev then
    match f.kind with
    | .store => if f.origin = s.devIndex then s.discardStore n f else s.farFault n f .peerUnreachable (BitVec.ofNat 64 f.va)
    | _ => s.farFault n f .peerUnreachable (BitVec.ofNat 64 f.va)
  else
    let s := s.setFar n (some { f with stage := .sent, chan := none })
    match f.kind with
    | .load _ => s.wire f.dev (.farRead s.devIndex n f.part f.frame f.off f.size)
    | .store => s.wire f.dev (.farWrite s.devIndex n f.part f.frame f.off f.data)
    | .amo => s.wire f.dev (.amo s.devIndex n f.part f.frame f.off f.va f.handler f.h0 f.h1)
    | .qapp => s.wire f.dev (.qapp s.devIndex n f.part f.frame f.off f.lim f.data)
    | _ =>
      let (t, s) := s.arrival f
      s.setFar n (some { f with stage := .sent, at_ := t, chan := none })

/-- Starts LDF, STF or AMO: XLATE at c0, else the syllable waits for its translation, which answers at c0 + 6 when the unit
holds it (R287). -/
def State.startFar (s : State) (xd : Option XReg) (f : Far) : State :=
  let a := BitVec.ofNat 64 f.va
  if 2 ^ 48 ≤ f.va || f.va % f.size != 0 then s.raise .xlate a 0
  else
    let c := s.ctx.core
    let f := { f with core := c, run := s.me.run, part := s.partOf c, src := s.src, origin := s.devIndex, unit := coreUnit c }
    let hit := (s.cached f.unit f.part f.va).isSome
    let (d, s) := s.draw
    let f := { f with stage := if hit then .translating else .walking, at_ := s.tick + 6 + Config.freeNat d }
    let (n, s) := s.newFar { f with chan := s.farChan f }
    let s := s.hold (.far n) xd none
    if hit then s.at c (s.me.cyc + 6) { ctx := { core := c, req := n }, instr := .translationAnswer } else s

/-- LDF, R287. -/
def execLdf (xd xa : XReg) (acq : Option Scope) (sign : Bool) (size : BitVec 2) (imm : BitVec 32) (s : State) : Out :=
  ok (s.startFar (some xd)
    { kind := .load sign, va := (s.xr xa + sext imm).toNat, size := 2 ^ size.toNat, acq := acq.isSome })

/-- STF, R287. -/
def execStf (xa xb : XReg) (rel : Option Scope) (size : BitVec 2) (imm : BitVec 32) (s : State) : Out :=
  let n := 2 ^ size.toNat
  ok (s.startFar none
    { kind := .store, va := (s.xr xa + sext imm).toNat, size := n, data := leBytes n (s.xr xb).toNat, rel := rel })

/-- AMO, R291. -/
def execAmo (xd xa xb : XReg) (o : AmoOrd) (sc : Scope) (h : BitVec 5) (s : State) : Out :=
  ok (s.startFar (some xd)
    { kind := .amo, va := (s.xr xa).toNat, size := 8, h0 := s.xr xb, h1 := s.xr xd, handler := h.toNat,
      acq := o == .acq || o == .acqrel, rel := if o == .rel || o == .acqrel then some sc else none })

/-- Request `n` walks the tables, from the root. -/
def State.startWalk (s : State) (n : Nat) (f : Far) : State :=
  s.putFar n { f with stage := .walking, tab := none, fail := none }

/-- TRANSLATION_ANSWER, R287: XLATE or PEER_UNREACHABLE at t, the release hold, or the request goes to its home; a store
without release lets the next bundle issue at t + 1. A translation that its unit has lost meanwhile is walked again. -/
def execTranslationAnswer (s : State) : Out :=
  let n := s.ctx.req
  let f := s.far n
  match s.translated f with
  | none => ok (s.startWalk n f)
  | some (.error e) => ok (s.farFault n f e (BitVec.ofNat 64 f.va))
  | some (.ok h) =>
    let f := f.toHome h
    if f.rel.isSome then ok (s.setFar n (some { f with stage := .held }))
    else
      let s := if f.kind == .store then s.answerWait f.core n 0 else s
      ok (s.postFar n f)

/-- Word `i` of partition `p`'s handler table; unloaded words hold `ret h0` (R293). -/
def State.handlerWord (s : State) (p i : Nat) : BitVec 32 := Table.get 0xF0000000 (s.part p).handlers i

/-- Micro-instructions each of the words `l` can be followed to, the longest path first word first. -/
def pathLens : List (BitVec 32) → List Nat
  | [] => []
  | w :: r =>
    let t := pathLens r
    let n := match decodeCob w with
      | some (.cobRet _) => 1
      | some (.cobSkipT k) => 1 + max (t.getD 0 0) (t.getD k.toNat 0)
      | some (.cobSkipF k) => 1 + max (t.getD 0 0) (t.getD k.toNat 0)
      | some _ => 1 + t.getD 0 0
      | none => 1
    n :: t

/-- Cycles of window a handler needs, R292. -/
def State.handlerNeed (s : State) (p h : Nat) : Nat :=
  24 + min 32 ((pathLens ((List.range 32).map fun i => s.handlerWord p (32 * h + i))).headD 0)

/-- Bursts of 32 bytes that an access touches. -/
def Far.bursts (f : Far) : Nat := (f.off % 32 + f.size + 31) / 32

/-- The next tile of a migration or checkpoint: every tile of the partition's channels in turn for the latter. -/
def State.moveTile (s : State) (p : Nat) (m : Move) : Nat :=
  if m.leaf.isSome then m.first + m.done
  else
    let cs := (List.range Config.channels).filter fun cn => (s.part p).parityGroups.getLsbD (cn % 64)
    cs.getD (m.done / Config.tiles) 0 * 2 ^ 18 + m.done % Config.tiles

/-- Ticks of window a request needs, R254, R280. -/
def State.farNeed (s : State) (f : Far) : Nat :=
  if f.walks then
    let l := (s.walkLeft f).map fun h => h.frame / 2 ^ 18
    64 * (l.takeWhile fun c => some c == l.head?).length
  else
    match f.kind with
    | .move m => if m.done < m.count then 64 + 129 else if s.sealedTile f.frame then 512 else 64 + f.bursts
    | .amo =>
      if s.sealedTile f.frame then 512
      else if f.handler < 32 then s.handlerNeed f.part f.handler
      else 64 + f.bursts
    | .qapp => if s.sealedTile f.frame then 512 else 64 + f.bursts
    | .deliver _ _ => if s.sealedTile f.frame then 512 else 64 + f.bursts
    | _ => if s.sealedTile f.frame then 512 else if f.origin = 32 || f.after.isSome || 8 < f.size then 64 + f.bursts else 64

/-- The result of a request served on this device goes back to its requester. -/
def State.farReply (s : State) (n : Nat) (f : Far) (v : X) (err : Nat) : State :=
  if f.origin = s.devIndex then
    let (d, s) := s.draw
    let busy := match f.kind with
      | .amo => s.farNeed f
      | _ => 1
    (s.setFar n (some { f with stage := .served, value := v, err := err, chan := none })).atTick (s.tick + busy + Config.freeNat d)
      (onReq n (match f.kind with
        | .load _ => .farDataReturn
        | .amo => .amoResult
        | .qapp => .qappAnswer
        | _ => .farStorePerform))
  else (s.dropFar n).wire f.origin (.answer f.reply v err)

/-- FAR_DATA_RETURN: the value reaches the wait, or SEAL_FAIL; held while the run is frozen (R287, R280, R362). -/
def execFarDataReturn (s : State) : Out :=
  let n := s.ctx.req
  let f := s.far n
  if s.farHeld n f then ok (s.atTick (s.tick + 1) (onReq n .farDataReturn))
  else if f.err != 0 then ok (s.farFault n f .sealFail (BitVec.ofNat 64 f.frame))
  else
    let sign := match f.kind with
      | .load b => b
      | _ => false
    ok ((s.dropFar n).answerWait f.core n (fieldOf sign (8 * f.size) f.value.toNat))

/-- AMO_RESULT, R291: a handler error raises ILLEGAL_ENC. -/
def execAmoResult (s : State) : Out :=
  let n := s.ctx.req
  let f := s.far n
  if s.farHeld n f then ok (s.atTick (s.tick + 1) (onReq n .amoResult))
  else if f.err = 2 then ok (s.farFault n f .illegalEnc 0)
  else if f.err != 0 then ok (s.farFault n f .sealFail (BitVec.ofNat 64 f.frame))
  else ok ((s.dropFar n).answerWait f.core n f.value)

/-- A queue header, Table 12.8. -/
structure QHead where
  wi : Nat := 0
  ri : Nat := 0
  ring : Nat := 0
  n : Nat := 0
  nl : Nat := 0
  consumer : Bool := false
  core : Nat := 0
  landing : Nat := 0
  deriving DecidableEq, Repr

/-- The header in 64 bytes, `none` when it is invalid. -/
def QHead.ofBytes (bs : List Byte) : Option QHead :=
  let w := fun i => ofLe ((bs.drop (8 * i)).take 8)
  let c : BitVec 64 := BitVec.ofNat 64 (w 3)
  let n := (bits c 0 8).toNat
  let k := (bits c 8 8).toNat
  let nl := (bits c 24 8).toNat
  let core := (bits c 32 9).toNat
  if n = 0 || 20 < n || 2 ≤ k || bits c 16 8 != 0 || bits c 41 23 != 0 || (k == 1 && nl == 0) || (k == 0 && core != 0) ||
    (bs.drop 0x28).any (· != 0) || w 2 % (64 * 2 ^ n) != 0 then none
  else some { wi := w 0, ri := w 1, ring := w 2, n := n, nl := nl, consumer := k == 1, core := core, landing := w 4 }

/-- The number of a home in host memory or on this device, and the home. -/
def Home.key (h : Home) : Nat := (if h.host then 2 ^ 64 else 0) + 4096 * h.frame + h.off
def State.homeAt (s : State) (k : Nat) : Home :=
  if 2 ^ 64 ≤ k then { host := true, dev := s.devIndex, frame := k % 2 ^ 64 / 4096, off := k % 4096 }
  else { dev := s.devIndex, frame := k / 4096, off := k % 4096 }

/-- The queue with its header at a home is polled from now on, from the packet that its read index names (log entry 35). -/
def State.noteQueueAt (s : State) (p : Nat) (h : Home) (q : QHead) : State :=
  if q.consumer && ((s.part p).queues.find? fun e => e.1 == h.key).isNone then
    s.modPart p fun t => { t with queues := Table.put t.queues h.key q.ri }
  else s
/-- An access of partition `p` has written at a home: a line that is then a queue's header is the header of a queue homed there, and
its engine polls it from now on (R300, log entry 35). -/
def State.noteLine (s : State) (p : Nat) (h : Home) : State :=
  let h := { h with off := h.off / 64 * 64 }
  match (s.homeRead p h 64).bind QHead.ofBytes with
  | some q => s.noteQueueAt p h q
  | none => s

/-- FAR_STORE_PERFORM: the store performs at its home, R281; a failed verify goes back to the requester (R280). One that a reach map
has cut off and that no answer has confirmed has been discarded (18_prog_rings.md R389). -/
def execFarStorePerform (s : State) : Out :=
  let n := s.ctx.req
  let f := s.far n
  if s.gone n then ok s
  else if f.cut && f.stage == .sent then ok (s.discardStore n f)
  else if f.stage == .served then
    (if s.farHeld n f then ok (s.atTick (s.tick + 1) (onReq n .farStorePerform))
     else ok (s.farFault n f .sealFail (BitVec.ofNat 64 f.frame)))
  else
    match s.homeWrite f.part f.home f.data with
    | none => ok (s.farReply n f 0 1)
    | some t =>
      let t := (t.guestWrite f.home f.size).noteLine f.part f.home
      if f.origin = s.devIndex then ok (t.dropFar n) else ok (t.farReply n f 0 0)

/-! ## The cobbler, R292 to R295 -/


/-- HANDLER_RUN: the cobbler reads the line and enters the handler, R292; the cobbler of the line's unit is busy for the handler's
cycles. Handlers 32 to 34
stand for the host's FetchAdd, Swap and CAS (19_host.md R399). -/
def execHandlerRun (s : State) : Out :=
  let n := s.ctx.req
  let f := s.far n
  let h := { f.home with off := f.off / 64 * 64 }
  match s.homeRead f.part h 64 with
  | none => ok (s.farReply n f 0 1)
  | some line =>
    let s := s.guestRead h 64
    if 32 ≤ f.handler then
      let old : X := BitVec.ofNat 64 (ofLe ((line.drop (f.off % 64)).take 8))
      let new := match f.handler with
        | 32 => old + f.h0
        | 33 => f.h0
        | _ => if old = f.h1 then f.h0 else old
      match s.homeWrite f.part f.home (leBytes 8 new.toNat) with
      | some s => ok ((s.noteLine f.part f.home).farReply n f old 0)
      | none => ok (s.farReply n f 0 1)
    else ok { s with cob := some { req := n, part := f.part, handler := f.handler, h0 := f.h0, h1 := f.h1,
                                   h2 := BitVec.ofNat 64 f.va, w0 := f.off / 8 % 8, line := line }
                     cobFree := Table.put s.cobFree f.home.unit (max s.tick (Table.get 0 s.cobFree f.home.unit) + s.farNeed f) }

/-- A register of the cobbler. -/
def Cob.reg (c : Cob) (i : BitVec 2) : X :=
  match i.toNat with
  | 0 => c.h0
  | 1 => c.h1
  | 2 => c.h2
  | _ => c.h3
/-- Sets a register of the cobbler. -/
def Cob.setReg (c : Cob) (i : BitVec 2) (v : X) : Cob :=
  match i.toNat with
  | 0 => { c with h0 := v }
  | 1 => { c with h1 := v }
  | 2 => { c with h2 := v }
  | _ => { c with h3 := v }
/-- A micro-instruction's effect, then the next word. -/
def State.cobDo (s : State) (f : Cob → Cob) : State :=
  { s with cob := s.cob.map fun c => let d := f c; { d with pc := d.pc + 1 } }
/-- The handler ends; its request, if there is one, gets the answer. -/
def State.cobEnd (s : State) (g : State → Nat → Far → State) : State :=
  match s.cob with
  | none => s
  | some c =>
    let s := { s with cob := none }
    match Table.get none s.fars c.req with
    | some f => g s c.req f
    | none => s
/-- A handler error, R295: nothing is written back. -/
def State.cobFail (s : State) : State := s.cobEnd fun s n f => s.farReply n f 0 2

/-- A two-source micro-instruction. -/
def State.cobAlu (s : State) (d a b : BitVec 2) (f : X → X → X) : State :=
  s.cobDo fun c => c.setReg d (f (c.reg a) (c.reg b))

/-- LDW. -/
def execCobLdw (d : BitVec 2) (i : BitVec 3) (s : State) : Out :=
  ok (s.cobDo fun c => c.setReg d (BitVec.ofNat 64 (ofLe ((c.line.drop (8 * ((c.w0 + i.toNat) % 8))).take 8))))
/-- STW. -/
def execCobStw (a : BitVec 2) (i : BitVec 16) (s : State) : Out :=
  ok (s.cobDo fun c => { c with line := splice c.line (8 * ((c.w0 + i.toNat) % 8)) (leBytes 8 (c.reg a).toNat), wrote := true })
/-- ADD. -/
def execCobAdd (d a b : BitVec 2) (s : State) : Out := ok (s.cobAlu d a b (· + ·))
/-- SUB. -/
def execCobSub (d a b : BitVec 2) (s : State) : Out := ok (s.cobAlu d a b (· - ·))
/-- AND. -/
def execCobAnd (d a b : BitVec 2) (s : State) : Out := ok (s.cobAlu d a b (· &&& ·))
/-- OR. -/
def execCobOr (d a b : BitVec 2) (s : State) : Out := ok (s.cobAlu d a b (· ||| ·))
/-- XOR. -/
def execCobXor (d a b : BitVec 2) (s : State) : Out := ok (s.cobAlu d a b (· ^^^ ·))
/-- MINS. -/
def execCobMins (d a b : BitVec 2) (s : State) : Out := ok (s.cobAlu d a b fun x y => if y.slt x then y else x)
/-- MAXS. -/
def execCobMaxs (d a b : BitVec 2) (s : State) : Out := ok (s.cobAlu d a b fun x y => if x.slt y then y else x)
/-- MINN. -/
def execCobMinn (d a b : BitVec 2) (s : State) : Out := ok (s.cobAlu d a b fun x y => if y.ult x then y else x)
/-- MAXN. -/
def execCobMaxn (d a b : BitVec 2) (s : State) : Out := ok (s.cobAlu d a b fun x y => if x.ult y then y else x)
/-- CEQ. -/
def execCobCeq (a b : BitVec 2) (s : State) : Out := ok (s.cobDo fun c => { c with f := c.reg a == c.reg b })
/-- A skip of `n` words when `f` is the flag; n = 0 is a handler error (R294, R295). -/
def State.cobSkip (s : State) (f : Bool) (n : BitVec 5) : State :=
  if n = 0 then s.cobFail else s.cobDo fun c => if c.f == f then { c with pc := c.pc + n.toNat } else c
/-- SKIP.T. -/
def execCobSkipT (n : BitVec 5) (s : State) : Out := ok (s.cobSkip true n)
/-- SKIP.F. -/
def execCobSkipF (n : BitVec 5) (s : State) : Out := ok (s.cobSkip false n)
/-- MOV. -/
def execCobMov (d a : BitVec 2) (s : State) : Out := ok (s.cobDo fun c => c.setReg d (c.reg a))
/-- MOVI. -/
def execCobMovi (d : BitVec 2) (i : BitVec 16) (s : State) : Out := ok (s.cobDo fun c => c.setReg d (i.signExtend 64))
/-- RET: the line is written back if a STW executed, and the result returns (R292). -/
def execCobRet (a : BitVec 2) (s : State) : Out :=
  let c := s.cob.getD {}
  ok (s.cobEnd fun s n f =>
    if c.wrote then
      match s.homeWrite f.part { f.home with off := f.off / 64 * 64 } c.line with
      | some s => (s.noteLine f.part f.home).farReply n f (c.reg a) 0
      | none => s.farReply n f 0 1
    else s.farReply n f (c.reg a) 0)

/-- The handler's next word: a micro-instruction, or the error of R295. -/
def cobStep (s : State) (c : Cob) (ex : Instr → State → Out) : Out :=
  match (if c.pc < 32 then decodeCob (s.handlerWord c.part (32 * c.handler + c.pc)) else none) with
  | some i => ex i s
  | none => ok s.cobFail

/-! ## Queues, R298 to R300 -/

/-- QAPP, R299: POOL_BOUNDS at c0, else the packet is sampled and the core waits for the engine's answer, at most 4,096
cycles. -/
def execQapp (xa xb xc : XReg) (s : State) : Out :=
  let a := s.xr xa
  if a.toNat % 64 != 0 || !s.me.inScratch a 64 then ok (s.raise .poolBounds a 0)
  else
    let c := s.ctx.core
    let (d, s) := s.draw
    let f : Far := { kind := .qapp, core := c, run := s.me.run, part := s.partOf c, src := s.src, origin := s.devIndex, unit := coreUnit c,
                     va := (s.xr xb).toNat, size := 64, data := s.poolRead c (a.toNat + 8) 56,
                     at_ := s.tick + 1 + Config.freeNat d, lim := s.tick + s.ctx.stall + 4096 }
    let (n, s) := s.newFar { f with chan := s.farChan f }
    ok ((s.hold (.qapp n) (some xc) none).at c (s.me.cyc + s.ctx.stall + 4096)
      { ctx := { core := c, req := n }, instr := .qappAnswer })

/-- QAPP_ANSWER: the engine's answer, or TIMEOUT with nothing claimed (R299), or SEAL_FAIL of the header's tile (R280). The index
of a status without one is free. Of a packet that a peer's engine writes, the request stays until the writes have performed
(R288); where a reach map has cut the peer off since, they have been discarded unless the peer's engine confirms them
(18_prog_rings.md R389). -/
def execQappAnswer (s : State) : Out :=
  let n := s.ctx.req
  match Table.get none s.fars n with
  | none => ok s
  | some f =>
    if f.stage == .served then
      (if f.err != 0 then ok (s.farFault n f .sealFail (BitVec.ofNat 64 f.frame))
       else if f.dev != s.devIndex && f.value.toNat % 256 == 0 then
         let s := if f.cut then s.atTick (s.tick + 1537) (onReq n .farStorePerform) else s
         ok ((s.setFar n (some { f with kind := .store, stage := .sent })).answerWait f.core n f.value)
       else ok ((s.dropFar n).answerWait f.core n f.value))
    else if f.kind == .store then ok s
    else
      let (d, s) := s.draw
      ok ((s.dropFar n).answerWait f.core n (BitVec.ofNat 64 (Config.freeNat d * 256 + 3)))

/-- Answers a QAPP: on this device within its bound, else by wire. -/
def State.qappReply (s : State) (n : Nat) (f : Far) (v : X) : State :=
  if f.origin = s.devIndex then
    let (d, s) := s.draw
    (s.setFar n (some { f with stage := .served, value := v, dev := s.devIndex, chan := none })).modOwner f.core n fun k =>
      let lim := (k.waits.find? fun w => w.isFor n).map fun w => w.base + 4095
      { k with sched := k.sched ++ [{ due := min (lim.getD 0) (k.cyc + 1 + Config.freeNat d),
                                      work := { ctx := { core := f.core, req := n }, instr := .qappAnswer } }] }
  else s.farReply n f v 0

/-- A status without an index. -/
def State.qappStatus (s : State) (n : Nat) (f : Far) (st : Nat) : State :=
  let (d, s) := s.draw
  s.qappReply n f (BitVec.ofNat 64 (Config.freeNat d * 256 + st))

/-- The address of ring slot `i` of a queue. -/
def QHead.slot (q : QHead) (i : Nat) : Nat := q.ring + 64 * (i % 2 ^ q.n)

/-- A queue engine writes packet `i` into its slot: bytes 8 to 63, and the sequence word once they have performed (R298). The
sequence word's performing answers a requester on a peer. A slot whose page does not translate takes no packet (log entry 35). -/
def State.writePacket (s : State) (f : Far) (u : Nat) (slot i : Nat) : State :=
  match s.held u f.part slot 4 with
  | some (.ok h) =>
    let g : Far := { kind := .store, core := f.core, run := f.run, part := f.part, src := f.src, origin := s.devIndex, unit := u,
                     va := slot + 8, size := 56, data := f.data, asker := some f.origin }
    let g := g.toHome { h with off := h.off + 8 }
    let (m, s) := s.newFar g
    let s := s.postFar m g
    let w : Far := { g with stage := .held, va := slot, size := 8, data := leBytes 8 (i + 1), after := some m, origin := f.origin,
                            reply := f.reply }
    (s.newFar (w.toHome h)).2
  | _ => if f.origin = s.devIndex then s else s.wire f.origin (.answer f.reply 0 0)

/-- The claim at the queue's home: FULL, or a slot, whose packet is then written (R299). -/
def State.qappClaim (s : State) (n : Nat) (f : Far) (q : QHead) : State :=
  let u := f.home.unit
  match s.held u f.part q.ring 4 with
  | some (.ok _) =>
    if 2 ^ q.n ≤ (q.wi + 2 ^ 64 - q.ri) % 2 ^ 64 then s.qappReply n f (BitVec.ofNat 64 (q.wi * 256 + 1))
    else
      match s.homeWrite f.part f.home (leBytes 8 (q.wi + 1)) with
      | none => s.farReply n f 0 1
      | some s => ((s.qappReply n f (BitVec.ofNat 64 (q.wi * 256))).writePacket f u (q.slot q.wi) q.wi).noteQueueAt f.part f.home q
  | _ => s.qappStatus n f 2

/-- The queue engine at the header's home serves request `n` in a window: SEAL_FAIL, BAD_ADDRESS, the walk of the ring's pages, or
the claim (R299). -/
def State.qappServe (s : State) (n : Nat) (f : Far) : State :=
  let s := s.guestRead f.home 64
  match s.homeRead f.part f.home 64 with
  | none => s.farReply n f 0 1
  | some bs =>
    match QHead.ofBytes bs with
    | none => s.qappStatus n f 2
    | some q =>
      let u := f.home.unit
      match [q.ring, q.slot q.wi].find? fun a => (s.cached u f.part a).isNone && !f.failed.contains a with
      | some a => s.putFar n { f with stage := .ringWalk, ring := a, unit := u, tab := none }
      | none => s.qappClaim n f q

/-- The consumer of a queue takes packet `i` now: a live run of the partition, and a landing slot in its scratch (R300, Table
12.8). -/
def State.queueOpen (s : State) (p core a : Nat) : Bool :=
  let k := s.core core
  a % 64 == 0 && decide (a + 64 ≤ k.carve.scrlim) && match k.run with
    | some r => (s.run r).part == p && (s.run r).st == .live
    | none => false

/-- The packet that the queue engine at a header's home finds waiting when it polls the queue numbered `key` in a window: the
consumer core, the landing address, the packet's index, the address of its ring slot, and the engine's translation unit (R300). -/
def State.queueReady (s : State) (p key : Nat) : Option (Nat × Nat × Nat × Nat × Nat) :=
  let h := s.homeAt key
  let busy := s.fars.any fun e => e.2.any fun f => match f.kind with
    | .deliver k _ => k == key && f.part == p
    | _ => false
  let need := if s.sealedTile h.frame then 512 else 66
  if busy || !(h.host || s.windowFits (h.frame / 2 ^ 18) need) then none
  else
    match (s.homeRead p h 64).bind QHead.ofBytes with
    | none => none
    | some q =>
      let i := max q.ri (Table.get q.ri (s.part p).queues key)
      let a := q.landing + 64 * (i % max 1 q.nl)
      if !q.consumer || !decide (i < q.ri + q.nl) || !decide (i < q.wi) || !s.queueOpen p q.core a then none
      else some (q.core, a, i, q.slot i, h.unit)

/-- The packet of the queue numbered `key` that its engine has read. -/
def State.delivery (s : State) (p key : Nat) : Option (Nat × Far × Nat) :=
  s.fars.findSome? fun e => e.2.bind fun f => match f.kind with
    | .deliver k i => if k == key && f.part == p && f.stage == .served then some (e.1, f, i) else none
    | _ => none

/-- QUEUE_DELIVERY: the engine of the queue in hand starts to read the next packet; once its slot is read, the packet whose sequence
word stands is copied into its consumer's landing area and tags the granule (R300). -/
def execQueueDelivery (s : State) : Out :=
  let p := s.ctx.part
  let key := s.ctx.idx
  match s.delivery p key with
  | some (n, f, i) =>
    let a := f.h0.toNat
    let s := s.dropFar n
    if s.queueOpen p f.core a && decide (ofLe (f.data.take 8) = (i + 1) % 2 ^ 64) then
      let src : Src := { core := f.core, tick := s.tick, rx := some 0 }
      ok (((s.deferTick src s.tick (.pool f.core a (someBytes f.data) false)).deferTick src s.tick
        (.tag f.core (a / 1024) (BitVec.ofNat 16 (i % 0xFFFF)))).modPart p fun q => { q with queues := Table.put q.queues key (i + 1) })
    else ok s
  | none =>
    match s.queueReady p key with
    | none => ok s
    | some (c, a, i, slot, u) =>
      let f : Far := { kind := .deliver key i, part := p, core := c, va := slot, size := 64, unit := u, origin := 33, at_ := s.tick,
                       h0 := BitVec.ofNat 64 a }
      ok ((s.guestRead (s.homeAt key) 64).newFar { f with chan := s.farChan f }).2

/-! ## Migration and checkpoint, 10_channels.md R268, R269 -/

/-- Answers of management requests, 19_host.md R405. -/
inductive Ans where
  | done | refused | busy | notOwner
  deriving DecidableEq, Repr

/-- An answer, as an event on vector 4 (19_host.md R400, R405). No virtual function is enabled before boot has ended, and none
hears (19_host.md R407). -/
def State.answer (s : State) (fn : Fn) (a : Ans) (body : List Byte) : State :=
  if fn != .pf0 && s.boot != .up then s
  else
  let s := { s with answers := { fn := fn, code := a.ctorIdx, body := body } :: s.answers }
  match fn with
  | .pf0 => s.event 0 4 (leBytes 1 a.ctorIdx ++ List.replicate 31 0)
  | .vf v => s.event v 4 (leBytes 1 a.ctorIdx ++ List.replicate 31 0)

/-- Host addresses of tile `frame`'s bytes and of its record in a copy (log entry 20). -/
def Move.places (m : Move) (frame : Nat) : Nat × Nat :=
  if m.leaf.isSome then (m.host + 4096 * m.done, m.host + 4096 * m.count + 32 * m.done)
  else (m.host + 4128 * frame, m.host + 4128 * frame + 4096)

/-- A home lies in the page that a migration moves. -/
def State.inMove (s : State) (m : Move) (h : Home) : Bool :=
  m.leaf.isSome && (if m.out then s.inHbm h && decide (m.first ≤ h.frame) && decide (h.frame < m.first + m.count)
    else h.host && decide (m.host / 4096 ≤ h.frame) && decide (h.frame < m.host / 4096 + m.count))

/-- A migration in hand holds an access to the page it moves (R268). -/
def State.moveHolds (s : State) (h : Home) : Bool :=
  s.fars.any fun e => e.2.any fun f => match f.kind with
    | .move m => s.inMove m h
    | _ => false

/-- The number of a queue whose header a migration moves. -/
def State.rekey (s : State) (m : Move) (k : Nat) : Nat :=
  let h := s.homeAt k
  if !s.inMove m h then k
  else if m.out then { h with host := true, frame := m.host / 4096 + (h.frame - m.first) : Home }.key
  else { h with host := false, frame := m.first + (h.frame - m.host / 4096) : Home }.key

/-- The new home of an access that a migration held, and the new number of the queue of a packet in hand. -/
def State.rehome (s : State) (m : Move) (f : Far) : Far :=
  let f := match f.kind with
    | .deliver k i => { f with kind := .deliver (s.rekey m k) i }
    | _ => f
  if f.stage == .sent && s.inMove m f.home then
    if m.out then { f with host := true, frame := m.host / 4096 + (f.frame - m.first), chan := none }
    else
      let t := m.first + (f.frame - m.host / 4096)
      { f with host := false, dev := s.devIndex, frame := t, chan := some (t / 2 ^ 18) }
  else f

/-- A migration's page has moved: its leaf entry changes, the units forget the partition's translations, and the accesses held
and the queues polled go to the new home (R268); `none` when the entry's tile is sealed and cannot be written. -/
def State.endMove (s : State) (p : Nat) (m : Move) : Option State :=
  match m.leaf with
  | none => some s
  | some (h, e) =>
    let bs := leBytes 8 e.toNat
    let t := if h.host || s.inHbm h then (s.guestWrite h 8).homeWrite p h bs
      else some ({ s with nextFar := s.nextFar + 1 }.wire h.dev (.farWrite s.devIndex s.nextFar p h.frame h.off bs))
    t.map fun s =>
      let s := (s.flushTlbs p).modPart p fun q => { q with queues := q.queues.foldl (fun t e => Table.put t (s.rekey m e.1) e.2) [] }
      { s with fars := s.fars.map fun (e : Nat × Option Far) => (e.1, e.2.map (s.rehome m)) }

/-- The last tile has been copied, and the entry of a page has changed: the function hears of it. An entry that cannot be written
leaves the page where it was (DESIGN CHOICE, log entry 20). -/
def State.finishMove (s : State) (n : Nat) (f : Far) (m : Move) : State :=
  match s.endMove f.part m with
  | some t => (t.dropFar n).answer m.fn .done []
  | none => (s.dropFar n).answer m.fn .refused []

/-- One tile of a migration, checkpoint or restore is copied as it stands, its record with it; a restore recomputes the bursts that
hold parity (R248). Once the interface of a confidential partition has left RUN the move fails (19_host.md R404). After the last one the move ends, once
the page-table entry of a page has been written in a window of its own channel (12_order.md R277). -/
def State.moveStep (s : State) (n : Nat) (f : Far) (m : Move) : State :=
  if (s.part f.part).confidential && (s.part f.part).tdi != .run then (s.dropFar n).answer m.fn .refused []
  else if m.count ≤ m.done then s.finishMove n f m
  else
    let t := s.moveTile f.part m
    let (a, r) := m.places t
    let h : Home := { dev := s.devIndex, frame := t }
    let mine := (List.range 128).map fun i => tileBurst (t / 2 ^ 18) (t % 2 ^ 18) i
    let s := s.countHome h
    let s :=
      if m.out then
        let s := (mine ++ [recordBurst (t / 2 ^ 18) (t % 2 ^ 18)]).foldl State.readUe s
        { s with host := (s.host.write a (someBytes (s.homeBytes h 4096))).write r (someBytes (s.record t)) }
      else
        let s := { s with poisoned := s.poisoned.filter fun b => !mine.contains b }
        let rec_ := recordBurst (t / 2 ^ 18) (t % 2 ^ 18)
        let s := if parityBurst (mine.headD 0) = mine.headD 0 then mine.foldl State.recompute s else s.putTile t 0 (s.host.read a 4096)
        if parityBurst rec_ = rec_ then s.recompute rec_ else s.putStriped rec_ (s.host.read r 32)
    let m := { m with done := m.done + 1 }
    let next := { f with kind := .move m, at_ := s.tick + 1, age := 0 }
    if m.done < m.count then
      let t := s.moveTile f.part m
      s.setFar n (some { next with frame := t, chan := some (t / 2 ^ 18) })
    else match m.leaf with
      | some (l, _) =>
        if s.inHbm l then s.setFar n (some { next with frame := l.frame, off := l.off, size := 8, chan := some (l.frame / 2 ^ 18) })
        else s.finishMove n f m
      | none => s.finishMove n f m

/-- Starts a migration, checkpoint or restore of `m.count` tiles. -/
def State.startMove (s : State) (p : Nat) (m : Move) : State :=
  let t := s.moveTile p m
  let (d, s) := s.draw
  if m.count = 0 then s.answer m.fn .done []
  else (s.newFar { kind := .move m, stage := .sent, part := p, frame := t, dev := s.devIndex, size := 4096, origin := 34,
                   at_ := s.tick + 1 + Config.freeNat d, chan := some (t / 2 ^ 18) }).2

/-! ## Service in guest windows, R254 -/

/-- A request waits to be served: it has arrived, and what has to perform before it has. -/
def State.farWaits (s : State) (f : Far) : Bool :=
  decide (f.at_ ≤ s.tick) && f.after.all s.gone && (f.walks || (f.stage == .held && f.after.isSome) ||
    (f.stage == .sent && (f.host || f.dev == s.devIndex || match f.kind with
      | .deliver _ _ => true
      | _ => false)))

/-- `g` comes before `f` from the same source (R254). -/
def Far.before (n : Nat) (g : Far) (m : Nat) (f : Far) : Bool :=
  g.origin == f.origin && g.core == f.core && (decide (g.at_ < f.at_) || (g.at_ == f.at_ && decide (n < m)))

/-- Request `n` may be served at the present tick: it waits, no migration holds it, and, where it needs a channel's controller, it
is the first of its source there, no other request has waited 64 windows there before it, the window holds it, no latch holds the
sealed tile it writes, and the cobbler it needs is free (R35, R254, R292). -/
def State.farDue (s : State) (n : Nat) (f : Far) : Bool :=
  s.farWaits f && (f.walks || f.stage == .held || !s.moveHolds f.home || f.origin == 34) && match f.chan with
    | none => true
    | some cn =>
      let rivals := s.fars.filterMap fun e => e.2.bind fun g =>
        if e.1 != n && g.chan == some cn && s.farWaits g then some (e.1, g) else none
      let writes := match f.kind with
        | .load _ => false
        | .deliver _ _ => false
        | .move m => decide (m.count ≤ m.done)
        | _ => true
      s.windowFits cn (s.farNeed f) &&
      !(writes && !f.walks && s.sealedTile f.frame && s.latchHolds f.frame) &&
      !(f.kind == .amo && !f.walks && decide (f.handler < 32) && decide (s.tick < Table.get 0 s.cobFree f.home.unit)) &&
      rivals.all (fun e => !e.2.before e.1 n f) &&
      (decide (64 ≤ f.age) || rivals.all fun e => decide (e.2.age < 64))

/-- A walk is complete: its unit holds the translation, or there is none, and the request goes on (R287, R299, R300). One whose
translation has been lost meanwhile walks again. -/
def State.walked (s : State) (n : Nat) (f : Far) : State :=
  if f.stage == .ringWalk then
    s.putFar n { f with stage := .sent, fail := none, failed := if f.fail.isSome then f.ring :: f.failed else f.failed }
  else if f.origin = s.devIndex && f.kind != .qapp then
    (s.setFar n (some { f with stage := .translating, chan := none })).modOwner f.core n fun k =>
      { k with sched := k.sched ++ [{ due := max (f.src.cyc + 6) (k.cyc + 1),
                                      work := { ctx := { core := f.core, req := n }, instr := .translationAnswer } }] }
  else
    match if f.kind == .qapp && f.va % 64 != 0 then some (.error .xlate) else s.translated f with
    | none => s.startWalk n f
    | some (.ok h) => s.postFar n (f.toHome h)
    | some (.error c) => match f.kind with
      | .qapp => s.qappStatus n f 2
      | _ => s.farFault n f c (BitVec.ofNat 64 f.va)

/-- The next tables of a walk that lie on one channel are read in its window, and those behind them when their windows come; a
translation found enters the unit (R254, R279). -/
def State.walkStep (s : State) (n : Nat) (f : Far) : State :=
  let l := s.walkLeft f
  let cn := l.head?.map fun h => h.frame / 2 ^ 18
  if cn != f.chan then s.putFar n f
  else if (s.cached f.unit f.part f.walkVa).isSome then s.walked n f
  else
    let s := (l.takeWhile fun h => some (h.frame / 2 ^ 18) == cn).foldl (fun s h => s.guestRead h 8) s
    let next := match f.tab with
      | some (lv, h) => s.walkIn f.part f.walkVa cn (5 - lv) lv h
      | none => match s.rootOf f.part f.walkVa with
        | .ok h => s.walkIn f.part f.walkVa cn 4 1 h
        | .error c => .error c
    match next with
    | .ok (.inr (lv, h)) => s.setFar n (some { f with tab := some (lv, h), chan := some (h.frame / 2 ^ 18) })
    | .ok (.inl e) => (s.putTlb f.unit f.part f.walkVa e).walked n f
    | .error c => s.walked n { f with fail := some c }

/-- GUEST_ACCESS: the controller serves request `req`: a walk, a read, a write, an atomic, a queue packet, or a tile of a move
(R254). A handler that another of the same tick keeps from its cobbler waits on (R292). -/
def execGuestAccess (s : State) : Out :=
  let n := s.ctx.req
  match Table.get none s.fars n with
  | none => ok s
  | some f =>
    if f.walks then ok (s.walkStep n f)
    else if f.stage == .held then ok (s.postFar n f)
    else
      match f.kind with
      | .load _ =>
        let s := s.guestRead f.home f.size
        match s.homeRead f.part f.home f.size with
        | some bs =>
          if 8 < f.size then ok ((s.dropFar n).wire f.origin (.data f.reply bs))
          else ok (s.farReply n f (BitVec.ofNat 64 (ofLe bs)) 0)
        | none => ok (s.farReply n f 0 1)
      | .store => ok { s with todo := onReq n .farStorePerform :: s.todo }
      | .amo =>
        if f.handler < 32 && decide (s.tick < Table.get 0 s.cobFree f.home.unit) then ok s
        else ok { s with todo := onReq n .handlerRun :: s.todo }
      | .qapp =>
        if f.origin == s.devIndex && !s.farAlive f then ok (s.dropFar n)
        else if f.origin != s.devIndex && decide (f.lim < s.tick + 1536) then ok (s.dropFar n)
        else ok (s.qappServe n f)
      | .flush => ok (s.dropFar n)
      | .deliver key _ =>
        let s := s.guestRead f.home 64
        match s.homeRead f.part f.home 64 with
        | none => ok (s.dropFar n)
        | some bs =>
          let s := s.setFar n (some { f with stage := .served, data := bs, chan := none })
          ok { s with todo := { ctx := { part := f.part, idx := key }, instr := .queueDelivery } :: s.todo }
      | .move m => ok (s.moveStep n f m)

/-! ## Fences and barriers, R282 to R289, R296, R297 -/

/-- A home lies in a scope, Table 12.3. -/
def scopeFar (sc : Scope) (host peer : Bool) : Bool :=
  match sc with
  | .core => false
  | .device => !host && !peer
  | .pod => !host
  | .system => true

/-- A pool lies in a scope. -/
def scopePool (sc : Scope) (own : Bool) : Bool := sc != .core || own

/-- A write that core `c` issued before tick `t` with its home in the scope has not performed (R288). -/
def State.unperformed (s : State) (c t : Nat) (sc : Scope) : Bool :=
  (s.fars.any fun e => e.2.any fun f => f.core == c && f.run.isSome && f.run == (s.core c).run && decide (f.src.tick < t) &&
    (match f.kind with
      | .load _ => false
      | .flush => false
      | _ => true) && scopeFar sc f.host (f.dev != s.devIndex)) ||
  (s.pend.any fun w => w.src.core == c && w.src.rx.isNone && decide (w.src.tick < t) &&
    match w.upd.plain with
    | .pool d _ _ _ => scopePool sc (d == c)
    | .acc d _ _ _ => scopePool sc (d == c)
    | .tag d _ _ => scopePool sc (d == c)
    | _ => false) ||
  (s.core c).ops.any fun e => e.2.any fun o => decide (o.src.tick < t) && o.fut.any fun f => scopePool sc (f.1 == c)

/-- FENCE, R288. -/
def execFence (xd : XReg) (o : FenceOrd) (sc : Scope) (s : State) : Out :=
  ok (s.hold (.fence o sc (s.tick + (s.part (s.partOf s.ctx.core)).fenceLimit)) (some xd) none)

/-- BAR.ARR, R297. -/
def execBarArr (xd : XReg) (c : BitVec 3) (s : State) : Out := ok (s.hold (.barArrive c.toNat false) (some xd) none)
/-- BAR.WAIT. -/
def execBarWait (xd xa : XReg) (c : BitVec 3) (s : State) : Out :=
  ok (s.hold (.barFlip c.toNat ((s.xr xa).getLsbD 0)) (some xd) none)
/-- BAR.AW. -/
def execBarAw (xd : XReg) (c : BitVec 3) (s : State) : Out := ok (s.hold (.barArrive c.toNat true) (some xd) none)

/-- The core in hand arrives in context `b`: whether it had arrived already in the phase, and the state (R296, R297). -/
def State.arrive (s : State) (b : Nat) : Bool × State :=
  let c := s.ctx.core
  match s.me.run with
  | none => (false, s)
  | some r =>
    let l := Table.get [] (s.run r).arrived b
    if l.contains c then (true, s)
    else (false, (s.modRun r fun u => { u with arrived := Table.put u.arrived b (l ++ [c]) }).barCheck r b)

/-- A wait that FENCE_COMPLETE looks at: a fence, a barrier's arrival, or a translated release. -/
def State.fenceWait (s : State) (w : Wait) : Bool :=
  w.ans.isNone && match w.what with
    | .fence _ _ _ => true
    | .barArrive _ _ => true
    | .far n => (s.far n).stage == .held
    | _ => false

/-- What a fence waits for is complete: its order asks for nothing, or the earlier writes have performed and, at SYSTEM scope, the
flush read at the host port has too (R288). The read is sent once the writes have performed. -/
def State.fenceDone (s : State) (w : Wait) (o : FenceOrd) (sc : Scope) : Bool × Wait × State :=
  if o == .acq then (true, w, s)
  else if s.unperformed s.ctx.core w.src.tick sc then (false, w, s)
  else if sc != .system then (true, w, s)
  else
    match w.flush with
    | some m => (s.gone m, w, s)
    | none =>
      let (d, s) := s.draw
      let (m, s) := s.newFar { kind := .flush, stage := .sent, core := s.ctx.core, run := s.me.run, host := true, origin := s.devIndex,
                               src := w.src, at_ := s.tick + 1 + Config.freeNat d }
      (false, { w with flush := some m }, s)

/-- One wait of the core in hand at the cycle about to begin: the fence's status, the arrival, or the release's post. What BAR.ARR,
BAR.AW, STF.REL and AMO.REL hold back for their release has no limit of its own: R289 gives FENCE_LIMIT to FENCE alone (DESIGN
CHOICE, log 34). -/
def State.fenceStep (s : State) (w : Wait) : Wait × State :=
  let c := s.ctx.core
  let k := s.me
  let clear := fun sc => !s.unperformed c w.src.tick sc
  match w.what with
  | .fence o sc lim =>
    let (done, w, s) := s.fenceDone w o sc
    if decide (w.base ≤ k.cyc + 1) && (done || decide (lim ≤ s.tick)) then
      let st := if !done then 2 else if k.discarded = 0 then 0 else 1
      ({ w with ans := some (BitVec.ofNat 64 (min k.discarded 0xFFFF * 65536 + st)) }, s.modMe fun k => { k with discarded := 0 })
    else (w, s)
  | .barArrive b wait =>
    if decide (w.base ≤ k.cyc + 1) && clear .device then
      let ph := k.barPhase.getLsbD b
      let (again, s) := s.arrive b
      if wait then ({ w with what := .barFlip b ph, base := k.cyc + 1 }, s)
      else ({ w with ans := some (BitVec.ofNat 64 (ph.toNat + 2 * again.toNat)) }, s)
    else (w, s)
  | .far n =>
    let f := s.far n
    if clear (f.rel.getD .core) then
      let w := if f.kind == .store then { w with ans := some 0 } else w
      (w, s.postFar n f)
    else (w, s)
  | _ => (w, s)

/-- FENCE_COMPLETE: what the earlier writes of the core in hand held back, R287 to R289, R297. -/
def execFenceComplete (s : State) : Out :=
  let (ws, s) := s.me.waits.foldl (fun (a : List Wait × State) w =>
    let (w, s) := if a.2.fenceWait w then a.2.fenceStep w else (w, a.2)
    (a.1 ++ [w], s)) ([], s)
  ok (s.modMe fun k => { k with waits := ws })

/-- BARRIER_FLIP: the phase bit of context `idx` flips in the root and in every core's copy (R296). -/
def execBarrierFlip (s : State) : Out :=
  let r := s.ctx.run
  let b := s.ctx.idx
  let s := s.modRun r fun u => { u with phase := u.phase ^^^ (1#8 <<< b), arrived := Table.put u.arrived b [],
                                        flips := u.flips.filter fun f => f.2 != b }
  ok ((s.run r).cores.foldl (fun s c => s.modCore c fun k => { k with barPhase := k.barPhase ^^^ (1#8 <<< b) }) s)

/-! ## AMOL, R290 -/

/-- AMOL: an own-pool access samples now, a vault's at the end of c0 + 3 + H; in an elastic phase the core holds issue
until xd is written. -/
def execAmol (op : AmolOp) (xd xa xb : XReg) (w8 : Bool) (imm : BitVec 24) (s : State) : Out :=
  let a := s.xr xa + imm.signExtend 64
  let n := if w8 then 8 else 4
  let c := s.ctx.core
  match s.access a n with
  | none => ok (s.raise .poolBounds a 0)
  | some (d, o) =>
    let q : Op := { instr := .amol op xd xa xb w8 imm, src := s.src, cs := d, as := o, x0 := a, x1 := s.xr xb,
                    mask := (s.xr xd).setWidth 256, fut := [(d, o, n)], futX := [xd] }
    let hold := fun (s : State) due => if s.me.elastic then s.hold (.amol due) none none else s
    if isVault a then
      let h := hops c d
      if s.fabricDown then ok (s.raise .railDown 0 0)
      else ok ((hold s (s.me.cyc + 8 + 2 * h)).vaultOp (4 + h) { q with hs := h })
    else
      let (m, s) := s.newOp c q
      execVaultSample { hold s (s.me.cyc + 4) with ctx := { s.ctx with op := m } }

end Sys2Proof.Machine
end

