-- ==== Sys2Proof/Machine/Light.lean ====
section
/-! DEFINITION. The light fabric and the electrical pod network: lanes, flits, landings, casks, timed and counted sends,
drains, repairs and link keys (15_light.md R328 to R359). Ranks of operands and rings are gang ranks; lanes, headers,
credits and reach maps go by pod device index. -/

namespace Sys2Proof.Machine

/-! ## Ranks and runs -/

/-- The pod device of a gang rank, 01_machine.md R10; a run that is no gang has rank 0 only. -/
def Run.device (r : Run) (self k : Nat) : Option Nat :=
  if r.last.gang then
    (match r.last.rankMap[k]? with
     | some d => if d < 32 then some d else none
     | none => none)
  else if k = 0 then some self else none

/-- The gang rank of a pod device. -/
def Run.rankOf (r : Run) (self d : Nat) : Option Nat := (List.range 32).find? fun k => r.device self k == some d

/-- A live run of a partition. -/
def State.partRun (s : State) (p : Nat) : Option (Nat × Run) := s.runs.find? fun e => e.2.part == p && e.2.st == .live

/-- Device `d` belongs to the gang of a run. -/
def Run.hasDev (r : Run) (self d : Nat) : Bool := (r.rankOf self d).isSome

/-- The run that a flit or message of device `d` for core `c` of partition `p` belongs to: the core's own run, if it is one of the partition
with the device in its gang and live, else a live run of the partition with the device in its gang (R343). -/
def State.landRun (s : State) (p c d : Nat) : Option (Nat × Run) :=
  let mine := fun (ru : Run) => ru.part == p && ru.hasDev s.devIndex d
  let other := s.runs.find? fun e => mine e.2 && e.2.st == .live
  match (s.core c).run with
  | some r => if !mine (s.run r) then other else if (s.run r).st == .live then some (r, s.run r) else none
  | none => other

/-- The partition that owns a lane set. -/
def State.laneOwner (s : State) (l : Nat) : Option Nat :=
  (s.parts.find? fun e => e.2.made && e.2.laneSets.getLsbD (l % 16)).map (·.1)

/-- The lane set carries traffic: its partition is plain, or in RUN (15_light.md R358). -/
def Part.open_ (p : Part) : Bool := !p.confidential || p.tdi == .run

/-- Counts a discarded flit or message, 01_machine.md R27. -/
def State.discard (s : State) : State := { s with linkDiscards := s.linkDiscards + 1 }

/-! ## Flits, R333 to R335 -/

/-- One bit of the CRC-32 of IEEE 802.3. -/
def crcBit (c : BitVec 32) : BitVec 32 := if c.getLsbD 0 then (c >>> 1) ^^^ 0xEDB88320 else c >>> 1
/-- The CRC-32 of IEEE 802.3 of bytes. -/
def crc32 (bs : List Byte) : BitVec 32 :=
  ~~~ (bs.foldl (fun c b => (List.range 8).foldl (fun c _ => crcBit c) (c ^^^ b.setWidth 32)) 0xFFFFFFFF)

/-- A flit header, Table 15.2. -/
structure FHead where
  zero : Nat := 0
  credits : Nat := 0
  seq : BitVec 16 := 0
  tag : BitVec 16 := 0
  tw : Bool := false
  first : Bool := false
  key : Bool := false
  cls : Nat := 0
  mask : BitVec 16 := 0
  line : Nat := 0
  core : Nat := 0
  dst : Nat := 0
  srcDev : Nat := 0
  deriving DecidableEq, Repr

/-- The 16 bytes of a header. -/
def FHead.bytes (h : FHead) : List Byte :=
  leBytes 16 (h.credits * 2 ^ 87 + h.seq.toNat * 2 ^ 71 + h.tag.toNat * 2 ^ 55 + h.tw.toNat * 2 ^ 54 + h.first.toNat * 2 ^ 53 +
    h.key.toNat * 2 ^ 52 + h.cls * 2 ^ 49 + h.mask.toNat * 2 ^ 33 + h.line % 16384 * 2 ^ 19 + h.core % 512 * 2 ^ 10 +
    h.dst % 32 * 32 + h.srcDev % 32)

/-- The header in the first 16 bytes. -/
def FHead.ofBytes (bs : List Byte) : FHead :=
  let w : BitVec 128 := BitVec.ofNat 128 (ofLe (bs.take 16))
  { zero := (bits w 96 32).toNat, credits := (bits w 87 9).toNat, seq := bits w 71 16, tag := bits w 55 16, tw := w.getLsbD 54,
    first := w.getLsbD 53, key := w.getLsbD 52, cls := (bits w 49 3).toNat, mask := bits w 33 16, line := (bits w 19 14).toNat,
    core := (bits w 10 9).toNat, dst := (bits w 5 5).toNat, srcDev := (bits w 0 5).toNat }

/-- The nonce of a flit, R334. -/
def flitNonce (slot dev lane pos : Nat) : List Byte := leBytes 6 slot ++ leBytes 1 dev ++ leBytes 1 lane ++ leBytes 1 pos ++ [0, 0, 0]

/-- The key of a lane set's slot. -/
def LaneSet.key (l : LaneSet) (b : Bool) : BitVec 256 := if b then l.key1 else l.key0

/-! The parity of a group, R335: RS(544,514) of IEEE 802.3 Clause 119 over GF(2^10), shortened to 500 data symbols. Symbols are
taken from the bits in ascending order, 10 at a time, and the parity symbols give theirs in the same way (PRESUMED, log entry
38: the spec names the code by its standard). -/

/-- Twice an element of GF(2^10) with x^10 + x^3 + 1. -/
def gf10Double (a : Nat) : Nat := if 512 ≤ a then (2 * a) ^^^ 0x409 else 2 * a
/-- A product in GF(2^10). -/
def gf10Mul (a b : Nat) : Nat :=
  ((List.range 10).foldl (fun (t : Nat × Nat) i => (if b.testBit i then t.1 ^^^ t.2 else t.1, gf10Double t.2)) (0, a)).1
/-- The code's generator without its leading 1: the product of x - 2^i for i = 0 .. 29. -/
def rsGenerator : List Nat :=
  (((List.range 30).foldl (fun (t : List Nat × Nat) _ =>
    (List.zipWith (· ^^^ ·) (t.1 ++ [0]) (0 :: t.1.map (gf10Mul t.2)), gf10Double t.2)) ([1], 1)).1).drop 1
/-- The 30 parity symbols of data symbols, first symbol first. -/
def rsParity (l : List Nat) : List Nat :=
  l.foldl (fun r d =>
    let f := d ^^^ r.headD 0
    List.zipWith (· ^^^ ·) (r.drop 1 ++ [0]) (rsGenerator.map (gf10Mul f))) (List.replicate 30 0)
/-- The 300 parity bits of the 624 bytes of a group. -/
def groupParity (bs : List Byte) : Nat :=
  let n := ofLe bs
  (rsParity ((List.range 500).map fun i => n / 2 ^ (10 * i) % 1024)).foldr (fun v a => v + 1024 * a) 0

/-! The group's decoding: an errors-only decoder of the code, which corrects up to 15 of its 530 symbols. -/

/-- A power in GF(2^10). -/
def gf10Pow (a e : Nat) : Nat :=
  ((List.range 10).foldl (fun (t : Nat × Nat) i => (if e.testBit i then gf10Mul t.1 t.2 else t.1, gf10Mul t.2 t.2)) (1, a)).1
/-- A polynomial, lowest coefficient first, at `x`. -/
def gf10Eval (l : List Nat) (x : Nat) : Nat := l.foldr (fun c a => c ^^^ gf10Mul a x) 0
/-- The error locator that the syndromes `s` give (Berlekamp and Massey). -/
def rsLocator (s : List Nat) : List Nat :=
  let step := fun (t : List Nat × List Nat × Nat × Nat) (n : Nat) =>
    let (c, b, l, q) := t
    let b := 0 :: b
    let d := (List.range (l + 1)).foldl (fun a i => a ^^^ gf10Mul (c.getD i 0) (s.getD (n - i) 0)) 0
    if d = 0 then (c, b, l, q)
    else
      let f := gf10Mul d (gf10Pow q 1022)
      let c' := (List.range (max c.length b.length)).map fun i => c.getD i 0 ^^^ gf10Mul f (b.getD i 0)
      if 2 * l ≤ n then (c', c, n + 1 - l, d) else (c', b, l, q)
  ((List.range s.length).foldl step ([1], [1], 0, 1)).1
/-- A received word of 530 symbols with the errors taken out that its syndromes name (Chien and Forney). -/
def rsRepair (r : List Nat) : List Nat :=
  let s := (List.range 30).map fun j => let x := gf10Pow 2 j; r.foldl (fun a v => v ^^^ gf10Mul a x) 0
  let c := rsLocator s
  let w := (List.range 30).map fun n => (List.range (n + 1)).foldl (fun a i => a ^^^ gf10Mul (c.getD i 0) (s.getD (n - i) 0)) 0
  let odd := c.zipIdx.map fun e => if e.2 % 2 = 1 then e.1 else 0
  r.zipIdx.map fun e =>
    let p := 529 - e.2
    let y := gf10Pow 2 (1023 - p)
    if gf10Eval c y = 0 then e.1 ^^^ gf10Mul (gf10Eval w y) (gf10Pow (gf10Eval odd y) 1022) else e.1
/-- The number of symbols of `k` bits, lowest first, of a number. -/
def symbols (k n v : Nat) : List Nat := (List.range n).map fun i => v / 2 ^ (k * i) % 2 ^ k

/-- Bytes 0..155 of the four positions of a group, a position without a bulk flit as zeros. -/
def groupData (fl : List (List Byte)) : List Byte :=
  (List.range 4).flatMap fun i => (fl.getD i [] ++ List.replicate 156 0).take 156
/-- The parity bits of a group as received are those of `p`: the parity beat, and the check fields of its bulk flits. -/
def parityIs (fl : List (List Byte)) (beat : List Byte) (p : Nat) : Bool :=
  beat == leBytes 32 p && (List.range 4).all fun i =>
    (fl.getD i []).isEmpty || (fl.getD i []).drop 156 == leBytes 4 (p / 2 ^ (256 + 11 * i) % 2048)
/-- Bytes 0..155 of a group's four positions as it decodes: the codeword within 15 symbols of what has been received, if there is one.
The 11 bits of a check field of a position without a bulk flit are not sent and read as 0 (DESIGN CHOICE, log entry 38). -/
def groupDecode (fl : List (List Byte)) (beat : List Byte) : Option (List Byte) :=
  let data := groupData fl
  if parityIs fl beat (groupParity data) then some data
  else
    let par := ofLe (beat.take 32) + ((List.range 4).map fun i =>
      2 ^ (256 + 11 * i) * (ofLe (((fl.getD i []).drop 156).take 4) % 2048)).sum
    let r := symbols 10 500 (ofLe data) ++ symbols 10 30 par
    let c := rsRepair r
    let n := (c.take 500).foldr (fun v a => v + 1024 * a) 0
    let out := leBytes 624 n
    if ofLe out = n ∧ symbols 10 30 (groupParity out) = c.drop 500 ∧ (List.zipWith (fun a b => (a != b).toNat) r c).sum ≤ 15 then some out
    else none

/-- Bytes 0..155 of a bulk flit as its group decodes, R335. -/
def flitDecoded (f : FlitIn) : Option (List Byte) :=
  (groupDecode f.group f.parity).map fun d => (d.drop (156 * (f.pos % 4))).take 156

/-- Bytes 0..155 of a flit, and its check field when it is short (R333 to R335). -/
def flitBytes (h : FHead) (key : BitVec 256) (nonce payload : List Byte) : List Byte :=
  let a := h.bytes
  let c := gcmCrypt key nonce (payload ++ List.replicate (128 - payload.length) 0) 0
  let b := a ++ c ++ (gcmTag key nonce a c).take 12
  if 2 ≤ h.cls then b ++ leBytes 4 (crc32 b).toNat else b

/-- A flit's GCM tag passes: its payload (R334). -/
def openFlit (key : BitVec 256) (nonce bs : List Byte) : Option (List Byte) :=
  let c := (bs.drop 16).take 128
  if (gcmTag key nonce (bs.take 16) c).take 12 = (bs.drop 144).take 12 then some (gcmCrypt key nonce c 0) else none

/-- Key indices a receiver accepts in a slot, R357. -/
def LaneSet.accepts (l : LaneSet) (now slot : Nat) (b : Bool) : Bool :=
  match l.flip with
  | none => b == l.cur
  | some x =>
    let new := if 80 * x ≤ now then l.cur else !l.cur
    if slot < x then b != new else decide (slot < x + 64) || b == new

/-! ## Sending -/

/-- The first tick of a position, Table 15.1. -/
def posTick (slot pos : Nat) : Nat := 80 * slot + 6 + 5 * pos
/-- The position that starts at the present tick. -/
def State.posNow (s : State) : Option Nat :=
  let x := s.tick % 80
  if 6 ≤ x && x ≤ 61 && (x - 6) % 5 == 0 then some ((x - 6) / 5) else none

/-- The owed credits that a flit starting at tick `ps` carries to device `d`, R351. -/
def State.carry (s : State) (p d ps : Nat) : Nat × State :=
  let q := s.part p
  if q.drained then (0, s)
  else
    let (n, left) := (Table.get [] q.owed d).foldl (fun (a : Nat × List (Nat × Nat)) e =>
      if e.2 + 2 ≤ ps && a.1 + e.1 ≤ 256 then (a.1 + e.1, a.2) else (a.1, a.2 ++ [e])) (0, [])
    (n, s.modPart p fun q => { q with owed := Table.put q.owed d left })

/-- The lane whose light carries a lane's rows: itself, or the reserve lane that stands in for it (R356). -/
def State.bearer (s : State) (lane : Nat) : Nat :=
  if (s.lane lane).line = 2 then
    ([14, 15].map fun l => lane / 16 * 16 + l).find? (fun l => (s.lane l).carries == some lane) |>.getD lane
  else lane

/-- The comb line on which a lane reaches device `d`: w = (d - s) mod 32, or w + 32 when line w is spared (R330, R338). -/
def State.combLine (s : State) (lane d : Nat) : Nat :=
  let w := (d + 32 - s.devIndex % 32) % 32
  w + (if (s.lane (s.bearer lane)).spare.contains w then 32 else 0)

/-- A lane can send to device `d` in a slot: its row goes there, the path is up, and neither the lane nor its port is retired
(R336, R338, R355, R356). -/
def State.canSend (s : State) (lane slot d : Nat) : Bool :=
  s.laneRank lane slot == some d && s.caps.paths.getLsbD (32 * (lane / 16) + d) &&
  !((s.lane lane).line == 3 && decide ((s.lane lane).lostUntil ≤ s.tick))

/-- Light that leaves a lane; a lost line lets nothing out (R356). -/
def State.emit (s : State) (lane d : Nat) (what : LightUse) (bs : List Byte) : State :=
  if s.tick < (s.lane lane).lostUntil then s
  else { s with lightOut := { slot := s.tick / 80, port := lane / 16, lane := lane % 16, line := s.combLine lane d, rank := d, what := what,
                              bytes := bs } :: s.lightOut }

/-- Sends a flit from a lane at a position that starts now: with its header, owed credits, key and sequence number (R333, R351).
A circuit that ends at this device brings it back, a bulk flit in a group of its own. The check field of a bulk flit follows with its
group's parity (R335). -/
def State.sendFlit (s : State) (lane slot pos : Nat) (f : Flit) : State :=
  let ls := s.laneSet (lane % 16)
  let (n, s) := s.carry f.part f.rank (posTick slot pos)
  let l := s.lane lane
  let h : FHead := { credits := n, seq := l.seq, tag := f.tag, tw := f.tw, first := f.first, key := ls.cur, cls := f.cls, mask := f.mask,
                     line := f.line, core := f.core, dst := f.rank, srcDev := s.devIndex }
  let bs := flitBytes h (ls.key ls.cur) (flitNonce slot s.devIndex lane pos) f.data
  let s := s.modLane lane fun l => { l with seq := l.seq + 1, sent := l.sent ++ [(pos, decide (2 ≤ f.cls), bs)] }
  if f.rank = s.devIndex && decide (l.lostUntil ≤ s.tick) then
    let par := groupParity (groupData ((List.range 4).map fun i => if i = pos % 4 then bs else []))
    let whole := fun i => bs ++ leBytes 4 (par / 2 ^ (256 + 11 * i) % 2048)
    let fi : FlitIn := { port := lane / 16, wave := 0, slot := slot, pos := pos, srcLane := lane, bytes := bs, parity := leBytes 32 par,
                         group := (List.range 4).map fun i => if i = pos % 4 then whole i else [], replay := bs }
    { s with inbox := s.inbox ++ [{ due := s.tick + 5, work := { instr := .flitReceive fi } }] }
  else s.emit lane f.rank (.flit pos) bs

/-- The parity of group `g` of a lane's slot leaves: 256 bits in the parity beat, the others in the check fields of the group's
bulk flits, 11 bits each; a position that is empty or holds a short flit counts as zeros (R335). -/
def State.sendParity (s : State) (lane d g : Nat) : State :=
  let sent := (s.lane lane).sent
  let data := (List.range 4).flatMap fun i =>
    match sent.find? fun e => e.1 == 4 * g + i && !e.2.1 with
    | some e => e.2.2
    | none => List.replicate 156 0
  let par := groupParity data
  let slot := s.tick / 80
  let fill := fun (t : LightTx) => match t.what with
    | .flit pos =>
      if t.slot = slot && 16 * t.port + t.lane == lane && pos / 4 == g && t.bytes.length == 156 then
        { t with bytes := t.bytes ++ leBytes 4 (par / 2 ^ (256 + 11 * (pos % 4)) % 2048) }
      else t
    | _ => t
  { s with lightOut := s.lightOut.map fill }.emit lane d (.parity g) (leBytes 32 par)

/-- What the lanes send beside flits at the present slot cycle: parity beats at 66 to 68, the replay of the slot's short flit from
69, the beacon at 74 and the training pattern, which is fixed and not given, from 75 (Table 15.1, R332, R335). -/
def State.laneBeats (s : State) : State :=
  let x := s.tick % 80
  if x < 66 then s
  else (List.range 64).foldl (fun s i =>
    match s.laneRank i (s.tick / 80) with
    | none => s
    | some d =>
      if !s.canSend i (s.tick / 80) d then s
      else if x < 69 then s.sendParity i d (x - 66)
      else if x = 69 then
        (match (s.lane i).sent.find? fun e => e.2.1 with
         | some e => s.emit i d .replay e.2.2
         | none => s)
      else if x = 74 then s.emit i d (.beacon (s.tick / 80 * 80) s.devIndex (s.timekeeper == s.devIndex)) []
      else if 75 ≤ x then s.emit i d (.training x) (Config.training x)
      else s) s

/-- The partition sends: it has a live run, and its lane sets carry traffic (R358, 16_faults.md Table 16.4). -/
def State.sends (s : State) (p : Nat) : Bool := (s.partRun p).isSome && (s.part p).open_

/-- A run of the partition stands frozen. -/
def State.frozenPart (s : State) (p : Nat) : Bool := s.runs.any fun e => e.2.part == p && match e.2.st with
  | .frozen _ => true
  | _ => false

/-- The claimed flits whose position starts now leave (R345). -/
def State.timedDepart (s : State) (pos : Nat) : State :=
  let slot := s.tick / 80
  let now := fun (c : Nat × Nat × Flit) => c.1 == slot && c.2.1 == pos && !c.2.2.gone
  s.lanes.foldl (fun s e => (e.2.claims.filter now).foldl (fun s c =>
    if s.sends c.2.2.part && s.canSend e.1 slot c.2.2.rank then
      (s.modLane e.1 fun l => { l with claims := l.claims.map fun d => if d == c then (d.1, d.2.1, { d.2.2 with gone := true }) else d }).sendFlit
        e.1 slot pos c.2.2
    else s) s) s

/-- The checks of a lane operand: WRONG_SLOT outside the partition's lane sets, LINK_LOSS in a confidential set that is not
in RUN (R344, R358). -/
def State.laneBad (s : State) (lane : Nat) : Option FCode :=
  let p := s.partOf s.ctx.core
  if !s.ownsLane p lane then some .wrongSlot else if !(s.part p).open_ then some .linkLoss else none

/-- The device of gang rank `k` for the core in hand. -/
def State.rankDev (s : State) (k : Nat) : Option Nat := (s.runOf s.ctx.core).bind fun r => r.device s.devIndex k
/-- Device `d` lies in the reach map of the partition in hand (R355). -/
def State.reachable (s : State) (d : Nat) : Bool := (s.part (s.partOf s.ctx.core)).reach.getLsbD d

/-- The first position of a lane from tick `t` on that its row sends to device `d` and that `claims` leave free. -/
def State.nextPosition (s : State) (lane d t : Nat) (claims : List (Nat × Nat × Flit)) : Option (Nat × Nat) :=
  (List.range (65 * 12)).findSome? fun i =>
    let slot := t / 80 + i / 12
    let pos := i % 12
    if t ≤ posTick slot pos && s.laneRank lane slot == some d && !claims.any (fun c => c.1 == slot && c.2.1 == pos) then some (slot, pos)
    else none

/-- LSEND, R345, R346. With index 1 in the context its failing sample is taken again after a freeze: each flit leaves in the first free
position of its lane from the tick on in which it was due, that its row sends to the flit's rank (16_faults.md R373 does not say which
position; DESIGN CHOICE, log entry 38). -/
def execLsend (a : LsendArgs) (s : State) : Out :=
  let xa := s.xr a.xa
  let xb := s.xr a.xb
  let lane := 16 * a.port.toNat + a.lane.toNat
  let n := a.cnt.toNat + 1
  let words := if a.m = 0 then 16 else a.m.toNat
  let len := 128 * (n - 1) + 8 * words
  let dst := (bits xb 0 21).toNat
  let core := (bits xb 21 9).toNat
  let rank := (bits xb 30 5).toNat
  if bits xb 35 29 != 0 || dst % 128 != 0 then ok (s.raise .poolBounds xb 0)
  else if xa.toNat % 8 != 0 || !s.me.inScratch xa len then ok (s.raise .poolBounds xa 0)
  else
    match s.laneBad lane with
    | some f => ok (s.raise f 0 0)
    | none =>
      match s.rankDev rank with
      | none => ok (s.raise .wrongSlot 0 0)
      | some d =>
        if !s.reachable d then ok (s.raise .peerUnreachable 0 0)
        else
          let p0 := s.tick + 12
          let sn := p0 / 80
          let x := p0 % 80
          let pos := (x - 6) / 5
          let claims := (s.lane lane).claims
          let again := decide (s.ctx.idx = 1)
          let bad := !again && (decide (x < 6) || decide (61 < x) || (x - 6) % 5 != 0 || decide (11 < pos + n - 1) || s.laneRank lane sn != some d ||
            claims.any (fun c => c.1 == sn && decide (pos ≤ c.2.1) && decide (c.2.1 < pos + n)) ||
            (a.s && claims.any fun c => c.1 == sn && decide (2 ≤ c.2.2.cls)))
          if bad then ok (s.raise .wrongSlot 0 0)
          else
            let t := bits (s.xr a.xc) 0 16
            let bs := s.poolRead s.ctx.core xa.toNat len
            let flit := fun j =>
              let ad := dst + 128 * j
              ({ cls := if a.s then 2 else 0, rank := d, core := core, line := ad / 128,
                 mask := if j + 1 = n then (1#16 <<< words) - 1 else 0xFFFF, first := j == 0,
                 tw := j + 1 == n || ad / 1024 != (ad + 128) / 1024, tag := t, data := (bs.drop (128 * j)).take 128,
                 src := s.src, part := s.partOf s.ctx.core } : Flit)
            let held := if again then (List.range n).foldl (fun l j => match s.nextPosition lane d (p0 + 5 * j) l with
                | some (k, i) => l ++ [(k, i, flit j)]
                | none => l) claims
              else claims ++ (List.range n).map fun j => (sn, pos + j, flit j)
            let fin := if again then (held.drop claims.length).foldl (fun m e => max m (if a.s then 80 * e.1 + 73 else posTick e.1 e.2.1 + 4)) 0
              else if a.s then 80 * sn + 73 else p0 + 5 * n - 1
            ok (s.modLane lane fun l => { l with claims := held, busy := l.busy ++ [(fin, s.src)] })

/-! ## LRECV, R347 -/

/-- LRECV. -/
def execLrecv (xa xc : XReg) (d : BitVec 20) (s : State) : Out :=
  let a := s.xr xa
  if !s.me.inScratch a 1 then ok (s.raise .poolBounds a 0)
  else if 16 ≤ s.me.expects.length then
    (if s.me.elastic then ok (s.hold .room none (some (.lrecv xa xc d))) else ok (s.raise .sendqFull 0 0))
  else ok (s.modMe fun k => { k with expects := k.expects ++
    [{ addr := a.toNat, tag := bits (s.xr xc) 0 16, e := k.cyc + d.toNat, src := s.src }] })

/-- EXPECTATION_CHECK: expectation `idx` of the core in hand is checked as of the end of the cycle before: freed at a pass,
SCHED_TAG in a locked phase, else it stays armed (R347). -/
def execExpectationCheck (s : State) : Out :=
  let c := s.ctx.core
  match s.me.expects[s.ctx.idx]? with
  | none => ok s
  | some x =>
    let free := s.modMe fun k => { k with expects := k.expects.eraseIdx s.ctx.idx }
    if s.tagOk c x.addr x.tag then ok free
    else if s.me.elastic then ok s
    else ok (free.raiseOn c .schedTag x.src (BitVec.ofNat 64 (x.addr / 1024 * 1024)) ((s.tagAt c x.addr ++ x.tag).setWidth 64))

/-! ## Counted sends, R350 -/

/-- QSEND: the flits take their entries at c0 and can leave once its cycle has ended. -/
def execQsend (a : QsendArgs) (s : State) : Out :=
  let xa := s.xr a.xa
  let xb := s.xr a.xb
  let lane := 16 * a.port.toNat + a.lane.toNat
  let n := a.cnt.toNat + 1
  let p := s.partOf s.ctx.core
  match (if bits xb 5 59 = 0 then s.rankDev (bits xb 0 5).toNat else none) with
  | none => ok (s.raise .poolBounds xb 0)
  | some d =>
    if xa.toNat % 8 != 0 || !s.me.inScratch xa (128 * n) then ok (s.raise .poolBounds xa 0)
    else
      match s.laneBad lane with
      | some f => ok (s.raise f 0 0)
      | none =>
        if !s.reachable d then ok (s.raise .peerUnreachable 0 0)
        else
          let l := s.lane lane
          if l.closed || 64 < l.queue.length + n then ok (s.hold .room none (some (.qsend a)))
          else
            let wire := a.route == .wire || (a.route == .auto && decide (128 * n < (s.part p).qsendThreshold))
            let flit := fun j => ({ cls := 1, rank := d, mask := 0xFFFF, first := j == 0, tw := true, tag := bits (s.xr a.xc) 0 16, wire := wire,
                                    data := s.poolRead s.ctx.core (xa.toNat + 128 * j) 128, src := s.src, part := p } : Flit)
            ok ((s.modLane lane fun l => { l with queue := l.queue ++ (List.range n).map flit }).defer 0 (.queued lane s.src))

/-- Credits the partition holds for the cask of device `d`. -/
def Part.credit (p : Part) (d : Nat) : Nat := Table.get 0 p.credits d
/-- Changes the credits for device `d`. -/
def State.addCredit (s : State) (p d : Nat) (f : Nat → Nat) : State :=
  s.modPart p fun q => { q with credits := Table.put q.credits d (f (q.credit d)) }

/-- The oldest queued flit of a lane for device `d`, by light or by wire. -/
def Lane.oldest (l : Lane) (wire : Bool) (d : Nat) : Option Nat := l.queue.findIdx? fun f => f.ready && f.wire == wire && f.rank == d

/-- COUNTED_FLIT_DEPART: at position `idx` of the lane in hand the oldest flit for the row's destination leaves, if a credit
is held (R350). -/
def execCountedFlitDepart (s : State) : Out :=
  let lane := s.ctx.lane
  let slot := s.tick / 80
  let l := s.lane lane
  match s.laneRank lane slot with
  | none => ok s
  | some d =>
    match l.oldest false d with
    | none => ok s
    | some i =>
      let f := l.queue.getD i {}
      if (s.part f.part).credit d = 0 || !s.sends f.part || !s.canSend lane slot d then ok s
      else ok (((s.modLane lane fun l => { l with queue := l.queue.eraseIdx i }).addCredit f.part d (· - 1)).sendFlit lane slot s.ctx.idx f)

/-- The order in which flits came to stand in their queues. -/
def Flit.key (f : Flit) : List Nat := f.readyAt :: f.src.key

/-- The oldest wire flit of partition `p` for device `d` on any lane: the lane, the place in its queue and the flit. -/
def State.oldestWire (s : State) (p d : Nat) : Option (Nat × Nat × Flit) :=
  (s.lanes.filterMap fun e => (e.2.oldest true d).bind fun i =>
    let f := e.2.queue.getD i {}
    if f.part == p then some (e.1, i, f) else none).foldl (fun b x => match b with
      | some y => if keyLt x.2.2.key y.2.2.key then some x else b
      | none => some x) none

/-- WIRE_FLIT_DEPART: the oldest wire flit of the partition in hand for device `idx` leaves, if a credit is held (R350). -/
def execWireFlitDepart (s : State) : Out :=
  let p := s.ctx.part
  let d := s.ctx.idx
  match s.oldestWire p d with
  | none => ok s
  | some (lane, i, f) =>
    if (s.part p).credit d = 0 || !s.sends p then ok s
    else ok (((s.modLane lane fun l => { l with queue := l.queue.eraseIdx i }).addCredit p d (· - 1)).wire d (.flit p s.devIndex f.tag f.data))

/-- QPOP (cask), R351. -/
def execQpopCask (xa xb xc : XReg) (s : State) : Out :=
  let p := s.partOf s.ctx.core
  match (s.part p).cask with
  | none => ok (s.raise .poolBounds (s.xr xa) 0)
  | some _ =>
    let r := (bits (s.xr xa) 0 5).toNat
    match s.rankDev r with
    | none => ok (s.deferX 0 xc 0)
    | some d =>
      let (h, c) := Table.get (0, 0) (s.part p).rings r
      let f := min (s.xr xb).toNat c
      let s := (s.deferX 0 xc (BitVec.ofNat 64 (c * 65536 + h))).defer 0 (.qpop p r f)
      ok (if f = 0 then s
          else s.modPart p fun q => { q with owed := Table.put q.owed d (Table.get [] q.owed d ++ [(f, s.tick)]) })

/-- CREDIT_MESSAGE: credits owed to device `idx` for more than 160 ticks go by wire (R351). -/
def execCreditMessage (s : State) : Out :=
  let p := s.ctx.part
  let d := s.ctx.idx
  let l := Table.get [] (s.part p).owed d
  let (due, left) := l.partition fun e => decide (e.2 + 160 < s.tick)
  let n := (due.map (·.1)).foldl (· + ·) 0
  if n = 0 || (s.part p).drained then ok s
  else ok ((s.modPart p fun q => { q with owed := Table.put q.owed d left }).wire d (.credit p s.devIndex n))

/-! ## Wire sends, R353 -/

/-- A free entry of the wire send buffer, and the time the entry stays in use. -/
def State.wireSlot (s : State) : State :=
  let (n, s) := s.draw
  s.modMe fun k => { k with wireBuf := k.wireBuf ++ [s.tick + 1 + Config.freeNat n % 1536] }
/-- Entries of the wire send buffer in use. -/
def State.wireUsed (s : State) : Nat := (s.me.wireBuf.filter fun t => decide (s.tick < t)).length

/-- ESEND. -/
def execEsend (xa xb xc : XReg) (len : BitVec 9) (s : State) : Out :=
  let a := s.xr xa
  let b := s.xr xb
  let n := len.toNat + 1
  if !s.me.inScratch a n then ok (s.raise .poolBounds a 0)
  else if bits b 35 29 != 0 then ok (s.raise .poolBounds b 0)
  else
    match s.rankDev (bits b 30 5).toNat with
    | none => ok (s.raise .poolBounds b 0)
    | some d =>
      if !s.reachable d then ok (s.raise .peerUnreachable 0 0)
      else if 16 ≤ s.wireUsed then ok (s.hold .room none (some (.esend xa xb xc len)))
      else ok (s.wireSlot.wire d (.bytes (s.partOf s.ctx.core) s.devIndex (bits b 21 9).toNat (bits b 0 21).toNat (bits (s.xr xc) 0 16)
        (s.poolRead s.ctx.core a.toNat n)))

/-- The devices of the gang ranks of the core in hand. -/
def State.rankDevs (s : State) : List (Option Nat) := (List.range 32).map s.rankDev

/-- The messages that an ESEND or an EMCAST of the core in hand sends now: the device and the message. -/
def State.wireSends (s : State) (i : Instr) : List (Nat × Wire) :=
  let p := s.partOf s.ctx.core
  match i with
  | .esend xa xb xc len =>
    let b := s.xr xb
    ((s.rankDev (bits b 30 5).toNat).map fun d => (d, Wire.bytes p s.devIndex (bits b 21 9).toNat (bits b 0 21).toNat (bits (s.xr xc) 0 16)
      (s.poolRead s.ctx.core (s.xr xa).toNat (len.toNat + 1)))).toList
  | .emcast xa xb xc group len =>
    let (commit, old, new) := Table.get (0, 0, 0) (s.part p).mcast group.toNat
    let e := if s.tick ≤ commit then old else new
    (s.rankDevs.zipIdx.filterMap fun x => if e.getLsbD x.2 then x.1 else none).map fun d =>
      (d, .bytes p s.devIndex (bits e 32 9).toNat (bits (s.xr xb) 0 21).toNat (bits (s.xr xc) 0 16)
        (s.poolRead s.ctx.core (s.xr xa).toNat (len.toNat + 1)))
  | _ => []

/-- EMCAST: the message goes to the replication point, which lies at this device's own port to the network: its head is there in c0, and
its copies leave with the message, in send order with every other (12_order.md R301 does not say where the point lies; DESIGN
CHOICE, log 38; R352, R353). -/
def execEmcast (xa xb xc : XReg) (group : BitVec 6) (len : BitVec 9) (s : State) : Out :=
  let a := s.xr xa
  let b := s.xr xb
  let n := len.toNat + 1
  if !s.me.inScratch a n then ok (s.raise .poolBounds a 0)
  else if bits b 21 43 != 0 then ok (s.raise .poolBounds b 0)
  else if 16 ≤ s.wireUsed then ok (s.hold .room none (some (.emcast xa xb xc group len)))
  else
    let p := s.partOf s.ctx.core
    let s := s.wireSlot
    ok { s with todo := { instr := .wireDelivery (.replicate p group.toNat (bits b 0 21).toNat (bits (s.xr xc) 0 16) s.rankDevs
      (s.poolRead s.ctx.core a.toNat n)) } :: s.todo }

/-! ## DRAIN, R354 -/

/-- The owned normal lanes a mask names. -/
def State.drainLanes (s : State) (m : X) : List Nat :=
  (List.range 64).filter fun i => m.getLsbD i && decide (i % 16 < 14) && s.ownsLane (s.partOf s.ctx.core) i

/-- A DRAIN form, or LINK_LOSS in a confidential set that is not in RUN (R358). -/
def State.drainForm (s : State) (xa : XReg) (go : List Nat → State → State) : State :=
  let ls := s.drainLanes (s.xr xa)
  if !ls.isEmpty && !(s.part (s.partOf s.ctx.core)).open_ then s.raise .linkLoss 0 0 else go ls s

/-- The devices a lane's rows reach in the tables in force from the present slot on. -/
def State.laneRanks (s : State) (lane : Nat) : List Nat := ((List.range 64).filterMap fun i => s.laneRank lane (s.tick / 80 + i)).eraseDups

/-- DRAIN.mark: owed credits are held from c0; the lanes close at the end of the cycle (R56). -/
def execDrainMark (xa xc : XReg) (s : State) : Out :=
  ok (s.drainForm xa fun ls s =>
    let p := s.partOf s.ctx.core
    ((s.modPart p fun q => { q with drained := true }).defer 0 (.drain p (ls.map fun i => (i, some (s.laneRanks i))) true)).deferX 0 xc 0)

/-- DRAIN.poll. -/
def execDrainPoll (xa xc : XReg) (s : State) : Out :=
  ok (s.drainForm xa fun ls s =>
    let n := (ls.filter fun i => (s.lane i).closed && (s.lane i).markers == some []).length
    s.deferX 0 xc (BitVec.ofNat 64 ((s.part (s.partOf s.ctx.core)).markersIn * 2 ^ 32 + n)))

/-- DRAIN.release, at the end of the cycle (R56). -/
def execDrainRelease (xa xc : XReg) (s : State) : Out :=
  ok (s.drainForm xa fun ls s =>
    (s.defer 0 (.drain (s.partOf s.ctx.core) (ls.map fun i => (i, none)) false)).deferX 0 xc 0)

/-- DRAIN_MARKER_SEND: a closed lane whose queue is empty sends its marker to the row's destination in position `idx` (R354). The marker
is a send of one flit and carries FIRST, which clears the poison mark of its receive lane (R354 does not say whether it does;
DESIGN CHOICE, log 38). -/
def execDrainMarkerSend (s : State) : Out :=
  let lane := s.ctx.lane
  let slot := s.tick / 80
  let l := s.lane lane
  match l.markers, s.laneRank lane slot with
  | some ms, some d =>
    if !l.queue.isEmpty || !ms.contains d || l.claims.any (fun c => c.1 == slot && decide (2 ≤ c.2.2.cls)) then ok s
    else
      match s.laneOwner lane with
      | none => ok s
      | some p =>
        let f : Flit := { cls := 3, rank := d, first := true, part := p }
        if !s.sends p || !s.canSend lane slot d then ok s
        else ok ((s.modLane lane fun l =>
            { l with markers := some (ms.erase d), claims := l.claims ++ [(slot, s.ctx.idx, { f with gone := true })] }).sendFlit
          lane slot s.ctx.idx f)
  | _, _ => ok s

/-! ## Receiving, R335, R341 to R343, R349 -/

/-- A copy of a flit that passes: its header has no reserved bit, its key is accepted and its tag passes; a short one's CRC
too. -/
def State.goodCopy (s : State) (f : FlitIn) (bs : List Byte) (short : Bool) : Option (FHead × List Byte) :=
  let h := FHead.ofBytes bs
  let ls := s.laneSet (f.srcLane % 16)
  if h.zero != 0 || !ls.accepts s.tick f.slot h.key || (short && leBytes 4 (crc32 (bs.take 156)).toNat != (bs.drop 156).take 4) then none
  else (openFlit (ls.key h.key) (flitNonce f.slot h.srcDev f.srcLane f.pos) bs).map fun p => (h, p)

/-- A landing goes to its port. -/
def State.toPort (s : State) (c : Nat) (l : Landing) : State := s.modPort c fun p => { p with queue := p.queue ++ [l] }

/-- What a receiver takes from a flit: a good copy of a short flit, the first before its replay, or a bulk flit of a group that has
decoded (R335). The class counts once its copy has passed. -/
def State.takeCopy (s : State) (f : FlitIn) : Option (FHead × List Byte) :=
  let want := fun (short : Bool) (g : Option (FHead × List Byte)) => g.filter fun e => short == (e.1.cls == 2 || e.1.cls == 3)
  match want true (s.goodCopy f f.bytes true) with
  | some g => some g
  | none => match want true (s.goodCopy f f.replay true) with
    | some g => some g
    | none => (flitDecoded f).bind fun bs => want false (s.goodCopy f bs false)

/-- FLIT_RECEIVE: what the receiver makes of a flit: it queues it for its landing port, or discards it with the poison mark
(R333, R335, R342). Of a flit no copy of which passes the class bits of the first copy say which class it is lost as (DESIGN CHOICE,
log entry 38). -/
def execFlitReceive (f : FlitIn) (s : State) : Out :=
  let rx := 32 * f.port + f.wave
  let due := fun (short : Bool) => if short then 80 * f.slot + 89 + s.flight else posTick f.slot f.pos + 14 + s.flight
  match s.laneOwner f.srcLane with
  | none => ok s.discard
  | some p =>
    if !(s.part p).open_ then ok s.discard
    else
      match s.takeCopy f with
      | none =>
        let h := FHead.ofBytes f.bytes
        if h.cls == 2 || h.cls == 3 then
          ok (s.toPort h.core { due := due true, rx := rx, lost := true, src := h.srcDev, seq := h.seq, flit := { part := p } })
        else ok (s.discard.modRx rx fun r => { r with poison := true, send := if h.first then r.send + 1 else r.send })
      | some (h, bs) =>
        if 256 < h.credits || 4 ≤ h.cls || h.dst != s.devIndex then ok s.discard
        else
          let s := if h.first then s.modRx rx fun r => { r with poison := false, send := r.send + 1 } else s
          let r := Table.get {} s.rxs rx
          let l : Landing :=
            { due := due (h.cls == 2 || h.cls == 3), counted := h.cls == 1, rx := rx, src := h.srcDev, seq := h.seq, credits := h.credits,
              send := r.send,
              flit := { cls := h.cls, core := h.core, line := h.line, mask := h.mask, tw := h.tw, first := h.first,
                        tag := if r.poison then 0xFFFF else h.tag, data := bs, part := p } }
          let c := if h.cls = 1 then ((s.part p).cask.map (·.core)).getD 0 else h.core
          ok (s.toPort c l)

/-- The payload bytes a mask selects. -/
def maskedBytes (m : BitVec 16) (bs : List Byte) : List (Option Byte) := bs.zipIdx.map fun e => if m.getLsbD (e.2 / 8) then some e.1 else none

/-- Place of a landing: the pool address, `none` for a counted flit without a cask (R349). -/
def State.landAddr (s : State) (r : Run) (l : Landing) : Option Nat :=
  if !l.counted then some (128 * l.flit.line)
  else
    match (s.part l.flit.part).cask, r.rankOf s.devIndex l.src with
    | some k, some n =>
      let (h, c) := Table.get (0, 0) (s.part l.flit.part).rings n
      some (k.base + 128 * k.n * n + 128 * ((h + c) % max 1 k.n))
    | _, _ => none

/-- Raises the fault of a landing for core `c`, or, where `c` is not the run's, on its lowest core; it keeps the place of its
destination in the order of 01_machine.md R29 (16_faults.md Tables 16.2, 16.3). -/
def State.raiseLand (s : State) (r c : Nat) (l : Landing) (f : FCode) : State :=
  s.raisePlaced (if (s.core c).run = some r then c else ((s.run r).cores).headD 0) c f 2 l.rx (BitVec.ofNat 64 (l.rx % 128 + l.src % 32 * 256 + l.seq.toNat * 65536)) s.tick

/-- The bytes of a landing lie in the scratch of a core of the run, R343. -/
def State.landFits (s : State) (r c a : Nat) (l : Landing) : Bool :=
  (s.core c).run == some r && decide (a + (maskedBytes l.flit.mask l.flit.data).length ≤ (s.core c).carve.scrlim)

/-- The granules that the send of a landing has written on its receive lane before. -/
def State.sendGranules (s : State) (l : Landing) : List Nat :=
  if l.counted then [] else ((Table.get {} s.rxs l.rx).touched.filter fun e => e.1 == l.send).map (·.2)

/-- The tags of a flit with TW, producer `p`: of the granules that its send has written before, and of its own granule `g`, where
bytes of it are written (R212, R341). -/
def State.landTags (s : State) (p : Src) (c g : Nat) (l : Landing) : State :=
  let before := s.sendGranules l
  let s := (before ++ [g]).eraseDups.foldl (fun s g => s.deferTick p s.tick (.tag c g l.flit.tag)) s
  { s with wrote := before.map (p, c, ·) ++ s.wrote }

/-- One landing at its port, at the end of the present tick: whether it writes, and the state (R341, R343, R349, R354). -/
def State.landOne (s : State) (c : Nat) (l : Landing) : Bool × State :=
  match s.landRun l.flit.part c l.src with
  | none => (false, s.discard)
  | some (r, ru) =>
    if l.lost then (false, s.discard.raiseLand r c l .linkLoss)
    else if l.flit.cls = 3 then (false, s.modPart l.flit.part fun p => { p with markersIn := p.markersIn + 1 })
    else
      match s.landAddr ru l with
      | none => (false, s.discard)
      | some a =>
        if !s.landFits r c a l then (false, s.discard.raiseLand r c l .poolBounds)
        else
          let p : Src := { core := c, slot := 7, head := l.src % 32 + 256 * l.seq.toNat, cyc := if l.counted then 0 else l.send + 1,
                           tick := l.due, rx := some (l.rx % 128) }
          let s := s.deferTick p s.tick (.pool c a (maskedBytes l.flit.mask l.flit.data) false)
          let s := if l.flit.tw then s.landTags p c (a / 1024) l else s
          (true, if l.counted then
            s.modPart l.flit.part fun q =>
              let n := (ru.rankOf s.devIndex l.src).getD 0
              let (h, k) := Table.get (0, 0) q.rings n
              { q with rings := Table.put q.rings n (h, k + 1) }
            else s)

/-- The order of a landing port, R341. -/
def Landing.key (l : Landing) : List Nat := [l.due, l.counted.toNat, l.rx]

/-- Insertion in a port's order. -/
def insLanding (l : Landing) : List Landing → List Landing
  | [] => [l]
  | m :: r => if keyLt l.key m.key then l :: m :: r else m :: insLanding l r

/-- Lands flits in order until one writes; the rest wait. -/
def State.landList (s : State) (c : Nat) : List Landing → State
  | [] => s
  | l :: r =>
    let (w, s) := s.landOne c l
    if w then s.modPort c fun p => { queue := r ++ p.queue, lastWrite := some s.tick } else s.landList c r

/-- The credits of a landing reach the sender's count at the end of its due tick, or of the tick after one that a SLEW leaves out,
unless it is discarded (R351). -/
def State.landCredits (s : State) (c : Nat) (l : Landing) : State :=
  if l.credits = 0 then s
  else
    match s.landRun l.flit.part c l.src with
    | none => s
    | some (r, ru) =>
      match s.landAddr ru l with
      | some a => if l.flit.cls == 3 || s.landFits r c a l then s.addCredit l.flit.part l.src (· + l.credits) else s
      | none => s

/-- FLIT_LANDING: the landing port of the core in hand at the present tick: one flit is written, in the port's order; a
timed one that would come later than its due tick + 4 raises WRONG_SLOT (R341). A flit that stays in the port has given its
credits. -/
def execFlitLanding (s : State) : Out :=
  let c := s.ctx.core
  let q := (s.port c).queue
  let (now, later) := q.partition fun l => decide (l.due ≤ s.tick)
  let s := now.foldl (fun s l => s.landCredits c l) s
  let now := now.map fun l => { l with credits := 0 }
  let (late, now) := now.partition fun l => !l.counted && !l.lost && l.flit.cls != 3 && decide (l.due + 5 ≤ s.tick)
  let s := (late.foldl (fun l x => insLanding x l) []).foldl (fun s l => match s.landRun l.flit.part c l.src with
    | some (r, _) => s.discard.raiseLand r c l .wrongSlot
    | none => s.discard) s
  let s := s.modPort c fun p => { p with queue := later }
  ok (s.landList c (now.foldl (fun l x => insLanding x l) []))

/-! ## Wire messages, R352, R353 -/

/-- The bytes of device `d`'s ESEND or EMCAST at their destination: all at the end of one tick, with the tag of every granule touched;
R343 gives the fate of what finds no run of its gang or no scratch. -/
def State.wireBytes (s : State) (p d c a : Nat) (t : BitVec 16) (bs : List Byte) : State :=
  match s.landRun p c d with
  | none => s.discard
  | some (r, _) =>
    if (s.core c).run != some r || decide ((s.core c).carve.scrlim < a + bs.length) then s.discard.raiseLand r c { src := d } .poolBounds
    else
      let src : Src := { core := c, slot := 7, head := d % 32, tick := s.tick, rx := some 0 }
      let s := s.deferTick src s.tick (.pool c a (someBytes bs) false)
      (List.range ((a + bs.length - 1) / 1024 + 1 - a / 1024)).foldl (fun s i => s.deferTick src s.tick (.tag c (a / 1024 + i) t)) s

/-- The key of a racking table of a partition (19_host.md R403). -/
def rackKey (part id : Nat) : Nat := part * 2 ^ 32 + id

/-- A request writes at its home. -/
def FarKind.writes : FarKind → Bool
  | .store => true
  | .amo => true
  | .qapp => true
  | _ => false

/-- A request that comes by wire waits at its home here; one of the host port is translated first, by that port's unit. A write
of a rank outside the reach map is discarded (18_prog_rings.md R389). -/
def State.fromPeer (s : State) (dev req part tile off : Nat) (f : Far) : State :=
  let f := { f with part := part, origin := dev, reply := req }
  if dev = 32 then
    if 4096 < off + f.size then s.wire 32 (.answer req 0 (farStatus .xlate))
    else
      let f := { f with stage := .walking, va := 4096 * tile + off, unit := hostUnit, at_ := s.tick }
      (s.newFar { f with chan := s.farChan f }).2
  else if f.kind.writes && !(s.part part).reach.getLsbD dev then s
  else
    let f := { f with stage := .sent, dev := s.devIndex, frame := tile, off := off }
    let (t, s) := s.arrival f
    (s.newFar { f with at_ := t, chan := some (tile / 2 ^ 18) }).2

/-- An answer reaches request `r`: that of a host access goes on to the host. -/
def State.farAnswer (s : State) (r : Nat) (f : Far) (w : Wire) (v : X) (err : Nat) : State :=
  if f.origin != s.devIndex then (s.dropFar r).wire f.origin w
  else if f.kind == .store && err == 0 then s.dropFar r
  else { s.setFar r (some { f with stage := .served, value := v, err := err, chan := none }) with
    todo := onReq r (match f.kind with
      | .load _ => .farDataReturn
      | .amo => .amoResult
      | .qapp => .qappAnswer
      | _ => .farStorePerform) :: s.todo }

/-- An EMCAST's head reaches the replication point: the entry in force now gives the members, and those outside the reach map are
skipped and counted (12_order.md R301, R353). -/
def State.replicate (s : State) (p g addr : Nat) (t : BitVec 16) (devs : List (Option Nat)) (bs : List Byte) : State :=
  let (commit, old, new) := Table.get (0, 0, 0) (s.part p).mcast g
  let e := if s.tick ≤ commit then old else new
  let copy : Wire := .bytes p s.devIndex (bits e 32 9).toNat addr t bs
  devs.zipIdx.foldl (fun s x =>
    if !e.getLsbD x.2 then s
    else match x.1 with
      | some d =>
        if (s.part p).reach.getLsbD d then s.wire d copy else s.discard
      | none => s.discard) s

/-! ### SPDM with the controllers of peers, 19_host.md R408 -/

/-- `n` bytes of the configuration block at offset `o`, 19_host.md Table 19.5. -/
def State.cfg (s : State) (o n : Nat) : List Byte := (s.flash.drop o).take n

/-- The alias chain of certificate slot 0: the block's chain, the identity key, and the alias key certified by it (19_host.md R407). -/
def State.aliasChain (s : State) : List Byte :=
  let a := Config.ed448Public s.alias_
  s.cfg 0x450 1024 ++ Config.ed448Public s.identity ++ a ++ Config.ed448Sign s.identity a

/-- Ed448, SHA3-512, secp384r1 and AES-256-GCM by their bits in SPDM's fields (PRESUMED, log entry 5). -/
def spdmAlgorithms : List Byte := leBytes 4 0x800 ++ leBytes 4 0x20 ++ leBytes 2 0x10 ++ leBytes 2 2

/-- Open sessions in which this device is the responder, of functions and of peers. -/
def State.openSessions (s : State) : Nat :=
  (s.sessions.filter fun e => e.2.isSome).length + (s.peers.filter fun e => e.2.opened).length

/-- Peer `d`. -/
def State.peer (s : State) (d : Nat) : Peer := Table.get {} s.peers d
/-- Changes peer `d`. -/
def State.modPeer (s : State) (d : Nat) (f : Peer → Peer) : State := { s with peers := Table.put s.peers d (f (s.peer d)) }

/-- A message as the transcripts hold it. -/
def spdmMsg (code : Nat) (body : List Byte) : List Byte := leBytes 1 code ++ body

/-- Sends a request to the controller of peer `d`. -/
def State.askPeer (s : State) (d code : Nat) (body : List Byte) : State :=
  (s.modPeer d fun q => { q with stage := code, log := if code = 0x84 then spdmMsg code body else q.log ++ spdmMsg code body }).wire d
    (.spdm s.devIndex code body)
/-- Sends a response to the controller of peer `d`, which enters the transcript with the request. -/
def State.tellPeer (s : State) (d : Nat) (req : Nat × List Byte) (code : Nat) (body : List Byte) : State :=
  (s.modPeer d fun q => { q with heard := (if req.1 = 0x84 then [] else q.heard) ++ spdmMsg req.1 req.2 ++ spdmMsg code body }).wire d
    (.spdm s.devIndex code body)

/-- A device of the pod is present: it is this one, or a path to it is up. -/
def State.present (s : State) (d : Nat) : Bool :=
  decide (d < s.podSize) && (d == s.devIndex || (List.range 4).any fun p => s.caps.paths.getLsbD (32 * p + d))

/-- Files what the session with peer `d` is used for next, some time later. -/
def State.laterPeer (s : State) (d : Nat) : State :=
  let (n, s) := s.draw
  (s.modPeer d fun q => { q with stage := 0 }).atTick (s.tick + 1 + Config.freeNat n) { ctx := { session := 64 + d, idx := 1 }, instr := .heartbeat }

/-- What the controller does next in its session with peer `d`: a HEARTBEAT, a KEY_UPDATE or an END_SESSION (R408 does not say when it
does which; DESIGN CHOICE, log 5). -/
def State.usePeer (s : State) (d : Nat) : State :=
  if !s.peerSessions.contains d || (s.peer d).stage != 0 then s
  else
    let (n, s) := s.draw
    s.askPeer d (match Config.freeNat n % 3 with
      | 0 => 0xE8
      | 1 => 0xE9
      | _ => 0xEC) []

/-- A new key for lane set `l` from slot `x` on, written into the key slot not in use (R357). -/
def State.newLinkKey (s : State) (l d x : Nat) (key : BitVec 256) : State :=
  (s.modLaneSet l fun t =>
    let t := if t.cur then { t with key0 := key } else { t with key1 := key }
    { t with flip := some x, keyFrom := d }).atTick (80 * x) { ctx := { idx := l }, instr := .keyFlip }

/-- The old key slot of a lane set may be rewritten: no flip slot lies less than 64 slots back or ahead (R357). -/
def State.rotatable (s : State) (l : Nat) : Bool := match (s.laneSet l).flip with
  | some x => decide (x + 64 ≤ s.tick / 80)
  | none => true

/-- The controller of the lowest device present derives a new key for every lane set, from the secret of the session with peer `d`, and
sends it to every peer inside the session with it, with a flip slot that all of them know before it comes (R357, R352; who
derives the keys, when, and the flip slot are a DESIGN CHOICE, log 5). -/
def State.rotateLinkKeys (s : State) (d : Nat) : State :=
  let peers := (List.range 32).filter fun e => s.present e && e != s.devIndex
  if peers.any (fun e => decide (e < s.devIndex) || !s.peerSessions.contains e) then s
  else (List.range 14).foldl (fun s l =>
    if !s.rotatable l then s
    else
      let (n, s) := s.draw
      let key := Config.linkKey (s.peer d).secret n
      let (m, s) := s.draw
      let x := (s.tick + 1536) / 80 + 2 + Config.freeNat m
      (peers.foldl (fun s e => s.wire e (.linkKey s.devIndex l x (Config.sealRecord (s.peer e).secret key))) s).newLinkKey l s.devIndex x key) s

/-- Gives up the session with peer `d` that this device asked for. -/
def State.dropPeer (s : State) (d : Nat) : State :=
  { s.modPeer d (fun q => { q with stage := 0, secret := [] }) with peerSessions := s.peerSessions.filter (· != d) }

/-- A certificate chain passes: its first part to the root, and the alias key under the identity key (19_host.md R407). -/
def chainOk (c : List Byte) : Bool :=
  Config.chainVerify (c.take 1024) Config.romDigest && Config.ed448Verify ((c.drop 1081).take 57) (c.drop 1138) ((c.drop 1024).take 57)

/-- A request of peer `d`, which this device answers as it answers a function on its mailbox. -/
def State.peerRequest (s : State) (d code : Nat) (body : List Byte) : State :=
  let q := s.peer d
  let req := (code, body)
  let err := fun (e : Nat) => s.tellPeer d req 0x7F (leBytes 1 e)
  let after := fun (n : Nat) (go : State) => if q.heardAt < n then err 4 else go
  let within := fun (go : State) => if q.est then go else err 2
  match code with
  | 0x84 => (s.modPeer d fun q => { q with heardAt := 1 }).tellPeer d req 0x04 [0x13]
  | 0xE1 => after 1 ((s.modPeer d fun q => { q with heardAt := 2 }).tellPeer d req 0x61 [])
  | 0xE3 => after 2 ((s.modPeer d fun q => { q with heardAt := 3 }).tellPeer d req 0x63 spdmAlgorithms)
  | 0x81 => after 3 (s.tellPeer d req 0x01 (Config.sha3 s.aliasChain))
  | 0x82 => after 3 (s.tellPeer d req 0x02 s.aliasChain)
  | 0x83 => after 3 (
      let g := Config.sha3 s.aliasChain
      s.tellPeer d req 0x03 (g ++ Config.ed448Sign s.alias_ (Config.sha3 (q.heard ++ spdmMsg code body ++ spdmMsg 0x03 g))))
  | 0xE0 => after 3 (match s.measures.find? fun (e : Nat × List Byte) => e.1 == ofLe body with
      | some e => s.tellPeer d req 0x60 (leBytes 1 e.1 ++ e.2)
      | none => err 1)
  | 0xE4 => after 3 (
      if 64 ≤ s.openSessions then err 3
      else
        let (n, s) := s.draw
        let r := Config.ecdhe n (BitVec.ofNat 768 (ofLe body))
        let share := leBytes 1 (64 + d) ++ r.take 96
        (s.modPeer d fun q => { q with opened := true, est := false, key := r.drop 96 }).tellPeer d req 0x64
          (share ++ Config.ed448Sign s.alias_ (Config.sha3 (q.heard ++ spdmMsg code body ++ spdmMsg 0x64 share))))
  | 0xE5 =>
      let h := Config.sha3 q.heard
      if q.opened && body == Config.finishData q.key h then
        (s.modPeer d fun q => { q with est := true, key := Config.nextSecret q.key (Config.sha3 (q.heard ++ spdmMsg code body)) }).tellPeer d req 0x65 []
      else (s.modPeer d fun q => { q with opened := false, est := false }).tellPeer d req 0x7F (leBytes 1 6)
  | 0xE8 => within (s.tellPeer d req 0x68 [])
  | 0xE9 => within ((s.modPeer d fun q => { q with key := Config.nextSecret q.key [] }).tellPeer d req 0x69 [])
  | 0xEC => within ((s.modPeer d fun q => { q with opened := false, est := false }).tellPeer d req 0x6C [])
  | _ => err 7

/-- The response of peer `d` that this device waits for: what it checks of it, and its next request. The chain must be the one of the
digest and verify to the root, the challenge and the share must be signed by the chain's alias key, and the session stands once
FINISH is answered; link keys may be derived in it then (R357). A session that has ended is asked for anew. -/
def State.peerResponse (s : State) (d code : Nat) (body : List Byte) : State :=
  let q := s.peer d
  let t := s.modPeer d fun q => { q with log := q.log ++ spdmMsg code body }
  match code with
  | 0x04 => if body.contains 0x13 then t.askPeer d 0xE1 [] else t.dropPeer d
  | 0x61 => t.askPeer d 0xE3 spdmAlgorithms
  | 0x63 => if body = spdmAlgorithms then t.askPeer d 0x81 [] else t.dropPeer d
  | 0x01 => (t.modPeer d fun q => { q with digest := body }).askPeer d 0x82 []
  | 0x02 =>
    if Config.sha3 body = q.digest && chainOk body then (t.modPeer d fun q => { q with chain := body }).askPeer d 0x83 []
    else t.dropPeer d
  | 0x03 =>
    let h := Config.sha3 (q.log ++ spdmMsg 0x03 (body.take 64))
    if body.take 64 = q.digest && Config.ed448Verify h (body.drop 64) ((q.chain.drop 1081).take 57) then t.askPeer d 0xE0 (leBytes 1 2)
    else t.dropPeer d
  | 0x60 =>
    let (n, t) := t.draw
    (t.modPeer d fun q => { q with share := n }).askPeer d 0xE4 (Config.dheShare n)
  | 0x64 =>
    let alias_ := (q.chain.drop 1081).take 57
    if Config.ed448Verify (Config.sha3 (q.log ++ spdmMsg 0x64 (body.take 97))) (body.drop 97) alias_ then
      let k := Config.dheSecret q.share ((body.drop 1).take 96)
      let h := Config.sha3 (t.peer d).log
      (t.modPeer d fun q => { q with secret := k }).askPeer d 0xE5 (Config.finishData k h)
    else t.dropPeer d
  | 0x65 =>
    let t := t.modPeer d fun q => { q with secret := Config.nextSecret q.secret (Config.sha3 (s.peer d).log) }
    ({ t with peerSessions := d :: s.peerSessions.filter (· != d) }.rotateLinkKeys d).laterPeer d
  | 0x68 => t.laterPeer d
  | 0x69 => (t.modPeer d fun q => { q with secret := Config.nextSecret q.secret [] }).laterPeer d
  | 0x6C => (t.dropPeer d).askPeer d 0x84 []
  | _ => t.dropPeer d

/-- An SPDM message of a peer's controller, after boot: a request is answered; a response counts where it is the one awaited, or an
error (19_host.md R408). -/
def State.peerSpdm (s : State) (d code : Nat) (body : List Byte) : State :=
  if s.boot != .up then s
  else if 0x80 ≤ code then s.peerRequest d code body
  else if (s.peer d).stage = 0 then s
  else if code = (s.peer d).stage - 0x80 || code = 0x7F then s.peerResponse d code body
  else s

/-- WIRE_DELIVERY: a message of the electrical pod network arrives. -/
def execWireDelivery (w : Wire) (s : State) : Out :=
  match w with
  | .arm p d t => ok { s with todo := { instr := .armMessage p (d, t) } :: s.todo }
  | .abort p a => ok { s with todo := { instr := .abortNotice p a } :: s.todo }
  | .flit p d t bs =>
    let l : Landing := { due := s.tick, counted := true, rx := 128, src := d,
                         flit := { cls := 1, mask := 0xFFFF, tw := true, first := true, tag := t, data := bs, part := p } }
    ok (s.toPort (((s.part p).cask.map (·.core)).getD 0) l)
  | .credit p d n => ok (if s.sends p then s.addCredit p d (· + n) else s.discard)
  | .bytes p d c a t bs => ok (s.wireBytes p d c a t bs)
  | .farRead d r p t o n => ok (s.fromPeer d r p t o { kind := .load false, size := n })
  | .farWrite d r p t o bs => ok (s.fromPeer d r p t o { kind := .store, data := bs, size := bs.length })
  | .amo d r p t o va h h0 h1 => ok (s.fromPeer d r p t o { kind := .amo, va := va, handler := h, h0 := h0, h1 := h1, size := 8 })
  | .qapp d r p t o lim bs => ok (s.fromPeer d r p t o { kind := .qapp, data := bs, lim := lim, size := 64 })
  | .answer r v err =>
    match Table.get none s.fars r with
    | none => ok s
    | some f => ok (s.farAnswer r f (.answer f.reply v err) v err)
  | .data r bs =>
    match Table.get none s.fars r with
    | none => ok s
    | some f => ok (s.farAnswer r f (.data f.reply bs) (BitVec.ofNat 64 (ofLe bs)) 0)
  | .replicate p g a t ds bs => ok (s.replicate p g a t ds bs)
  | .rackDigest p d id g =>
    let k := rackKey p id
    ok { s with racks := Table.put s.racks k (let t := Table.get {} s.racks k; { t with peers := Table.put t.peers d g }) }
  | .linkKey d l slot record =>
    match (if (s.peer d).est then Config.openRecord (s.peer d).key record else none) with
    | some key => ok (s.newLinkKey l d slot key)
    | none => ok s
  | .spdm d code body => ok (s.peerSpdm d code body)

/-! ## Slots, planes, repairs and keys -/

/-- KEY_FLIP: from the flip slot on senders use the new key, R357. -/
def execKeyFlip (s : State) : Out := ok (s.modLaneSet s.ctx.idx fun l => { l with cur := !l.cur })

/-- TIMEKEEPER_TAKEOVER: the next lowest rank present takes the timekeeping over; after the highest, the lowest (R332). -/
def execTimekeeperTakeover (s : State) : Out :=
  let l := (List.range 32).filter s.present
  let next := (l.find? fun d => decide (s.timekeeper < d)).getD (l.headD s.devIndex)
  ok { s with timekeeper := next, missed := 0 }

/-- SLOT_BOUNDARY, at the first tick of a slot, be it its second where a SLEW leaves its first out: claims of the slots before go, but for those that a frozen run's engine holds, and each live run that holds a
lane retired as of this boundary raises LINK_LOSS on its lowest core (R338, R356): the runs of the lane's partition hold it. -/
def execSlotBoundary (s : State) : Out :=
  let sn := s.tick / 80
  let gone := s.lanes.filter fun e => e.2.line == 3 && e.2.lostUntil == 80 * sn
  let s := { s with slotNow := sn, lanes := s.lanes.map fun (e : Nat × Lane) =>
    (e.1, { e.2 with sent := []
                     claims := e.2.claims.filter fun c => decide (sn ≤ c.1) || (!c.2.2.gone && s.frozenPart c.2.2.part)
                     busy := e.2.busy.filter fun b => decide (s.tick ≤ b.1) }) }
  let ps := (gone.filterMap fun e => s.laneOwner e.1).eraseDups
  ok ((s.runs.filter fun e => ps.contains e.2.part && e.2.st == .live).foldl (fun s e =>
    s.raiseUnit (e.2.cores.headD 0) .linkLoss 3 0 0 s.tick) s)

/-- The first tick of the slot `n` slots after the present one. -/
def State.boundary (s : State) (n : Nat) : Nat := 80 * (s.tick / 80 + n)

/-- A reserve lane. -/
def reserve (lane : Nat) : Bool := decide (14 ≤ lane % 16)
/-- The lane whose rows a lane's light carries now: a reserve lane's is the one it stands in for. -/
def State.rowsOf (s : State) (lane : Nat) : Option Nat :=
  if reserve lane then (s.lane lane).carries else if (s.lane lane).line < 2 then some lane else none
/-- The flits of the rows that a lane carries are lost up to the next slot boundary. -/
def State.loseSlot (s : State) (lane : Nat) : State :=
  match s.rowsOf lane with
  | some u => s.modLane u fun l => { l with lostUntil := s.boundary 1 }
  | none => s

/-- The rows of a lane go to a free reserve lane of its port from the next slot boundary, or their lane is retired; a reserve lane
that has failed is retired itself (Table 15.7). -/
def State.replaceLane (s : State) (lane : Nat) : State :=
  let user := s.rowsOf lane
  let b := s.boundary 1
  let s := if reserve lane then s.modLane lane fun x => { x with line := 3, carries := none } else s
  match user with
  | none => if reserve lane then s.capChange id else s
  | some u =>
    match ([14, 15].map fun l => lane / 16 * 16 + l).find? fun l => (s.lane l).carries.isNone && (s.lane l).line != 3 with
    | some l => ((s.modLane l fun x => { x with carries := some u }).modLane u fun x => { x with line := 2, lostUntil := b }).capChange id
    | none => (s.modLane u fun x => { x with line := 3, lostUntil := b }).capChange id

/-- LINE_FAILURE, R356: a line's spare line takes over, and where that one has failed too, or the retune is too slow, a reserve
lane. -/
def execLineFailure (lane : Nat) (k : LineFail) (s : State) : Out :=
  let l := s.lane lane
  match k with
  | .dead w =>
    if l.line = 3 then ok s
    else if l.spare.contains w then ok (s.replaceLane lane)
    else ok (((s.loseSlot lane).modLane lane fun l => { l with spare := w :: l.spare, line := max 1 l.line }).capChange id)
  | .slowRetune => if l.line = 3 then ok s else ok (s.replaceLane lane)
  | .heater lost => ok (if lost then s.loseSlot lane else s)

/-- COMB_FAILURE: the partner's comb is shared from the second slot boundary; both combs of a pair dead retire the ports
(R356). -/
def execCombFailure (port : Nat) (s : State) : Out :=
  let other := if port % 2 = 0 then port + 1 else port - 1
  let all := fun (s : State) p f => (List.range 16).foldl (fun s l => s.modLane (16 * p + l) f) s
  if Table.get 0 s.caps.comb other = 0 then
    ok ((all s port fun l => { l with lostUntil := s.boundary 2 }).capChange fun c =>
      { c with comb := Table.put c.comb port 1, overdrive := Table.put c.overdrive (port / 2) s.tick })
  else
    let dead := fun (l : Lane) => { l with line := 3, lostUntil := s.boundary 1 }
    ok ((all (all s port dead) other dead).capChange fun c => { c with comb := Table.put (Table.put c.comb port 2) other 2 })

/-- LINK_BRING_UP: ranging gives the flight of a path; one above F − 64 is not brought up (R336). Where the pod configuration names
no timekeeper, a lower rank that becomes present is it (R332; which ranks count as present is log entry 38's choice). -/
def execLinkBringUp (port rank flight : Nat) (s : State) : Out :=
  let i := 32 * port + rank
  let up := decide (flight + 64 ≤ s.flight)
  let s := if up && Config.timekeeper.isNone && decide (rank < s.timekeeper) then { s with timekeeper := rank } else s
  ok (if s.caps.paths.getLsbD i = up then s
      else s.capChange fun c => { c with paths := if up then c.paths ||| (1#128 <<< i) else c.paths &&& ~~~ (1#128 <<< i) })

/-- A confidential partition's interface goes to ERROR: its live runs abort with code 0xFFFF_FF00 and the function hears of
it (15_light.md R358, 19_host.md R404). -/
def State.tdiError (s : State) (p : Nat) : State :=
  let q := s.part p
  if !q.confidential || q.tdi == .unlocked || q.tdi == .error then s
  else
    let s := s.modPart p fun q => { q with tdi := .error }
    let s := (s.runs.filter fun e => e.2.part == p && e.2.st != .ended).foldl (fun s e => s.abortRun e.1 0 0 0 0xFFFFFF00) s
    match q.vf with
    | some v => s.event v 3 (leBytes 32 3)
    | none => s

/-- A store posted to a peer that a reach map cuts off. Has it performed at its home already, the peer's answer still comes within
the bound of the electrical network; without one by then it has been discarded, and is counted (18_prog_rings.md R389, log entry
34). -/
def State.cutStore (s : State) (n : Nat) (f : Far) : State :=
  (s.setFar n (some { f with cut := true })).atTick (s.tick + 1537) (onReq n .farStorePerform)

/-- Far accesses that a reach map cuts off: posted writes to a rank outside it are discarded and counted, writes of such a rank
are discarded, a read loses its peer, and the packet of a QAPP under way counts as a write to that peer once its answer says that it
is queued (12_order.md R287, R299, 18_prog_rings.md R389). -/
def State.cutReach (s : State) (p : Nat) : State :=
  let m := (s.part p).reach
  let out := fun d => d < 32 && d != s.devIndex && !m.getLsbD d
  s.fars.foldl (fun s e => match e.2 with
    | none => s
    | some f =>
      if f.part != p then s
      else if f.stage == .sent && !f.host && out f.dev then
        (match f.kind with
         | .store => if f.origin = s.devIndex then s.cutStore e.1 f else s.farFault e.1 f .peerUnreachable 0
         | .qapp => if f.origin = s.devIndex then s.setFar e.1 (some { f with cut := true }) else s
         | _ => s.farFault e.1 f .peerUnreachable 0)
      else if f.kind.writes && (out f.origin || f.asker.any out) then s.dropFar e.1
      else s) s

/-- RECONFIG_DARK_START: the dark interval of the plane in hand begins: the new table and reach map take effect, the far accesses
they cut off are discarded, and the interfaces of the partitions that use the plane go to ERROR (R355, R358, 18_prog_rings.md
R389). -/
def execReconfigDarkStart (s : State) : Out :=
  let q := Table.get {} s.planes s.ctx.plane
  let x := q.start.getD 0
  let p := s.part q.part
  let s := (List.range 14).foldl (fun s l =>
    if p.laneSets.getLsbD l then
      s.modLaneSet l fun t => { t with tables := Table.put t.tables s.ctx.plane ((x, q.table) :: Table.get [] t.tables s.ctx.plane) }
    else s) s
  let s := (s.modPart q.part fun p => { p with reach := q.reach }).cutReach q.part
  let users := (s.parts.filter fun e => e.2.made && e.2.laneSets != 0).map (·.1)
  ok ((users.foldl State.tdiError s).atTick q.upTick { ctx := { plane := s.ctx.plane }, instr := .relockComplete })

/-- RELOCK_COMPLETE: the plane has relocked, R355. -/
def execRelockComplete (s : State) : Out :=
  let q := Table.get {} s.planes s.ctx.plane
  ok { s with planes := Table.put s.planes s.ctx.plane { q with start := none } }

/-! ## What a tick makes due -/

/-- Flits that leave at the present position, timed ones first; then the lanes' counted flits and markers (R346, R350,
R354). -/
def State.laneWorks (s : State) : State :=
  match s.posNow with
  | none => s.laneBeats
  | some pos =>
    let slot := s.tick / 80
    let free := s.lanes.filter fun e => !e.2.claims.any fun c => c.1 == slot && c.2.1 == pos
    let works := free.filterMap fun e =>
      let w := fun i => ({ ctx := { lane := e.1, idx := pos }, instr := i } : Work)
      if e.2.queue.any fun f => !f.wire then some (w .countedFlitDepart)
      else if e.2.queue.isEmpty && e.2.markers.any fun m => !m.isEmpty then some (w .drainMarkerSend)
      else none
    { s.timedDepart pos with todo := s.todo ++ works }

/-- Wire flits and credit messages that may leave now. -/
def State.wireWorks (s : State) : List Work :=
  let ds := (s.lanes.flatMap fun e => e.2.queue.filterMap fun f => if f.wire then some (f.part, f.rank) else none).eraseDups
  (ds.filterMap fun d => if 0 < (s.part d.1).credit d.2 && s.sends d.1 then
      some ({ ctx := { part := d.1, idx := d.2 }, instr := .wireFlitDepart } : Work) else none) ++
  s.parts.flatMap fun e =>
    if e.2.drained then []
    else e.2.owed.filterMap fun o => if o.2.any fun x => decide (x.2 + 160 < s.tick) then
      some ({ ctx := { part := e.1, idx := o.1 }, instr := .creditMessage } : Work) else none

/-- Landing ports with a flit due. -/
def State.landWorks (s : State) : List Work :=
  s.ports.filterMap fun e => if e.2.queue.any fun l => decide (l.due ≤ s.tick) then
    some ({ ctx := { core := e.1 }, instr := .flitLanding } : Work) else none

end Sys2Proof.Machine
end

