-- ==== Sys2Proof/Machine/Power.lean ====
section
/-! DEFINITION. Pod time, phases, gates, rails and clocks (14_time_power.md), and the end of a task, which may reach a gate
(01_machine.md R17, R23). -/

namespace Sys2Proof.Machine

/-! ## Rails -/

/-- Highest clock of a rail at a point, 14_time_power.md Table 14.5; rail 2 is SRAM. -/
def railClock (r p : Nat) : Nat :=
  match p with
  | 7 => 16
  | 6 => if r = 2 then 16 else 15
  | 5 => if r = 2 then 16 else 14
  | 4 => if r = 2 then 14 else 13
  | 3 => 12
  | 2 => 10
  | 1 => 8
  | _ => 6

/-- The lowest point whose highest clock covers clock `n`, 14_time_power.md R323. -/
def pointFor (r n : Nat) : Nat := ((List.range 8).find? fun p => decide (n ≤ railClock r p)).getD 7

/-- The clock a core requires of a rail by its mask in force and its pending gate; 0 when neither has it (R323). -/
def Core.railNeed (k : Core) (r : Nat) : Nat :=
  let now := if k.mask.getLsbD r then (if k.elastic then k.n else 16) else 0
  let gate := match k.gate with
    | some g => if g.mask.getLsbD r then (if g.elastic then g.n else 16) else 0
    | none => 0
  max now gate

/-- The core as its run left it, also while a recovery task runs on it (16_faults.md R362, R365). -/
def State.frozenCore (s : State) (c : Nat) : Core :=
  match (s.core c).run.bind fun r => (s.run r).recov with
  | some q => if q.core = c then q.saved else s.core c
  | none => s.core c

/-- The vote of partition `p` for rail `r`, 14_time_power.md R323. The cores of an armed run vote from arming (DEDUCED, log
entry 21); a frozen run's votes stay (16_faults.md R362). -/
def State.vote (s : State) (p r : Nat) : Nat :=
  let cs := s.cores.filter fun e => match e.2.run with
    | some q => (s.run q).part == p && (s.run q).st != .ended
    | none => false
  let need := cs.foldl (fun a e =>
      let n := (s.frozenCore e.1).railNeed r
      max a (if n = 0 then 0 else pointFor r n)) 0
  let pt := s.part p
  max need (if pt.expert then pt.votes.getD r 0 else 0)

/-- The self-test of a pool bank after an uncorrectable error has yet to give its verdict, 14_time_power.md R325. -/
def State.bankTest (s : State) : Bool := s.testing.any fun t => match t.unit with
  | .poolBank _ _ => t.limit.isSome
  | _ => false

/-- The point the votes and the floor give rail `r`, 14_time_power.md R323, R324. -/
def State.railTarget (s : State) (r : Nat) : Nat :=
  let v := s.parts.foldl (fun a e => max a (s.vote e.1 r)) 0
  if r = 2 then max v s.floor else v

/-- The point in force of rail `r`: a bank's self-test holds the SRAM rail at 7 once it has been driven there (14_time_power.md
R325). -/
def State.railPoint (s : State) (r : Nat) : Nat :=
  let a := s.rail r
  if a.drive.any fun t => decide (t ≤ s.tick) then 7 else a.point

/-- The rises of a rail at `point` whose highest vote is now `t`: each leads to `t` at most, and one that leads no higher than the
rail or an earlier rise is none (14_time_power.md R323). -/
def cutRises (t point : Nat) : List (Nat × Nat) → List (Nat × Nat)
  | [] => []
  | (u, p) :: l => if point < min p t then (u, min p t) :: cutRises t (min p t) l else cutRises t point l

/-- Follows the votes of rail `r` as of the end of the previous tick, from the end of boot: a fall at once, a rise after
1,024 ticks, of which a vote that falls back part of the way changes the point alone (14_time_power.md R323). -/
def State.followVotes (s : State) (r : Nat) : State :=
  if s.boot != .up then s
  else
    let a := s.rail r
    let t := s.railTarget r
    let rise := cutRises t a.point a.rise
    let top := rise.foldl (fun m e => max m e.2) a.point
    let a := if t < a.point then { a with point := t, rise := [] }
      else if top < t then { a with rise := rise ++ [(s.tick + 1023, t)] }
      else { a with rise := rise }
    { s with rails := Table.put s.rails r a }

/-- A rail falls in the tick in which the highest vote drops, 14_time_power.md R323. -/
def State.fallVotes (s : State) (r : Nat) : State :=
  let t := s.railTarget r
  if s.boot == .up && decide (t < (s.rail r).point) then
    { s with rails := Table.put s.rails r { s.rail r with point := t, rise := [] } } else s

/-- A rail of a mask is still rising, 14_time_power.md R323. -/
def State.rising (s : State) (m : BitVec 4) : Bool := (List.range 4).any fun r => m.getLsbD r && !(s.rail r).rise.isEmpty

/-- VOTE_RISE_COMPLETE: the rises of the rail that are due apply, and the elastic clocks that the rail limits are
recomputed at the next frame boundary (14_time_power.md R318, R323). -/
def execVoteRiseComplete (s : State) : Out :=
  let r := s.ctx.idx
  let a := s.rail r
  let p := (a.rise.filter fun e => decide (e.1 ≤ s.tick)).foldl (fun m e => max m e.2) a.point
  let s := { s with rails := Table.put s.rails r { a with point := p, rise := a.rise.filter fun e => !decide (e.1 ≤ s.tick) } }
  ok (s.mapCores fun k => if k.elastic && k.mask.getLsbD r then { k with reclock := true } else k)

/-- The highest clock every rail of a mask allows, 14_time_power.md R318. -/
def State.railLimit (s : State) (m : BitVec 4) : Nat :=
  (List.range 4).foldl (fun a r => if m.getLsbD r then min a (railClock r (s.railPoint r)) else a) 16

/-- CLOCK_RECOMPUTE: the clock of an elastic phase after a rise, 14_time_power.md R318. -/
def execClockRecompute (s : State) : Out :=
  let k := s.me
  let n := min k.request (min k.ncap (s.railLimit k.mask))
  ok (s.modMe fun k => if k.elastic then { k with n := max k.n n, reclock := false } else { k with reclock := false })

/-- RAIL_WAKE_COMPLETE: the rails of the mask in force whose wake is complete are powered, 14_time_power.md R322. -/
def execRailWakeComplete (s : State) : Out :=
  let up := (s.me.wake.filter fun e => decide (e.2 ≤ s.tick)).foldl (fun m e => m ||| e.1) 0
  ok (s.modMe fun k => { k with rails := k.rails ||| (up &&& k.mask), wake := k.wake.filter fun e => decide (s.tick < e.2) })

/-! ## Gates -/

/-- Power not yet allotted to the partitions below `p`, in mW. -/
def powerLeft : Nat → Nat
  | 0 => Config.tdp
  | p + 1 => powerLeft p - Config.allotment p
/-- The power allotment of a partition: the allotments together do not exceed the TDP (14_time_power.md R326). -/
def powerAllotted (p : Nat) : Nat := min (Config.allotment p) (powerLeft p)

/-- At a gate the partition's lanes are lowered to their floors (14_time_power.md R326; how far towards the floor is a DESIGN
CHOICE, log entry 6). -/
def State.lowerLanes (s : State) (p : Nat) : State :=
  { s with lanes := s.lanes.map fun (e : Nat × Lane) => (e.1, if s.ownsLane p e.1 then { e.2 with drive := e.2.floor } else e.2) }

/-- NCAP for a partition, 14_time_power.md R326: the largest clock whose cores and lane floors fit the allotment. -/
def State.ncapOf (s : State) (p : Nat) : Nat :=
  let pt := s.part p
  let n := ((List.range 64).filter fun g => pt.coreGroups.getLsbD g).length * 8
  let fl := ((List.range 64).filter fun l => s.ownsLane p l).foldl (fun a l => a + (s.lane l).floor) 0
  ([16, 15, 14, 13, 12, 11, 10, 9, 8, 7, 6, 5].find? fun c => decide (n * Config.corePower c + fl ≤ powerAllotted p)).getD 4

/-- Raises a device fault on core `c`, 14_time_power.md R313, R323. -/
def State.raiseDev (s : State) (c : Nat) (code : FCode) : State := s.raiseUnit c code 3 0 0 s.tick

/-- The clock a request gives with the skew of the last elastic phase, 14_time_power.md R318. -/
def skewClock (r : Nat) (hold : Bool) (last : Option (Nat × Nat)) : Nat :=
  match last with
  | some (k, p) => if hold || p == 0 then r else max 4 (ceilDiv (r * (p - k)) p)
  | none => r

/-- The core passes its gate: kind, mask, clock and skew of the new phase (01_machine.md R23, 14_time_power.md R313, R318,
R320, R322, R323). The next task starts at the gate tick. A rail that an earlier gate still wakes keeps its tick. Where LOCK_DRIFT and
RAIL_DOWN both apply at a locked gate LOCK_DRIFT alone is raised (R313 and R323 name no order; DESIGN CHOICE, log 25). -/
def State.enterPhase (s : State) (c : Nat) (g : Gate) (a r : Nat) : State :=
  let k := s.core c
  let ru := s.run r
  let skew := ru.tb + g.g - a
  let hold := g.hold && (s.part ru.part).expert && g.elastic
  let last := if k.elastic then some (skew, g.g - k.phaseStart) else k.lastElastic
  let s := s.lowerLanes ru.part
  let ncap := s.ncapOf ru.part
  let req := if g.elastic then skewClock g.n hold last else 16
  let n := if g.elastic then min req (min ncap (s.railLimit g.mask)) else 16
  let waking := (k.wake.map fun e => (e.1 &&& g.mask, e.2)).filter (·.1 != 0)
  let old := waking.foldl (fun m e => m ||| e.1) 0
  let woken := g.mask &&& ~~~ (k.rails ||| old)
  let at_ := g.armed + 64
  let late := woken != 0 && decide (s.tick < at_)
  let s := s.modCore c fun k =>
    { k with elastic := g.elastic, n := n, hold := hold, mask := g.mask, skew := skew, ncap := ncap, phaseStart := g.g,
             request := req, lastElastic := last, gate := none, reclock := false,
             rails := g.mask &&& (k.rails ||| if late then 0 else woken), wake := waking ++ if late then [(woken, at_)] else [],
             seq := .atTick g.g }
  let s := s.modRun r fun u => { u with gateTick := some (max g.g (u.gateTick.getD 0)) }
  if g.elastic then s
  else if 12 < s.podoff.natAbs then s.raiseDev c .lockDrift
  else if s.rising g.mask || decide (s.railLimit g.mask < 16) then s.raiseDev c .railDown
  else s

/-- GATE_TICK: a core that has reached its gate starts the new phase; one that has not, or whose channel operation or syllable
still waits, raises DEADLINE (01_machine.md R23, 04_cycles.md R96, 10_channels.md R266). -/
def execGateTick (s : State) : Out :=
  let c := s.ctx.core
  match s.me.gate, s.me.run, s.me.seq with
  | some g, some r, .gate a =>
    if a ≤ s.tick && !s.me.ops.any (fun e => e.2.any (·.waiting)) && s.me.waits.isEmpty then ok (s.enterPhase c g a r)
    else ok (s.raiseTask .deadline 1 (BitVec.ofNat 64 g.g))
  | some g, some _, _ => ok (s.raiseTask .deadline 1 (BitVec.ofNat 64 g.g))
  | _, _, _ => ok s

/-- The task in hand has to issue its TEND in the cycle in hand, 01_machine.md R20. -/
def State.lengthEnds (s : State) : Bool :=
  let k := s.me
  let t := k.tasks.getD k.taskIx {}
  k.inTask && !k.elastic && t.len != 0xFFFFFFFF && k.lcyc == t.len.toNat

/-- PHASE, R319. In the cycle in which a declared length runs out, DEVIATION alone is recorded, not the DEADLINE of a past tick
(01_machine.md R20). -/
def execPhase (xa : XReg) (elastic : Bool) (mask : BitVec 4) (n : BitVec 5) (hold : Bool) (s : State) : Out :=
  let g := (s.xr xa).toNat
  if g ≤ s.myRunTick then ok (if s.lengthEnds then s else s.raise .deadline 4 (s.xr xa))
  else ok (s.defer 0 (.gate s.ctx.core
    { elastic := elastic, g := g, mask := mask, n := n.toNat, hold := hold, armed := s.tick }))

/-! ## Pod time -/

/-- RDPOD, R315. -/
def execRdpod (xd : XReg) (v : PodVar) (s : State) : Out :=
  ok (s.deferX 0 xd (match v with
    | .pcc => BitVec.ofNat 64 s.tick
    | .run => BitVec.ofInt 64 ((s.tick : Int) - (((s.runOf s.ctx.core).map (·.tb)).getD 0))
    | .slot => BitVec.ofNat 64 (s.tick / 80)))

/-- The direction of a SLEW, R316. -/
def slewDir (v : SlewVar) (off : Int) : Int :=
  match v with
  | .back => -1
  | .fwd => 1
  | .auto => if 8 < off then -1 else if off < -8 then 1 else 0

/-- SLEW, R316. -/
def execSlew (xd : XReg) (v : SlewVar) (s : State) : Out :=
  let d := slewDir v s.podoff
  if d = 0 then ok (s.deferX 0 xd (BitVec.ofInt 64 s.podoff)) else ok (s.hold (.slew d) (some xd) none)

/-- OFF within its range, 14_time_power.md Table 14.1. -/
def clampOff (o : Int) : Int := max (-127) (min 127 o)

/-- A waiting SLEW of core `c` in the state `k` whose stall has run, with its direction. -/
def State.slewOpen (s : State) (c : Nat) (k : Core) (w : Wait) : Option Int :=
  match w.what with
  | .slew d =>
    if w.ans.isNone && !w.stepped && decide (w.base ≤ k.cyc + (if s.pulses c then 1 else 0)) then some d else none
  | _ => none

/-- No core of the device stands in a locked phase at the start of the tick, 14_time_power.md R316. -/
def State.slewFree (s : State) : Bool :=
  s.cores.all fun e =>
    match e.2.run with
    | none => true
    | some r => (s.run r).st != .live || e.2.elastic || (match e.2.seq with
      | .gate a => decide (a ≤ s.tick)
      | .done => true
      | .off => true
      | _ => false)

/-- The directions of the SLEWs that wait with their stalls run; those of a frozen core wait on (16_faults.md R363). -/
def State.slews (s : State) : List Int := s.cores.flatMap fun e => (s.frozenCore e.1).waits.filterMap (s.slewOpen e.1 (s.frozenCore e.1))

/-- A SLEW waits and the step can be made at the present tick. -/
def State.slewDue (s : State) : Bool := !s.slews.isEmpty && s.slewFree

/-- The waiting SLEWs of a core complete with this tick. -/
def State.slewMark (s : State) (c : Nat) (k : Core) : Core :=
  { k with waits := k.waits.map fun w => if (s.slewOpen c k w).isSome then { w with stepped := true } else w }

/-- SLEW_STEP: the waiting SLEWs are merged into at most one step, which the tick generator makes at the end of the tick
(R316). A gate of this tick that begins a locked phase comes first. -/
def execSlewStep (s : State) : Out :=
  if !s.slewDue then ok s
  else
    let sum := s.slews.foldl (· + ·) 0
    let dir : Int := if 0 < sum then 1 else if sum < 0 then -1 else 0
    ok { s with slew := dir
                cores := s.cores.map fun e => (e.1, s.slewMark e.1 e.2)
                runs := s.runs.map fun e => (e.1, { e.2 with recov := e.2.recov.map fun q =>
                  { q with saved := s.slewMark q.core q.saved } }) }

/-- A core in a locked phase for the drift check of 14_time_power.md R313. -/
def State.lockedCore (s : State) (c : Nat) : Bool :=
  let k := s.core c
  match k.run with
  | none => false
  | some r => (s.run r).st == .live && !k.elastic && decide (0 < k.taskSeq) && (match k.seq with
    | .issue _ => true
    | .wait => true
    | .atCycle _ => true
    | .atTick _ => true
    | .gate a => decide (s.tick < a)
    | _ => false)

/-- The PCC of a beacon is that of the slot it is held to: sent in the slot that began at its PCC and held for F, it meets the present
one (15_light.md R332; DEDUCED, log entry 38). -/
def State.pccGood (s : State) (b : Beacon) : Bool := b.pcc % 80 == 0 && (b.pcc + s.flight) / 80 == s.tick / 80
/-- The beacon is the timekeeper's, with the PCC of its slot. -/
def State.goodBeacon (s : State) (b : Beacon) : Bool := b.rank == s.timekeeper && s.pccGood b

/-- A slot without a valid beacon of the timekeeper: it counts once, and the fourth in a row hands the timekeeping over (R332). -/
def State.missBeacon (s : State) : State :=
  if s.beaconSlot = s.tick / 80 + 1 then s
  else
    let s := { s with missed := s.missed + 1, beaconSlot := s.tick / 80 + 1 }
    if s.missed = 4 && s.timekeeper != s.devIndex then { s with todo := { instr := .timekeeperTakeover } :: s.todo } else s

/-- BEACON_UPDATE at tick 79 of a slot: the residual of a valid beacon, or a slot without one; an event that comes earlier waits for
that tick. A drift of a tick raises LOCK_DRIFT on the cores in a locked phase (14_time_power.md R312, R313). The beacon of another
rank changes nothing (15_light.md R332). -/
def execBeaconUpdate (b : Option Beacon) (s : State) : Out :=
  if s.tick % 80 ≠ 79 then
    ok { s with inbox := s.inbox ++ [{ due := s.tick / 80 * 80 + 79, work := { instr := .beaconUpdate b } }] }
  else
    match b with
    | none => ok s.missBeacon
    | some o =>
      if o.rank ≠ s.timekeeper then ok s
      else if !s.pccGood o then ok s.missBeacon
      else
        let s := { s with podoff := clampOff o.off, missed := 0, beaconSlot := s.tick / 80 + 1 }
        ok (if 16 ≤ s.podoff.natAbs then
            (s.cores.map (·.1)).foldl (fun s c => if s.lockedCore c then s.raiseDev c .lockDrift else s) s
          else s)

/-- Files the self-test of a pool bank, which runs while the run is frozen: it is complete within 110,000 ticks of the error
(14_time_power.md R325). -/
def State.testBank (s : State) (core bank : Nat) (r : Option Nat) : State :=
  s.startTest { unit := .poolBank core bank, run := r, limit := some (s.tick + 110000) }

/-- The syllable of a slot of the bundle at a head word, ready to issue again. -/
def State.sylAtHead (s : State) (c head slot : Nat) : Option Work :=
  match Header.dec (s.imemAt c head).1 with
  | none => none
  | some h =>
    let ws := (List.range (h.length - 1)).map fun i => (s.imemAt c (head + 1 + i)).1
    let lits := ws.drop (2 * h.slots.length)
    ((sylsOf h.nlit.toNat h.slots ws).find? fun y => y.slot.num == slot).map fun y =>
      { ctx := { core := c, slot := y.slot, head := head, len := h.length, lits := lits }, instr := y.instr }

/-- The writes of an access are those of a syllable that issued in the present cycle of core `c`. -/
def State.isNow (s : State) (c slot head : Nat) (w : PWrite) : Bool :=
  w.src.core == c && w.src.slot == slot && w.src.head == head && w.src.cyc == (s.core c).cyc && w.clk == s.clkOf c

/-- A place is that of a syllable that issued in the present cycle of core `c`. -/
def State.ofNow (s : State) (c slot head : Nat) (p : Src) : Bool :=
  p.core == c && p.slot == slot && p.head == head && p.cyc == (s.core c).cyc

/-- A list without the last of its entries that meet `p`. -/
def dropLast1 {α : Type} (p : α → Bool) (l : List α) : List α := (l.reverse.eraseP p).reverse

/-- The messages that the syllable at a place sends in the present cycle. -/
def State.messagesNow (s : State) (c slot head : Nat) : List (Nat × Wire) :=
  match s.sylAtHead c head slot with
  | some w => { s with ctx := w.ctx }.wireSends w.instr
  | none => []

/-- The syllable at a place has sent something in the present cycle, or queued it on a lane. -/
def State.sentNow (s : State) (c slot head : Nat) : Bool :=
  (s.lanes.any fun l => l.2.queue.any (fun f => s.ofNow c slot head f.src) || l.2.busy.any fun b => s.ofNow c slot head b.2) ||
  (s.messagesNow c slot head).any fun m => s.wireOut.any (fun e => decide ((s.core c).cycTick ≤ e.1) && e.2 == m) ||
    (m.1 == s.devIndex && s.inbox.any fun d => d.work.instr == .wireDelivery m.2)

/-- What the syllable at a place has sent in the present cycle, or queued on a lane, is taken back. -/
def State.unsend (s : State) (c slot head : Nat) : State :=
  let ms := s.messagesNow c slot head
  let sent := s.wireOut.any (fun e => decide ((s.core c).cycTick ≤ e.1) && ms.contains e.2) ||
    s.inbox.any (fun d => ms.any fun m => m.1 == s.devIndex && d.work.instr == .wireDelivery m.2)
  let s := if sent then s.modCore c fun k => { k with wireBuf := k.wireBuf.dropLast } else s
  let s := ms.foldl (fun s m =>
    if m.1 = s.devIndex then { s with inbox := dropLast1 (fun d => d.work.instr == .wireDelivery m.2) s.inbox }
    else { s with wireOut := s.wireOut.eraseP fun e => decide ((s.core c).cycTick ≤ e.1) && e.2 == m }) s
  { s with lanes := s.lanes.map fun (e : Nat × Lane) =>
      (e.1, { e.2 with queue := e.2.queue.filter fun f => !s.ofNow c slot head f.src
                       claims := e.2.claims.filter fun x => !s.ofNow c slot head x.2.2.src
                       busy := e.2.busy.filter fun b => !s.ofNow c slot head b.2 }) }

/-- The syllable at a place leaves no write and sends nothing: its fault has dropped it (01_machine.md R28). -/
def State.dropNow (s : State) (c slot head : Nat) : State :=
  let s := s.unsend c slot head
  { s with pend := s.pend.filter fun w => !s.isNow c slot head w }

/-- The engine operation at a place leaves no write of this cycle's sample. -/
def State.dropEng (s : State) (c slot head : Nat) : State :=
  { s with pend := s.pend.take s.pendMark ++ (s.pend.drop s.pendMark).filter fun w =>
      !(w.src.core == c && w.src.slot == slot && w.src.head == head && w.src.eng) }

/-- The operation that the syllable at a place, or with `fo` the follow-on, has started on the mover or towards a vault in the
present cycle of core `c`: what it sampled at issue it carries with it (08_matrix.md R199, 05_registers.md R144). -/
def State.begunOp (s : State) (c slot head : Nat) (fo : Bool) : Option (Nat × Op) :=
  let k := s.core c
  k.ops.findSome? fun e => e.2.bind fun o =>
    if o.src.slot == slot && o.src.head == head && o.src.cyc == k.cyc && o.src.fo == fo && (fo || decide (slot < 5)) then some (e.1, o)
    else none

/-- The core without operation `n`, which it has started in its cycle in hand. -/
def Core.dropOp (k : Core) (n : Nat) (o : Op) : Core :=
  { k with ops := k.ops.filter (·.1 != n), sched := k.sched.filter fun d => d.work.ctx.op != n
           engSteps := k.engSteps.filter fun e => e.1.ctx.op != n
           moverFree := if o.src.slot == 3 || o.src.fo then min k.moverFree k.cyc else k.moverFree }

/-- The failing sample of an access, and the state without what it has written: what a syllable or follow-on of this cycle took in at
issue with its operands, or an engine's step of this cycle (16_faults.md R373). -/
def State.sampleAgain (s : State) (c slot head : Nat) (eng : Bool) : Option (Replay × State) :=
  let k := s.core c
  let fo : Option Work := (s.begunOp c slot head true).map fun e =>
    { ctx := { core := c, slot := if slot = 5 then .c0 else .c1, head := head, delay := e.2.src.delay, idx := 3 }, instr := e.2.instr }
  match s.begunOp c slot head eng, (if eng then fo else s.sylAtHead c head slot) with
  | some (n, o), some w =>
    let k := k.dropOp n o
    some ({ work := w, core := k, cyc := k.cyc }, (s.dropNow c slot head).setCore c k)
  | _, w =>
    if eng then
      (k.engSteps.find? fun e => e.2.src.slot == slot && e.2.src.head == head).map fun e =>
        ({ work := e.1, core := k, op := some e.2, last := some e.2, cyc := k.cyc }, s.dropEng c slot head)
    else if s.pend.any (s.isNow c slot head) || s.sentNow c slot head then
      w.map fun w =>
        let w := match w.instr with
          | .lsend _ => { w with ctx := { w.ctx with idx := 1 } }
          | _ => w
        ({ work := w, core := k, cyc := k.cyc }, s.dropNow c slot head)
    else none

/-- The address of a pool byte as core `c` names it: its own pool's, or a vault's (01_machine.md Table 1.8). -/
def poolName (c core addr : Nat) : Nat := if core = c then addr else 2 ^ 30 + core * 2 ^ 21 + addr

/-- The run tick at which the cycle in hand of core `c` began, in which a failing sample falls (16_faults.md Table 16.3). -/
def State.sampleTick (s : State) (c : Nat) : Nat := (s.core c).cycTick - ((s.runOf c).map (·.tb)).getD 0

/-- MEM_UE of a pool byte against the access that read it, and the bank's self-test, for which the SRAM rail is driven to point 7
within 2,200 ticks (14_time_power.md R325). The failing sample writes nothing, and a THAW performs it again (16_faults.md R373).
The record names a byte of another core's pool by its vault address (16_faults.md Table 16.3 does not say which address; DESIGN
CHOICE, log 27). -/
def State.poolError (s : State) (core addr by_ slot head : Nat) (eng : Bool) : State :=
  let k := s.core by_
  let p : Src := { core := by_, slot := slot, head := head, cyc := k.cyc, tick := s.tick, eng := eng }
  let (n, s) := s.draw
  let a := s.rail 2
  let u : Unit' := .poolBank core (addr / 65536)
  let low := decide (s.railPoint 2 < 7)
  let at_ := if low then s.tick + 1 + Config.freeNat n % 2200 else s.tick
  let s := { s with rails := Table.put s.rails 2 { a with drive := some (min at_ (a.drive.getD at_)) }
                    lowTests := if low then u :: s.lowTests else s.lowTests }
  let rt := s.sampleTick by_
  let s := match k.run, s.sampleAgain by_ slot head eng with
    | some r, some (q, t) =>
      t.modRun r fun v => { v with replay := if k.faulted.isNone || k.ue.isSome then v.replay ++ [q] else v.replay }
    | _, _ => s
  (s.raiseMem by_ p u (BitVec.ofNat 64 (poolName by_ core addr)) (BitVec.ofNat 64 rt)).testBank core (addr / 65536) (s.core core).run

/-- POOL_UE: an uncorrectable error. One of a pool byte or of a register raises MEM_UE against the access that read it, one of an
instruction word at the issue of the bundle that holds it, one of an HBM burst marks the burst at its next read
(14_time_power.md R325, 16_faults.md R373, R376, 10_channels.md R252). -/
def execPoolUe (e : Uncorrected) (by_ slot head : Nat) (s : State) : Out :=
  match e with
  | .pool core addr eng => ok (s.poolError core addr by_ slot head eng)
  | .imem core addr => ok { s with badWords := (core * 32768 + addr) :: s.badWords }
  | .state =>
    let k := s.core by_
    let s := s.dropNow by_ slot head
    let s := s.raiseMem by_ { core := by_, slot := slot, head := head, cyc := k.cyc, tick := s.tick } (.coreState by_) 0
      (BitVec.ofNat 64 (s.sampleTick by_))
    ok (s.startTest { unit := .coreState by_, run := k.run })
  | .hbm chan burst => ok { s with hbmUe := (chan * (49152 * 512) + burst) :: s.hbmUe }

/-- LANE_FLOOR_REQUEST: a lane monitor's requested power, 14_time_power.md R326. -/
def execLaneFloorRequest (lane mw : Nat) (s : State) : Out := ok (s.modLane lane fun l => { l with floor := mw, drive := max l.drive mw })

/-! ## The end of a task -/

/-- An elastic expectation that fails and is still armed, 15_light.md R347. -/
def State.failedExpect (s : State) : Option Expect :=
  s.me.expects.find? fun x => decide (x.e ≤ s.me.cyc) && !s.tagOk s.ctx.core x.addr x.tag

/-- The next entry has the GATE rule and a gate is pending. -/
def Core.toGate (k : Core) : Bool := (k.tasks.getD (k.taskIx + 1) {}).rule == .gate && k.gate.isSome

/-- TEND, R125: a recovery task ends (16_faults.md R366); a locked task of another length raises DEVIATION (01_machine.md
R20); a failed expectation at a gate raises SCHED_TAG (15_light.md R347); else the next entry's start is set. -/
def execTend (s : State) : Out :=
  let k := s.me
  if k.inRecov then
    ok { s.modMe (fun k => { k with inTask := false, seq := .stopped }) with
      todo := s.todo ++ [{ ctx := { run := k.run.getD 0 }, instr := .runFreeze }] }
  else if s.badLength then ok (s.raise .deviation 0 0)
  else
    match (if k.elastic && k.toGate then s.failedExpect else none) with
    | some x => ok (s.raise .schedTag (BitVec.ofNat 64 (x.addr / 1024 * 1024))
        ((s.tagAt s.ctx.core x.addr ++ x.tag).setWidth 64))
    | none => ok s.nextTask

end Sys2Proof.Machine
end

