-- ==== Sys2Proof/Machine/Run.lean ====
section
/-! DEFINITION. Runs (01_machine.md): their start, freeze, recovery, restart, abort and end, pre-emption, and what the
self-tests decide (16_faults.md). -/

namespace Sys2Proof.Machine

/-! ## The start -/

/-- What a core holds when its run starts at T0: every register at its value after reset, EARLY from the last, the hardware
task table as armed (01_machine.md R16, R17; 05_registers.md R132, R136; 03_numbers.md R73, R87, R89). -/
def Core.atT0 (k : Core) (c r : Nat) (l : Last) : Core :=
  let e := k.tasks.headD {}
  { run := some r, tasks := k.tasks, wireBuf := k.wireBuf, early := l.early, srs := 0x9E3779B9 ^^^ BitVec.ofNat 32 c,
    seq := if e.rule == .fin then .done else .atTick e.v.toNat, tendTick := l.t0 }

/-- RUN_START: at T0 the armed run starts unconditionally (01_machine.md R16, R27; 15_light.md R348; 12_order.md R296). -/
def execRunStart (s : State) : Out :=
  let r := s.ctx.run
  let ru := s.run r
  if ru.st != .armed then ok s
  else
    let s := s.modRun r fun u => { u with st := .live, tb := u.last.t0, endTick := u.last.t0 }
    let n := (((s.part ru.part).cask).map (·.n)).getD 0
    let s := s.modPart ru.part fun p =>
      { p with rings := [], owed := [], drained := false, markersIn := 0, drainMask := 0,
               credits := if n = 0 then [] else (List.range 32).map fun d => (d, n) }
    let s := ru.cores.foldl (fun s c => s.modCore c fun k => { k.atT0 c r ru.last with ncap := s.ncapOf ru.part }) s
    ok { s with todo := s.todo ++ [{ ctx := { run := r }, instr := .runEnd }] }

/-- The devices of a run's gang whose arm message has not come, 01_machine.md R27. -/
def State.missing (s : State) (ru : Run) : List Nat :=
  (s.gangPeers ru).filter fun d => !s.arms.contains (ru.part, d, ru.last.t0)

/-- QUORUM_CHECK: at T0 + Q, or at the tick after when the tick generator leaves that one out, a missing arm message raises
GANG_ABORT on every core, and no run state survives, whether the run is live, frozen or past its end (01_machine.md R27). -/
def execQuorumCheck (s : State) : Out :=
  let r := s.ctx.run
  let ru := s.run r
  let lost := s.missing ru
  let s := { s with arms := s.arms.filter fun a => a.1 != ru.part || decide (ru.last.t0 < a.2.2) }
  let s := s.modRun r fun u => { u with checked := true }
  if !ru.last.gang || lost.isEmpty || ru.st == .ended then ok s
  else
    let s := ru.cores.foldl (fun s c => s.raiseDev c .gangAbort) s
    ok (s.abortCause r 0)

/-- ARM_MESSAGE: a device is armed for the gang run of the partition that starts at a T0 (01_machine.md R26). -/
def execArmMessage (part : Nat) (arm : Nat × Nat) (s : State) : Out :=
  ok (if s.arms.contains (part, arm) then s else { s with arms := (part, arm) :: s.arms })

/-! ## The end -/

/-- The script of a channel has stopped, 10_channels.md R241. -/
def Chan.stopped' (c : Chan) : Bool := c.script != .running

/-- Posts the run entry of kind 1, with the tick at which the last core reached END, and frees the run's channels and cores
(01_machine.md R9, 10_channels.md R241, 19_host.md R402). The cask stays: credits still owed go on to their senders (15_light.md
R351); a T0 empties it (R348), and so does an abort (16_faults.md R372). -/
def State.completeRun (s : State) (r : Nat) : State :=
  let ru := s.run r
  let s := (s.releaseChans r).freeCores ru.cores
  (s.modRun r fun u => { u with st := .ended }).post ru.vf (cqEntry ru.tag 1 0 0 0 0 0 ru.endTick)

/-- RUN_END: when every core of the run has passed its END entry, the run ends; it is complete once its scripts have stopped
(01_machine.md R9, 10_channels.md R241). The latches of the channels whose scripts do not run are emptied (R257). -/
def execRunEnd (s : State) : Out :=
  let r := s.ctx.run
  let ru := s.run r
  let quiet := ru.chans.all fun cn => (s.chan cn).run != some r || (s.chan cn).stopped'
  match ru.st with
  | .live =>
    if ru.cause.isSome || ru.cores.any (fun c => (s.core c).inBarrier) then ok s
    else if quiet then ok (s.completeRun r)
    else
      let s := ru.chans.foldl (fun s cn =>
        if (s.chan cn).run = some r && (s.chan cn).stopped' then s.modChan cn fun c => { c with latches := [] } else s) s
      ok (s.modRun r fun u => { u with st := .runon (u.endTick + 65536) })
  | .runon _ => ok (if quiet then s.completeRun r else s)
  | _ => ok s

/-- SCRIPT_RUNON_LIMIT: scripts still running 65,536 cycles after the run's end are stopped with their banks precharged
(10_channels.md R241). -/
def execScriptRunonLimit (s : State) : Out :=
  let r := s.ctx.run
  let ru := s.run r
  match ru.st with
  | .runon _ =>
    let s := ru.chans.foldl (fun s cn => if (s.chan cn).run = some r then
        s.modChan cn fun c => { c with script := .ended, bursts := [], banks := c.banks.map fun b => (b.1, { b.2 with row := none }) }
      else s) s
    ok (s.completeRun r)
  | _ => ok s

/-! ## Freeze and recovery -/

/-- Tick at which the cycle after the faulting one was due: the faulting core's next pulse, or the tick after (16_faults.md
R370). A MEM_UE repeats the faulting cycle itself (R373). -/
def State.causeTau (s : State) (c : Cause) (tb : Nat) : Nat :=
  match c.byCore with
  | none => c.tau
  | some (k, _) =>
    match (s.core k).faulted with
    | some (_, t) => (if c.code = FCode.memUe.num then t else s.nextPulse k t) - tb
    | none => c.tau

/-- The record of the cause as it stands: a core's record shows what its bundle did after the fault (16_faults.md R361). -/
def State.causeTrap (s : State) (c : Cause) : Trap :=
  match c.byCore with
  | some (k, _) => if (s.core k).trap.w1 == c.trap.w1 && (s.core k).trap.w0 == c.trap.w0 then (s.core k).trap else c.trap
  | none => c.trap

/-- Poisoned bursts in the channels of a run, 10_channels.md R252. -/
def State.runPoison (s : State) (ru : Run) : List Nat := s.poisoned.filter fun k => ru.last.channels.getLsbD (k / (49152 * 512) % 64)

/-- The self-test of a poisoned burst, which run `r` waits for from now on (16_faults.md R373, R376). -/
def State.testBurst (s : State) (r k : Nat) : State :=
  let u : Unit' := .hbmBurst (k / (49152 * 512)) (k % (49152 * 512))
  let s := { s with testing := s.testing.filter fun t => !(t.unit == u && t.run.isNone) }
  s.startTest { unit := u, run := some r }

/-- The recovery task ends, by THAW: its saved state returns, and what it has sent to pools still arrives, the vault stores and AMOLs
under way among it (16_faults.md R365, R369). -/
def State.thawed (s : State) (r : Nat) : State :=
  match (s.run r).recov with
  | none => s
  | some q =>
    let k := s.core q.core
    let keep := fun (w : PWrite) => match w.upd.plain with
      | .pool d a _ _ => d != q.core || decide (a < 0x17F000)
      | .tag d _ _ => d != q.core
      | _ => false
    let far := s.pend.filterMap fun w => if w.clk == .recov q.core && keep w then
        some { w with clk := .tick, due := s.tick + ceilDiv (16 * (w.due - k.cyc)) k.n, src := { w.src with eng := true } } else none
    let stores := k.sched.filterMap fun d => (Table.get none k.ops d.work.ctx.op).bind fun o =>
      if d.work.instr == .vaultSample && (match o.instr with
        | .st .. | .vst _ | .amol .. => true
        | _ => false) then some (d, o) else none
    let s := s.endRecovery r
    let s := stores.foldl (fun s e => (s.setOp q.core e.1.work.ctx.op (some e.2)).atTick
      (s.tick + ceilDiv (16 * (e.1.due - k.cyc)) k.n) { e.1.work with ctx := { e.1.work.ctx with idx := 4 } }) s
    { s with pend := s.pend ++ far }

/-- RUN_FREEZE: the run stops at Φ (01_machine.md R28 to R30, 16_faults.md R362, R364); or its recovery task has ended, by a
THAW, an ABORT, a TEND or a fault, whose code goes into an event record of its own (R365, R366, R372, log 15); or a
script that ran on has faulted (10_channels.md R241). -/
def execRunFreeze (s : State) : Out :=
  let r := s.ctx.run
  let ru := s.run r
  match ru.st with
  | .runon _ => ok (if ru.cause.isSome then s.abortCause r 0 else s)
  | .live =>
    match ru.cause with
    | none => ok s
    | some c =>
      let c := { c with tau := s.causeTau c ru.tb, trap := s.causeTrap c }
      let s := s.modRun r fun u => { u with st := .frozen s.tick, cause := some c, record := c.trap,
                                            recAt := if u.last.recovery then some (s.tick + 80) else none }
      let s := if c.code = FCode.memUe.num then (s.runPoison ru).foldl (fun s k => s.testBurst r k) s else s
      ok (if !ru.last.recovery && !ru.last.gang then s.abortCause r 0 else s)
  | .frozen _ =>
    match ru.recov with
    | none => ok s
    | some q =>
      if (s.core q.core).seq != .stopped then ok s
      else if ru.restartAt.isSome then ok (s.thawed r)
      else
        let s := if ru.recFault = 0 then s else s.event ru.vf 0 (leBytes 8 ru.tag.toNat ++ leBytes 24 ru.recFault)
        ok (s.abortCause r ru.abortCode)
  | _ => ok s

/-- The core as its recovery task finds it, 16_faults.md R365. -/
def Core.forRecovery (k : Core) (c : Nat) (l : Last) (rt ncap : Nat) : Core :=
  let t : Task := { budget := BitVec.ofNat 32 l.recBudget, len := 0xFFFFFFFF, code := BitVec.ofNat 15 l.recCode, rule := .after }
  { k with x := [], p := 0, q := [], tok := [], rm := 0, srs := 0x9E3779B9 ^^^ BitVec.ofNat 32 c, fpstat := 0, early := l.early,
           status := 0, rrb := 0, loops := k.loops.map fun l => (l.1, { l.2 with active := false, iter := 0 }), part := 0, carve := carveOf 0,
           cyc := 0, running := false, s := 1, inTask := true, inRecov := true, elastic := true, n := min 16 ncap, rails := 0xF,
           mask := 0xF, phaseStart := rt, tasks := [t, {}], taskIx := 0, seq := .issue 0, held := .off, faulted := none,
           nextPc := l.recCode, delayLeft := 0, target := none, waits := [], ready := [], lastX := [], gate := none, wake := [],
           reclock := false, ops := [], sched := [], copyQ := [], expects := [], gatedTill := 0 }

/-- RECOVERY_START: the designated core's state is saved and the recovery task begins (16_faults.md R364, R365). -/
def execRecoveryStart (s : State) : Out :=
  let r := s.ctx.run
  let ru := s.run r
  match ru.st with
  | .frozen _ =>
    let c := ru.last.recCore
    let k := s.core c
    let q : Recovery := { core := c, saved := k, bytes := s.poolRead c 0x17F000 4096, deadline := ru.last.recBudget }
    let s := s.modRun r fun u => { u with recov := some q, recAt := none, recFault := 0 }
    ok (s.setCore c (k.forRecovery c ru.last (s.runTick r) k.ncap))
  | _ => ok s

/-! ## RDFR, THAW and ABORT -/

/-- Word `w` of a record, 16_faults.md Table 16.2. -/
def Trap.word (t : Trap) (w : BitVec 3) : X :=
  match w.toNat with
  | 0 => t.w0
  | 1 => t.w1
  | 2 => t.w2
  | 3 => t.w3
  | 4 => t.w4
  | 5 => t.w5
  | 6 => t.w6
  | _ => t.w7

/-- RDFR.core, 16_faults.md R368. -/
def execRdfrCore (xd xa : XReg) (w : BitVec 3) (s : State) : Out :=
  let a := (s.xr xa).toNat
  ok (s.deferX 3 xd (if a < 512 && s.sameRun s.ctx.core a then (s.core a).trap.word w else 0))

/-- The cause record of the run in hand. -/
def State.causeRecord (s : State) : Trap := ((s.runOf s.ctx.core).map (·.record)).getD {}

/-- RDFR.cause, 16_faults.md R368. -/
def execRdfrCause (xd : XReg) (w : BitVec 3) (s : State) : Out := ok (s.deferX 3 xd (s.causeRecord.word w))

/-- The run is resumable: the cause and every valid core record have RESUMABLE, 16_faults.md R369. -/
def State.resumable (s : State) (ru : Run) : Bool :=
  s.causeRecord.w0.getLsbD 9 && ru.cores.all fun c => !(s.core c).trap.w0.getLsbD 8 || (s.core c).trap.w0.getLsbD 9

/-- The tick at which the `n`-th cycle of core `c` after the present one begins. -/
def State.cycleTick (s : State) (c : Nat) : Nat → Nat → Nat
  | 0, t => t
  | n + 1, t =>
    let k := s.core c
    let rt := fun u => u - ((s.runOf c).map (·.tb)).getD 0 - k.phaseStart
    s.cycleTick c n ((((List.range 16).map (t + 1 + ·)).find? fun u => pulseAt k.n (rt u)).getD (t + 1))

/-- The recovery task of the core in hand ends with this cycle. -/
def State.stopRecovery (s : State) : State :=
  { s.modMe (fun k => { k with seq := .stopped }) with
    todo := s.todo ++ [{ ctx := { run := s.me.run.getD 0 }, instr := .runFreeze }] }

/-- THAW, 16_faults.md R369. -/
def execThaw (xd : XReg) (s : State) : Out :=
  match s.runOf s.ctx.core, s.me.run with
  | some ru, some r =>
    if ru.last.gang then ok (s.deferX 0 xd 2)
    else if !s.resumable ru then ok (s.deferX 0 xd 1)
    else ok (((s.deferX 0 xd 0).modRun r fun u => { u with restartAt := some (s.cycleTick s.ctx.core 32 s.tick) }).stopRecovery)
  | _, _ => ok s

/-- ABORT, 16_faults.md R372. -/
def execAbort (code : BitVec 32) (s : State) : Out :=
  ok ((s.modRun (s.me.run.getD 0) fun u => { u with abortCode := code }).stopRecovery)

/-! ## Restart -/

/-- The run stands pre-empted: the firmware may give its cores and channels away (16_faults.md R375). -/
def Run.preempted (ru : Run) : Bool :=
  match ru.st, ru.cause with
  | .frozen _, some c => c.code == FCode.preempt.num
  | _, _ => false

/-- A core goes on from where it stopped: one with a fault of its own at the cycle after it, or, when that was a MEM_UE, at that
cycle again, the others at Φ; a wait at a gate has not lasted longer for the freeze, and the wake of its rails takes up where it
stood (16_faults.md R362, R363, R370, R373). -/
def Core.restart (k : Core) (old phi frozen : Nat) (next : Nat) (now : List Work) (later : List Due) : Core :=
  let again := k.ue.isSome
  let k := { k with wake := k.wake.map fun (e : BitVec 4 × Nat) => (e.1, e.2 + frozen), ue := none, sched := k.sched ++ later }
  let back := fun (q : Seq) => match q with
    | .gate a => .gate (a + frozen)
    | q => q
  match k.faulted with
  | some (g, t) => { k with cyc := if again then g - 1 else g, cycTick := t + frozen, seq := back k.held, held := .off,
                            faulted := none, lastX := [], running := false, gatedTill := (if again then t else next) - old,
                            ready := k.ready ++ now }
  | none => { k with seq := back k.seq, lastX := [], running := false, gatedTill := phi - old, cycTick := k.cycTick + frozen }

/-- The steps that perform the failing samples of core `c` again, with the core's cycle of each: its state as it was comes in, the
sample is taken, and the present state returns (16_faults.md R373). -/
def replayWorks (r c : Nat) (l : List Replay) : List Due :=
  l.zipIdx.flatMap fun e =>
    let on := fun n => ({ due := e.1.cyc, work := { ctx := { run := r, core := c, op := e.2, idx := n }, instr := .runRestart } } : Due)
    if e.1.work.ctx.core = c then [on 1, { due := e.1.cyc, work := e.1.work }, on 2] else []

/-- What a CHR wrote from bursts that have been repaired is written again at the cycles it originally had, with the tags of the
cycles that ran on; the CHR in flight goes on with the repaired bursts (16_faults.md R373). -/
def State.rewrite (s : State) (w : Rewrite) : State :=
  let o := s.repaired w
  let c := o.src.core
  let done := (s.core c).cyc
  let s := s.modCore c fun k => { k with ops := k.ops.map fun e => (e.1, e.2.map fun p =>
    if p.src == o.src then { p with cols := o.cols ++ p.cols.drop o.cols.length, outs := o.outs ++ p.outs.drop o.outs.length }
    else p) }
  let (n, s) := s.newOp c { o with follow := none, fin := some w.cyc, fut := [] }
  let step := fun (i plane : Nat) =>
    ({ due := w.cyc + i, work := { ctx := { core := c, op := n, idx := w.first + i, plane := plane }, instr := .chrCollect } } : Due)
  let m := w.last - w.first
  let more := (List.range 32).filterMap fun i => if w.cyc + m + 1 + i ≤ done then some (step (m + 1 + i) 2) else none
  s.modCore c fun k => { k with sched := k.sched ++ (List.range (m + 1)).map (step · 1) ++ more ++
    [{ due := max done (w.cyc + m) + 1, work := { ctx := { core := c, op := n }, instr := .followOnIssue } }] }

/-- The lane engines of a frozen run have held the flits of its sends: they leave as many ticks later as the run stood frozen, each
in the first free position of its lane from then on that its row sends to the flit's rank (16_faults.md R362; which position,
where that tick begins none, is a DESIGN CHOICE, log entry 38). -/
def State.heldFlits (s : State) (p frozen : Nat) : State :=
  { s with lanes := s.lanes.map fun (e : Nat × Lane) =>
      let mine := fun (c : Nat × Nat × Flit) => c.2.2.part == p && !c.2.2.gone
      let kept := e.2.claims.filter fun c => !mine c
      let claims := (e.2.claims.filter mine).foldl (fun l c =>
        match s.nextPosition e.1 c.2.2.rank (posTick c.1 c.2.1 + frozen) l with
        | some (slot, pos) => l ++ [(slot, pos, c.2.2)]
        | none => l) kept
      (e.1, { e.2 with claims := claims, busy := e.2.busy.map fun b =>
        if (s.runOf b.2.core).any fun u => u.part == p then (b.1 + frozen, b.2) else b }) }

/-- The run goes on at tick `rs` with TB := rs − τ (01_machine.md R31, 16_faults.md R370); a pre-emption asked for before the freeze
stands (01_machine.md R33). -/
def State.restartRun (s : State) (r rs : Nat) : State :=
  let ru := s.run r
  match ru.st, ru.cause with
  | .frozen phi, some c =>
    let tb := rs - c.tau
    let s := ru.rewrites.foldl State.rewrite s
    let s := ru.cores.foldl (fun s k =>
      let q := s.core k
      let next := match q.faulted with
        | some (_, t) => s.nextPulse k t
        | none => 0
      let steps := if q.ue.isSome then replayWorks r k ru.replay else []
      let g := (q.faulted.map (·.1)).getD 0
      s.modCore k fun q => q.restart ru.tb phi (tb - ru.tb) next ((steps.filter fun d => decide (d.due ≤ g)).map (·.work))
        (steps.filter fun d => decide (g < d.due))) s
    let s := s.modRun r fun u => { u with st := .live, tb := tb, cause := none, recAt := none, restartAt := none,
                                          gatedTill := phi - u.tb, again := u.replay, replay := [],
                                          rewrites := [], recFault := 0, yieldAt := none }
    let s := s.heldFlits ru.part (tb - ru.tb)
    { s with todo := s.todo ++ [{ ctx := { run := r }, instr := .runEnd }] }
  | _, _ => s

/-- A failing sample is performed again: the core's state as it was, in the cycle in hand, comes in. -/
def State.replayIn (s : State) (r c n : Nat) : State :=
  match (s.run r).again[n]? with
  | none => s
  | some q =>
    let k := s.core c
    let then_ : Core := { q.core with run := k.run, cyc := k.cyc, cycTick := k.cycTick, running := true, faulted := none, seq := k.seq,
                                      waits := k.waits, elastic := k.elastic }
    let s := s.modRun r fun u => { u with again := u.again.set n { q with saved := k } }
    let s := s.setCore c then_
    match q.op with
    | some o => s.setOp c q.work.ctx.op (some o)
    | none => s

/-- What a repeated sample of the array puts into the operation's samples of column `k`. -/
def Op.patch (o q : Op) (k : Nat) : Op :=
  { o with cols := if q.cols.length = k + 1 then o.cols.set (o.cols.length - 1 - k) (q.cols.headD ([], [])) else o.cols
           accs := if q.accs.isEmpty then o.accs else q.accs }

/-- A repeated sample of a third of a decode table goes into its load, and, where that has read the whole table since, into the slot
at the cycle it had (09_pool.md R224). -/
def State.replayTable (s : State) (r c : Nat) (q : Replay) (back : State) : State :=
  let n := q.work.ctx.op
  let i := q.work.ctx.idx
  let a := (q.op.getD {}).as + 128 * i
  let part := s.poolRead c a (if i = 2 then 32 else 128)
  let put := fun (p : Op) => { p with buf := splice p.buf (128 * i) part }
  let back := back.modRun r fun u => { u with again := u.again.map fun e => if e.work.ctx.op = n && e.work.ctx.core = c then
    { e with last := e.last.map put } else e }
  let held := ((Table.get none q.saved.ops n).orElse fun _ => q.last).map put
  let back := match Table.get none q.saved.ops n, held with
    | some _, some p => back.setOp c n (some p)
    | _, _ => back
  match held with
  | none => back
  | some p =>
    if p.buf.length < 288 then back
    else
      { back with pend := back.pend.filter fun w => match w.upd with
          | .decTab d k _ => !(d == c && k == p.x1.toNat)
          | _ => true }.push
        { clk := .core c, due := (p.st.getD 0) + 2, src := { p.src with eng := true }, upd := .decTab c p.x1.toNat (decTabOf p.buf) }

/-- The present state returns; the writes that the sample has deferred stay. A sample of the array goes into its operation, or,
when that has been written since, into the write of its result at the cycle it had (08_matrix.md R197); what a syllable starts goes
on in the present state. The header of a code image that reads differently now has its load begin again (09_pool.md R227). -/
def State.replayOut (s : State) (r c n : Nat) : State :=
  match (s.run r).again[n]? with
  | none => s
  | some q =>
    let o := s.op c q.work.ctx.op
    let ix := q.work.ctx.idx
    let back := s.setCore c q.saved
    match q.work.instr with
    | .arraySample =>
      match Table.get none q.saved.ops q.work.ctx.op with
      | some p => back.setOp c q.work.ctx.op (some (p.patch o ix))
      | none =>
        match q.saved.lastMma with
        | some p =>
          if p.src == o.src then
            let w := p.patch o ix
            let end_ := (p.st.getD 0) + p.cols.length * (if (mmaVar p.instr).2.1 then 4 else 1) + 3
            back.push { clk := .core c, due := end_, src := { p.src with eng := true },
                        upd := .acc c (p.regs.headD 0) 0 (mmaBytes (mmaResult w)) }
          else back
        | none => back
    | .vaultSample =>
      match Table.get none q.saved.ops q.work.ctx.op with
      | some p => back.setOp c q.work.ctx.op (some { p with buf := o.buf })
      | none => back
    | .decodeTableLoad => s.replayTable r c q back
    | .codeImageLoad =>
      let held := (Table.get none q.saved.ops q.work.ctx.op).orElse fun _ => q.last
      if (q.op.bind (·.st)).isSome || held.any (fun p => p.hs == o.hs && p.hd == o.hd) then back
      else
        let src := (q.op.getD {}).src
        let back := { back with pend := back.pend.filter fun w => match w.upd with
          | .imem d _ _ => !(d == c && w.src.same src)
          | _ => true }
        let back := (back.modCore c fun p => match Table.get none p.ops q.work.ctx.op with
          | some x => p.dropOp q.work.ctx.op x
          | none => p).setOp c q.work.ctx.op q.op
        { back with todo := q.work :: back.todo }
    | _ =>
      let k := s.core c
      let new := k.ops.filter fun e => !(q.core.ops.any fun o => o.1 == e.1)
      back.modCore c fun p =>
        { p with ops := p.ops ++ new, moverFree := max p.moverFree k.moverFree
                 sched := p.sched ++ k.sched.filter fun d => new.any fun e => e.1 == d.work.ctx.op }

/-- RUN_RESTART, 16_faults.md R370; with index 1 and 2 in the context, before and after a sample that is performed again
(R373). -/
def execRunRestart (s : State) : Out :=
  match s.ctx.idx with
  | 1 => ok (s.replayIn s.ctx.run s.ctx.core s.ctx.op)
  | 2 => ok (s.replayOut s.ctx.run s.ctx.core s.ctx.op)
  | _ => ok (s.restartRun s.ctx.run s.tick)

/-! ## Gangs -/

/-- ABORT_NOTICE: the earliest tick A holds; the first notice raises GANG_ABORT as a device fault (01_machine.md R32,
16_faults.md R374). -/
def execAbortNotice (part tickA : Nat) (s : State) : Out :=
  match s.runs.find? fun e => e.2.part == part && e.2.last.gang && (match e.2.st with
      | .live => true
      | .frozen _ => true
      | .runon _ => true
      | _ => false) with
  | none => ok s.discard
  | some (r, ru) =>
    let first := ru.abortAt.isNone
    let s := s.modRun r fun u => { u with abortAt := some (min tickA (u.abortAt.getD tickA)) }
    ok (if first then s.raiseRun r .gangAbort 3 (ru.cores.headD 0) 0 0 0 s.tick else s)

/-- GANG_ABORT_TICK: at tick A the run aborts, and a recovery task stops (01_machine.md R32, 16_faults.md R374), unless it has
ended in this tick. -/
def execGangAbortTick (s : State) : Out :=
  ok (if (s.run s.ctx.run).st == .ended then s else s.abortCause s.ctx.run 0)

/-! ## Pre-emption -/

/-- PREEMPT_REQUEST: firmware asks for a run with a yield gap, no gang; a request that an armed or a frozen run gets stands until its
first yield cycle (01_machine.md R33). -/
def execPreemptRequest (s : State) : Out :=
  let ru := s.run s.ctx.run
  ok (if ru.st != .ended && ru.last.yieldGap != 0 && !ru.last.gang then s.modRun s.ctx.run fun u => { u with preempt := true } else s)

/-- The tick at which the yield cycle began: that of its cores' cycles in hand, the latest where their clocks differ (DEDUCED, log
entry 18). -/
def State.yieldBegin (s : State) (ru : Run) : Nat := ru.cores.foldl (fun m c => max m (s.core c).cycTick) 0

/-- PREEMPT_FREEZE: the run freezes with cause PREEMPT at the end of its yield cycle (01_machine.md R33, 16_faults.md R375). -/
def execPreemptFreeze (s : State) : Out :=
  let r := s.ctx.run
  let ru := s.run r
  let y := s.yieldBegin ru
  let t : Trap := { w0 := trapWord0 FCode.preempt.num false false 3 7 0 (ru.cores.headD 0) false false
                    w1 := BitVec.ofInt 64 ((y : Int) - ru.tb) }
  let c : Cause := { key := [y, 3, 0, 0], code := FCode.preempt.num, kind := 3, trap := t, byTick := s.tick,
                     tau := s.tick - ru.tb }
  ok (s.modRun r fun u => { u with st := .frozen s.tick, cause := some c, record := t, recAt := none, restartAt := none,
                                   yieldAt := none, preempt := false })

/-- The entries of the cores `cs` in a list keyed by core and `n` places a core. -/
def ofCores {α : Type} (n : Nat) (cs : List Nat) (l : List (Nat × α)) : List (Nat × α) := l.filter fun e => cs.contains (e.1 / n)

/-- The entries of the cores of `m` in place of those that a list holds of cores `cs`. -/
def putCores {α : Type} (n : Nat) (cs : List Nat) (m l : List (Nat × α)) : List (Nat × α) :=
  cs.foldl (fun l c => (l.takeWhile fun e => decide (e.1 / n < c)) ++ ofCores n [c] m ++ l.dropWhile fun e => decide (e.1 / n ≤ c)) l

/-- The cores and channels that a saved context needs stand in no run. -/
def State.contextFree (s : State) (ru : Run) : Bool :=
  ru.context.isNone || (ru.cores.all (fun c => (s.core c).run.isNone) && ru.contextChans.all fun e => (s.chan e.1).run.isNone)

/-- The firmware restores a saved context onto the same cores and channels, 16_faults.md R375. -/
def State.loadContext (s : State) (r : Nat) : State :=
  let ru := s.run r
  match ru.context with
  | none => s
  | some x =>
    let s := x.cores.foldl (fun s e => s.setCore e.1 e.2) s
    let s := ru.contextChans.foldl (fun s e => s.modChan e.1 fun _ => e.2) s
    let s := { s with pool := putCores 2097152 ru.cores x.pool s.pool, tags := putCores 1536 ru.cores x.tags s.tags
                      pend := s.pend ++ x.pend, wrote := s.wrote ++ x.wrote
                      imem := putCores 32768 ru.cores x.imem s.imem
                      deltas := x.deltas.foldl (fun m (e : Nat × List Delta) => Table.put m e.1 e.2) s.deltas }
    s.modRun r fun u => { u with context := none, contextChans := [] }

/-- PREEMPT_RESUME: firmware restores and restarts the run, at the next tick when it asks now; the cores and channels of the run
must be in no other (16_faults.md R375). -/
def execPreemptResume (s : State) : Out :=
  let r := s.ctx.run
  let ru := s.run r
  if !ru.preempted || !s.contextFree ru then ok s
  else if ru.restartAt.any fun t => decide (t ≤ s.tick) then ok (s.restartRun r s.tick)
  else ok ((s.loadContext r).modRun r fun u => { u with restartAt := some (s.tick + 1) })

/-- Cycles of core `c` since the run's last yield cycle or its start, 01_machine.md R34. -/
def State.gapOf (s : State) (ru : Run) (c : Nat) : Nat := (s.core c).cyc - Table.get 0 ru.yieldCyc c

/-- YIELD_GAP_EXPIRY: no yield cycle within the gap, counted in cycles of the core that has had most of them (log 18), raises
DEADLINE on the run, against the task of the first core whose count exceeds the gap (01_machine.md R34, 16_faults.md Tables 16.1,
16.3). -/
def execYieldGapExpiry (s : State) : Out :=
  let ru := s.run s.ctx.run
  match ru.cores.find? fun c => decide (ru.last.yieldGap < s.gapOf ru c) with
  | some c => ok ({ s with ctx := { s.ctx with core := c } }.raiseTask .deadline 3 (BitVec.ofNat 64 ((s.core c).cycTick - ru.tb)))
  | none => ok s

/-! ## Soft errors and lasting faults, 16_faults.md R373, R376, R377 -/

/-- The unit is held by a run. -/
def State.unitBusy (s : State) (u : Unit') : Bool :=
  let core := fun c => (s.core c).run.isSome
  let chan := fun c => (s.chan c).run.isSome
  match u with
  | .poolBank c _ => core c
  | .imemQuarter c _ => core c
  | .coreState c => core c
  | .hbmBurst c _ => chan c
  | .hbmRows c _ _ => chan c
  | .channel c => chan c
  | .stack t => (List.range 64).any fun g => chan (64 * t + g)
  | .router d => (List.range 256).any fun c => core (256 * d + c)

/-- Retires a core: its group is withdrawn. -/
def Caps.dropCore (c : Caps) (k : Nat) : Caps :=
  { c with retired := k :: c.retired.filter (· != k), coreGroups := c.coreGroups &&& ~~~ (1#64 <<< coreGroup k) }

/-- Retires a unit, R377; the stack's channels stop running scripts (10_channels.md R251). -/
def State.retire (s : State) (u : Unit') : State :=
  match u with
  | .poolBank c _ => s.capChange fun m => m.dropCore c
  | .imemQuarter c _ => s.capChange fun m => m.dropCore c
  | .coreState c => s.capChange fun m => m.dropCore c
  | .hbmBurst c b => s.capChange fun m => { m with rows := m.rows ++ [(c, b / 512, b / 512)] }
  | .hbmRows c a b => s.capChange fun m => { m with rows := m.rows ++ [(c, a, b)] }
  | .channel c => s.capChange fun m => { m with parityGroups := m.parityGroups &&& ~~~ (1#64 <<< (c % 64)) }
  | .stack t =>
    (List.range 64).foldl (fun s g => s.modChan (64 * t + g) fun c => { c with script := .none_ })
      (s.capChange fun m => { m with stackSt := Table.put m.stackSt t 1 })
  | .router d => s.capChange fun m => { m with coreGroups := m.coreGroups &&& ~~~ (0xFFFFFFFF#64 <<< (32 * d)) }

/-- A lasting verdict retires the unit from allocation at the end of the run that holds it, R376. -/
def State.retireLater (s : State) (u : Unit') : State :=
  if s.unitBusy u then { s with retiring := s.retiring ++ [u] } else s.retire u

/-- Units whose run has ended. -/
def State.retireReady (s : State) : State :=
  let go := s.retiring.filter fun u => !s.unitBusy u
  if go.isEmpty then s else go.foldl State.retire { s with retiring := s.retiring.filter s.unitBusy }

/-- CORRECTED_ERROR: logged, and a self-test is due; the sixteenth of a unit retires it (R376). -/
def execCorrectedError (u : Unit') (s : State) : Out :=
  let n := ((s.errors.find? fun e => e.1 == u).map (·.2)).getD 0 + 1
  let s := { s with errors := (u, n) :: s.errors.filter fun e => e.1 != u }
  let s := if s.testing.any fun t => t.unit == u then s else s.startTest { unit := u, started := false }
  ok (if n = 16 then s.retireLater u else s)

/-- A record of MEM_UE with the verdict, once: the tested unit, 1 transient, 2 lasting or 3 repaired, and RESUMABLE (16_faults.md
Table 16.2, R373). -/
def Trap.judged (t : Trap) (unit verdict : Nat) (res : Bool) : Trap :=
  if (bits t.w0 0 8).toNat = FCode.memUe.num && t.w0.getLsbD 8 && t.w5 == 0 then
    { t with w5 := BitVec.ofNat 64 (unit % 65536 * 256 + verdict)
             w0 := if res && !t.w0.getLsbD 17 && bits t.w0 10 2 == 0 then t.w0 ||| 0x200 else t.w0 }
  else t

/-- Enters the verdict of unit `u` in the records of the run's cores that it stopped, and in the cause record when it is of one of
these. -/
def State.judge (s : State) (r : Nat) (u : Unit') (unit verdict : Nat) (res : Bool) : State :=
  let cs := (s.run r).cores.filter fun c => (s.frozenCore c).ue == some u
  let cause := (s.run r).cause.any fun c => c.byCore.any fun k => cs.contains k.1
  let s := s.modRun r fun q => { q with
    cause := q.cause.map fun c => if cause then { c with trap := c.trap.judged unit verdict res } else c
    record := if cause then q.record.judged unit verdict res else q.record
    recov := q.recov.map fun v =>
      if cs.contains v.core then { v with saved := { v.saved with trap := v.saved.trap.judged unit verdict res } } else v }
  cs.foldl (fun s c => s.modCore c fun k => { k with trap := k.trap.judged unit verdict res }) s

/-- The stripe of a burst is protected: no stack is retired and no other burst of it is poisoned (16_faults.md R373). -/
def State.protected_ (s : State) (k : Nat) : Bool :=
  s.lostStack.isNone && (List.range 12).all fun st => stripeBurst k st == k || !s.isPoisoned (stripeBurst k st)

/-- A self-test of a unit that runs: its core or channel is in no run, or its run stands frozen (16_faults.md R376). That of a pool
bank, which 14_time_power.md R325 has run while the run is frozen, runs once the core is in no run where the run has aborted without
a recovery task (DESIGN CHOICE, log 17). -/
def State.testable (s : State) (u : Unit') : Bool :=
  let still := fun (r : Option Nat) => r.all fun r => match (s.run r).st with
    | .frozen _ => true
    | _ => false
  let core := fun c => still (s.core c).run
  let chan := fun c => still (s.chan c).run
  match u with
  | .poolBank c _ => core c
  | .imemQuarter c _ => core c
  | .coreState c => core c
  | .hbmBurst c _ => chan c
  | .hbmRows c _ _ => chan c
  | .channel c => chan c
  | .stack t => (List.range 64).all fun g => chan (64 * t + g)
  | .router d => (List.range 256).all fun c => core (256 * d + c)

/-- A self-test that can begin does: its unit is free or its run stands frozen, and a test with a limit has the SRAM rail at point
7. Where the spec gives a limit it is complete by then, at a free tick, and whether it passes is free too (14_time_power.md R325,
16_faults.md R376, log 3). -/
def State.beginTest (s : State) (t : Test) : Test × State :=
  if t.started || !s.testable t.unit || (t.limit.isSome && decide (s.railPoint 2 < 7)) then (t, s)
  else
    match t.limit with
    | none => ({ t with started := true }, s)
    | some l =>
      let (n, s) := s.draw
      let (m, s) := s.draw
      ({ t with started := true, due := some (s.tick + 1 + Config.freeNat n % max 1 (l - s.tick)),
                passes := Config.freeNat m % 2 == 0 }, s)

/-- Self-tests that can begin do (16_faults.md R376). -/
def State.beginTests (s : State) : State :=
  s.testing.foldl (fun s t => let (t, s) := s.beginTest t; { s with testing := s.testing ++ [t] }) { s with testing := [] }

/-- The bank's test after an error below point 7 has passed: the error is logged as undervolt-transient, the floor rises by one
point, and the rail is not below it (14_time_power.md R325). -/
def State.undervolt (s : State) (u : Unit') : State :=
  let s := { s with undervolts := u :: s.undervolts }
  let s := if s.floor < 7 then { s with floor := s.floor + 1 }.capChange id else s
  { s with rails := Table.put s.rails 2 { s.rail 2 with point := max (s.rail 2).point s.floor } }

/-- The rail returns from point 7 to that of its votes and its floor once no bank is under test; a rise of the votes in progress
completes at its own tick (14_time_power.md R323, R325). -/
def State.endDrive (s : State) : State :=
  if s.bankTest then s else { s with rails := Table.put s.rails 2 { s.rail 2 with drive := none } }

/-- Self-tests that are complete at the latest now, with their results (14_time_power.md R325). -/
def State.testWorks (s : State) : List Work :=
  s.testing.filterMap fun t => if t.started && t.due.any fun d => decide (d ≤ s.tick) then
    some { instr := .selfTestVerdict t.unit t.passes } else none

/-- The controller rewrites the words of a quarter of instruction memory from its copies of the images it placed; words that CPI
loaded stay bad (16_faults.md R373). Says too whether every bad word of the quarter was rewritten. -/
def State.repairImem (s : State) (c q : Nat) : Bool × State :=
  let mine := fun w => w / 8192 == 4 * c + q
  ((s.badWords.filter mine).all fun w => !s.cpiWords.contains w,
    { s with badWords := s.badWords.filter fun w => !mine w || s.cpiWords.contains w })

/-- SELF_TEST_VERDICT, 14_time_power.md R325, 16_faults.md R373, R376, R377: every test of the unit that runs is complete. -/
def execSelfTestVerdict (u : Unit') (passed : Bool) (s : State) : Out :=
  let mine := s.testing.filter fun t => t.unit == u && t.started
  if mine.isEmpty then ok s
  else
  let runs := mine.filterMap (·.run)
  let s := { s with testing := s.testing.filter fun t => !(t.unit == u && t.started) }
  let s := runs.foldl (fun s r => s.modRun r fun q => { q with tests := q.tests - 1 }) s
  let v := if passed then 1 else 2
  let mark := fun (s : State) unit verdict res => runs.eraseDups.foldl (fun s r => s.judge r u unit verdict res) s
  let lasting := fun (s : State) => if passed then s else s.retireLater u
  match u with
  | .poolBank _ b =>
    let s := if s.lowTests.contains u then
        let s := { s with lowTests := s.lowTests.filter (· != u) }
        if passed then s.undervolt u else s
      else s
    ok (lasting (mark s.endDrive b v passed))
  | .imemQuarter c q =>
    let (all, t) := s.repairImem c q
    ok (lasting (mark (if passed then t else s) q v (passed && all)))
  | .coreState _ => ok (lasting (mark s 0 v false))
  | .hbmBurst c b =>
    let k := c * (49152 * 512) + b
    let fix := s.isPoisoned k && s.protected_ k
    let s := if fix then (s.putBurst k (s.stripeXor k)).setPoison k false else s
    ok (lasting (mark s c (if fix then 3 else v) fix))
  | .hbmRows c _ _ => ok (lasting (mark s c v false))
  | .channel c => ok (lasting (mark s c v false))
  | .stack _ => ok (lasting s)
  | .router _ => ok (lasting s)

end Sys2Proof.Machine
end

