-- ==== Sys2Proof/Machine/Launch.lean ====
section
/-! DEFINITION. The launch queue, the checks of a last and arming (01_machine.md R11 to R16, R26; 19_host.md R401, R402),
and LAUNCH (04_cycles.md R128). -/

namespace Sys2Proof.Machine

/-! ## Reading a last -/

/-- `n` bytes at offset `o`, as a number. -/
def fieldAt (bs : List Byte) (o n : Nat) : Nat := ofLe ((bs.drop o).take n)

/-- A task entry as read: its task and whether a check of Table 1.4 or 05_registers.md Table 5.1 fails (01_machine.md
R16). -/
def taskOf (first : Bool) (bs : List Byte) : Task × Bool :=
  let w := BitVec.ofNat 256 (ofLe bs)
  let f := fun a n => (bits w a n).toNat
  let rule : StartRule := match f 16 2 with
    | 0 => .fin
    | 1 => .after
    | 2 => .at
    | _ => .gate
  let part := bits w 144 32
  let len := f 112 32
  let b := f 80 32
  let vr := 16 * ((bits part 0 2).toNat + 1)
  let nr := match (bits part 2 2).toNat with
    | 0 => 0
    | 1 => 8
    | 2 => 16
    | _ => 32
  let word := f 165 11 != 0 || decide (8 < (bits part 9 4).toNat) || decide (16 < (bits part 4 5).toNat) || decide (vr < nr)
  ({ part := part, len := bits w 112 32, budget := bits w 80 32, v := bits w 32 48, rule := rule, yieldable := w.getLsbD 15,
     code := bits w 0 15 },
   f 176 80 != 0 || word || (len != 0xFFFFFFFF && decide (b < len)) || (rule != .fin && b == 0) ||
     (rule == .gate && (f 32 48 != 0 || first)) || f 18 14 != 0)

/-- The entries of a table up to its END; `none` when a check fails or no END appears within 32 entries (R15, R16). -/
def tasksOf : Nat → Bool → List Byte → Option (List Task)
  | 0, _, _ => none
  | n + 1, first, bs =>
    let (t, bad) := taskOf first (bs.take 32)
    if bad then none
    else if t.rule == .fin then some [t]
    else (tasksOf n false (bs.drop 32)).map (t :: ·)

/-- A window binding: BOUND, element size in bytes, elements, pool kind, source, landing; and whether a must-be-zero field
is not zero (Table 1.3). -/
structure Binding where
  bound : Bool
  esz : Nat
  n : Nat
  pool : Bool
  src : Nat
  land_ : Nat
  bad : Bool
  deriving DecidableEq, Repr

/-- A binding from its 16 bytes. -/
def bindingOf (bs : List Byte) : Binding :=
  let w := BitVec.ofNat 128 (ofLe bs)
  { bound := w.getLsbD 56, esz := 2 ^ (bits w 58 2).toNat, n := (bits w 64 16).toNat, pool := w.getLsbD 57,
    src := (bits w 0 48).toNat, land_ := (bits w 96 24).toNat,
    bad := bits w 120 8 != 0 || bits w 80 16 != 0 || bits w 60 4 != 0 || bits w 48 8 != 0 }

/-- Cores of a core-group set in ascending id, 01_machine.md R15. -/
def coresOf (g : BitVec 64) : List Nat := (List.range 512).filter fun c => g.getLsbD (coreGroup c)

/-- The last of 256 bytes, 01_machine.md Table 1.1. -/
def lastOf (addr : Nat) (bs : List Byte) : Last :=
  let f := fieldAt bs
  let fl := f 4 2
  let q := f 6 2
  let d := BitVec.ofNat 64 (f 0x28 8)
  { addr := addr, early := f 3 1 % 2 == 1, gang := fl % 2 == 1, recovery := fl / 2 % 2 == 1, q := if q = 0 then 2048 else q,
    t0 := f 8 8, coreGroups := BitVec.ofNat 64 (f 0x10 8), bitmap := BitVec.ofNat 32 (f 0x18 4), yieldGap := f 0x1C 4,
    recBudget := (bits d 24 32).toNat, recCode := (bits d 9 15).toNat, recCore := (bits d 0 9).toNat,
    channels := BitVec.ofNat 64 (f 0x30 8), rackId := f 0x40 4,
    wid := (List.range 6).map fun i => let w := f (0x44 + 2 * i) 2; (w % 64, w / 64 % 8),
    user := BitVec.ofNat 64 (f 0x50 8), rankMap := (List.range 32).map fun k => f (0x58 + k) 1,
    windows := (List.range 8).map fun i =>
      let b := bindingOf ((bs.drop (0x80 + 16 * i)).take 16)
      if b.bound then some (if b.pool then b.src else b.land_, b.n, b.esz) else none }

/-! ## The checks -/

/-- Task tables of the run, by core rank. -/
def State.tables (s : State) (p base : Nat) (cores : List Nat) : List (Option (List Task)) :=
  cores.zipIdx.map fun c => (s.readVirt p 2 (base + 1024 * c.2) 1024).bind (tasksOf 32 true)

/-- The lowest SCRLIM of any task in the tables. -/
def lowScratch (ts : List (List Task)) : Nat :=
  ts.foldl (fun a l => (l.filter fun t => t.rule != .fin).foldl (fun a t => min a (carveOf t.part).scrlim) a) 0x17F000

/-- Channel numbers of an allotment. -/
def allotment (g : BitVec 64) : List Nat := (List.range 768).filter fun cn => g.getLsbD (cn % 64)

/-- The first block of a channel from the script start table: `none` no script, `some none` a bad entry (10_channels.md
R234). -/
def startEntry (bs : List Byte) (cn : Nat) : Option (Option Nat) :=
  let e := BitVec.ofNat 64 (fieldAt bs (8 * cn) 8)
  if !e.getLsbD 63 then none
  else if bits e 20 43 != 0 || decide (Config.tiles ≤ (bits e 0 20).toNat / 4) then some none
  else some (some (bits e 0 20).toNat)

/-- A loaded racking table may be used: its digest is the same on every device that announced one, and every device of the map
`m` has announced one (15_light.md R337). -/
def State.rackAgreed (s : State) (t : Rack) (m : BitVec 32) : Bool :=
  !t.rows.isEmpty && t.peers.all (fun e => e.2 == t.digest) &&
  (List.range 32).all fun d => !m.getLsbD d || d == s.devIndex || t.peers.any fun e => e.1 == d

/-- The racking table of a last is loaded for exactly the lane sets of its partition, and may be used by its gang (15_light.md
R337). -/
def State.rackUsable (s : State) (p : Nat) (l : Last) : Bool :=
  if l.rackId = 0 then true
  else
    let t := Table.get {} s.racks (rackKey p l.rackId)
    t.mask == (s.part p).laneSets && s.rackAgreed t (if l.gang then l.bitmap else 0)

/-- A lane set of the partition is retired, or a gang device lies on a path that is down (16_faults.md R378). -/
def State.lightDown (s : State) (p : Nat) (l : Last) : Bool :=
  let m := (s.part p).laneSets
  (List.range 64).any (fun i => m.getLsbD (i % 16) && (s.lane i).line == 3 && decide (i % 16 < 14)) ||
  (m != 0 && l.gang && (List.range 4).any fun q => (List.range 32).any fun d =>
    l.bitmap.getLsbD d && d != s.devIndex && !s.caps.paths.getLsbD (32 * q + d))

/-- BAD_CHANNEL, Table 1.2; `low` gives the scratch limit of each core, against which the cask's rings are held in its own core
(15_light.md R348). -/
def State.badChannel (s : State) (p : Nat) (l : Last) (scripts : Nat) (low : Nat → Nat) : Bool :=
  let pt := s.part p
  let script := match s.readVirt p 3 scripts 6144 with
    | none => true
    | some bs => (allotment l.channels).any fun cn => startEntry bs cn == some none
  let ranks := if l.gang then popCount 32 l.bitmap.toNat else 1
  let cask := match pt.cask with
    | none => true
    | some k => !(coresOf l.coreGroups).contains k.core || decide (low k.core < k.base + 128 * k.n * ranks)
  (l.channels != 0 && script) || l.channels &&& ~~~ (pt.parityGroups &&& s.caps.parityGroups) != 0 || !s.rackUsable p l ||
  (pt.laneSets != 0 && (cask || (pt.confidential && pt.tdi != .run))) || s.lightDown p l

/-- BAD_WINDOW, Table 1.3. -/
def State.badWindow (s : State) (p low : Nat) (bs : List Byte) : Bool :=
  (List.range 8).any fun i =>
    let b := bindingOf ((bs.drop (0x80 + 16 * i)).take 16)
    b.bound && (b.bad || b.n == 0 || decide (4096 < b.n) ||
      if b.pool then decide (Config.poolBytes < b.src + b.n * b.esz)
      else b.land_ % 8 != 0 || decide (low < b.land_ + b.n * b.esz) || (s.readVirt p 9 b.src (b.n * b.esz)).isNone)

/-- BAD_GANG, Table 1.1. -/
def State.badGang (s : State) (l : Last) (q : Nat) : Bool :=
  let g := popCount 32 l.bitmap.toNat
  let ranks := l.rankMap.take g
  l.gang && (!l.bitmap.getLsbD s.devIndex || decide (g < 2) || (0 < q && decide (q < 1024)) ||
    ranks.any (fun k => decide (32 ≤ k) || !l.bitmap.getLsbD k) || !decide ranks.Nodup || (l.rankMap.drop g).any (· != 0xFF))

/-- The cores of the set belong to a run, armed or live; those of a pre-empted run of the partition can be given away. -/
def State.coresBusy (s : State) (p : Nat) (l : Last) : Bool := (coresOf l.coreGroups).any fun c =>
  (s.core c).run.any fun r => !((s.run r).preempted && (s.run r).part == p)

/-- Every status that a failing check gives, Table 1.2: for the last of 256 bytes that the queue of partition `p` takes. -/
def State.statuses (s : State) (p addr : Nat) (bs : List Byte) : List Nat :=
  let f := fieldAt bs
  let l := lastOf addr bs
  let pt := s.part p
  let cores := coresOf l.coreGroups
  let ts := s.tables p (f 0x20 8) cores
  let low := lowScratch (ts.filterMap id)
  let y := l.yieldGap
  let wid := (List.range 6).map fun i => f (0x44 + 2 * i) 2
  let on := fun (b : Bool) (n : Nat) => if b then [n] else []
  on (f 0 2 != 1 || f 3 1 / 2 != 0 || f 4 2 / 4 != 0 || f 0x78 8 != 0 || (0 < y && decide (y < 1000)) || decide (2200000 < y)) 1 ++
  on (f 2 1 != p || (pt.confidential && pt.tdi != .run)) 2 ++
  on (l.coreGroups == 0 || l.coreGroups &&& ~~~ (pt.coreGroups &&& s.caps.coreGroups) != 0) 3 ++
  on (f 0x20 8 % 1024 != 0 || ts.any (·.isNone) ||
      (l.recovery && (!cores.contains l.recCore || l.recBudget == 0 || f 0x2F 1 != 0))) 4 ++
  on (wid.any (fun w => decide (32 < w % 64) || w / 512 != 0) || decide (64 < (wid.map (· % 64)).sum)) 5 ++
  on (s.badWindow p low bs) 6 ++ on (s.badChannel p l (f 0x38 8) fun c => lowScratch ((ts.getD (cores.idxOf c) none).toList)) 7 ++
  on (s.badGang l (f 6 2)) 8 ++
  on (decide (l.t0 < s.tick + 512)) 9 ++ on (s.coresBusy p l) 10

/-! ## Arming -/

/-- The pools, tags and stream buffers of the cores are cleared, 09_pool.md R209. -/
def State.clearPools (s : State) (cs : List Nat) : State :=
  { s with pool := s.pool.filter fun e => !cs.contains (e.1 / 2097152), tags := s.tags.filter fun e => !cs.contains (e.1 / 1536) }

/-- A window's contents go to every core's pool, R14. -/
def State.loadWindow (s : State) (p : Nat) (cs : List Nat) (b : Binding) : State :=
  if !b.bound || b.pool then s
  else match s.readVirt p 9 b.src (b.n * b.esz) with
    | some bs => cs.foldl (fun s c => { s with pool := s.pool.write (poolKey c b.land_) (someBytes bs) }) s
    | none => s

/-- The 512 bytes of a script block, 10_channels.md R234. -/
def State.blockBytes (s : State) (cn index : Nat) : List Byte :=
  (List.range 16).flatMap fun i => s.burst (tileBurst cn (index / 4) (16 * (index % 4) + i))
/-- Bursts of a script block. -/
def blockBursts (cn index : Nat) : List Nat := (List.range 16).map fun i => tileBurst cn (index / 4) (16 * (index % 4) + i)

/-- A channel of the allotment, with its first block (R234; 10_channels.md R244, R247, R252, R257). -/
def State.armChan (s : State) (r cn : Nat) (e : Option (Option Nat)) : State :=
  let s := match e with
    | some (some i) => (blockBursts cn i).foldl State.readUe s
    | _ => s
  let c : Chan := { run := some r }
  let lost := Table.get 0 s.caps.stackSt (cn / 64) != 0
  let c := match e with
    | some (some i) => if lost then c else { c with script := .running, cur := blockOf i (s.blockBytes cn i), ix := 0 }
    | _ => c
  { s with chans := Table.put s.chans cn c }

/-- The last's racking table for the partition's lane sets, effective from T0 (15_light.md R339). -/
def State.installRack (s : State) (p : Nat) (l : Last) : State :=
  let rack := if l.rackId = 0 then none else some (Table.get {} s.racks (rackKey p l.rackId))
  let file := fun (m : Table (List (Nat × Option Rack))) q => Table.put m q ((ceilDiv l.t0 80, rack) :: Table.get [] m q)
  (List.range 14).foldl (fun s j =>
    if (s.part p).laneSets.getLsbD j then s.modLaneSet j fun t => { t with tables := (List.range 4).foldl file t.tables } else s) s

/-- The firmware gives the cores and channels of a pre-empted run to another context: it saves what 16_faults.md Table 16.6
names (R375). -/
def State.saveContext (s : State) (r : Nat) : State :=
  let ru := s.run r
  if !ru.preempted || ru.context.isSome then s
  else
    let cs := ru.cores
    let x : Context := { cores := cs.map fun c => (c, s.core c), pool := ofCores 2097152 cs s.pool, tags := ofCores 1536 cs s.tags,
                         imem := ofCores 32768 cs s.imem, deltas := s.deltas.filter fun e => ru.last.channels.getLsbD e.1,
                         pend := s.pend.filter fun w => w.clk.ofAny cs, wrote := s.wrote.filter fun e => cs.contains e.1.core }
    let s := { s with deltas := s.deltas.filter fun e => !ru.last.channels.getLsbD e.1
                      pend := s.pend.filter fun w => !w.clk.ofAny cs
                      wrote := s.wrote.filter fun e => !cs.contains e.1.core }
    let mine := ru.chans.filter fun cn => (s.chan cn).run == some r
    let s := s.modRun r fun u => { u with context := some x, contextChans := mine.map fun cn => (cn, s.chan cn) }
    let s := mine.foldl (fun s cn => s.modChan cn fun c => { c with run := none, script := .none_ }) s
    cs.foldl (fun s c => s.modCore c fun _ => {}) s

/-- The pre-empted runs of partition `p` that hold a core or a channel of the last are saved. -/
def State.giveWay (s : State) (p : Nat) (l : Last) : State :=
  let cs := coresOf l.coreGroups
  s.runs.foldl (fun s e =>
    if e.2.part == p && (e.2.cores.any cs.contains || e.2.last.channels &&& l.channels != 0) then s.saveContext e.1 else s) s

/-- The rank of this device in a gang, R10. -/
def State.gangRank (s : State) (l : Last) : Nat := if l.gang then l.rankMap.idxOf s.devIndex else 0

/-- The controller's reads of partition-virtual memory mark the bursts that the stack reports as uncorrectable (10_channels.md R252). -/
def State.virtUe (s : State) (p : Nat) : Nat → Nat → Nat → State
  | 0, _, _ => s
  | f + 1, va, n =>
    if n = 0 then s
    else
      let m := min n (4096 - va % 4096)
      (match s.translate hostUnit p va 3 with
        | .ok h => s.homeUe h m
        | .error _ => s).virtUe p f (va + m) (n - m)

/-- What the controller reads of a last of partition `p` beside its 256 bytes: task tables, script start table and window contents. -/
def State.lastReads (s : State) (p : Nat) (l : Last) (bs : List Byte) : State :=
  let s := s.virtUe p 129 (fieldAt bs 0x20 8) (1024 * (coresOf l.coreGroups).length)
  let s := if l.channels = 0 then s else s.virtUe p 3 (fieldAt bs 0x38 8) 6144
  (List.range 8).foldl (fun s i =>
    let b := bindingOf ((bs.drop (0x80 + 16 * i)).take 16)
    if !b.bound || b.pool then s else s.virtUe p 9 b.src (b.n * b.esz)) s

/-- Arms a last that has passed every check: pools, windows, task tables, preloaded translations, scripts, racking table,
and the arm messages of a gang (01_machine.md R13 to R16, R26; 18_prog_rings.md R390). -/
def State.arm (s : State) (v p : Nat) (tag : X) (addr : Nat) (bs : List Byte) : State :=
  let l := lastOf addr bs
  let s := s.giveWay p l
  let cs := coresOf l.coreGroups
  let r := s.nextRun
  let ts := (s.tables p (fieldAt bs 0x20 8) cs).map (·.getD [])
  let run : Run := { st := .armed, part := p, vf := v, tag := tag, last := l, cores := cs, rank := s.gangRank l, tb := l.t0 }
  let starts := (s.readVirt p 3 (fieldAt bs 0x38 8) 6144).getD []
  let s := { s.clearPools cs with nextRun := r + 1, runs := Table.put s.runs r run }
  let s := (List.range 8).foldl (fun s i => s.loadWindow p cs (bindingOf ((bs.drop (0x80 + 16 * i)).take 16))) s
  let s := (cs.zip ts).foldl (fun s e => s.modCore e.1 fun k =>
    { k with run := some r, tasks := e.2, seq := .off, trap := {}, faulted := none, inTask := false, inRecov := false, streams := [],
             mask := 0xF, elastic := false, gate := none }) s
  let s := (List.range 13).foldl (fun s u => (s.part p).preload.foldl (fun s va =>
    if (s.cached u p va).isSome then s else s.fillTlb u p va) s) s
  let s := (allotment l.channels).foldl (fun s cn => s.armChan r cn (startEntry starts cn)) s
  let s := s.installRack p l
  (s.gangPeers run).foldl (fun s d => s.wire d (.arm p s.devIndex l.t0)) s

/-! ## The queue -/

/-- The partition bound to a virtual function, 19_host.md R403. -/
def State.vfPart (s : State) (v : Nat) : Option Nat := (s.parts.find? fun e => e.2.made && e.2.vf == some v).map (·.1)

/-- The ticks by which the controller takes the entries that LQ_TAIL covers, each within 4,096 of its covering (19_host.md
R401): one more for each entry covered since, none for entries uncovered. -/
def State.schedule (s : State) (v : Nat) : State :=
  let q := s.vf v
  let n := (q.lqTail - q.lqHead).toNat
  let f := s.nonce
  let more := (List.range (n - q.dues.length)).map fun i => s.tick + 1 + Config.freeNat (f + i) % 4096
  { s with nonce := f + more.length }.modVf v fun q => { q with dues := (q.dues ++ more).take n }

/-- Posts a launch entry, 19_host.md R402. -/
def State.launchEntry (s : State) (v : Nat) (tag : X) (status : Nat) : State :=
  s.post v (cqEntry tag 0 status 0 0 0 0 s.tick)

/-- The entry that the controller takes: last address, tag, and whether a LAUNCH put it. -/
def Vf.entry (q : Vf) (slot : Nat) : Nat × X × Bool := (Table.get none q.entries (slot % 2 ^ q.n)).getD (0, 0, false)

/-- LAST_TAKEN: the controller takes the next entry and validates its last; an accepted one is armed, or found late when
arming cannot be complete by T0 − 512 (01_machine.md R11, R13; 19_host.md R401, R402). -/
def execLastTaken (s : State) : Out :=
  let v := s.ctx.vf
  let q := s.vf v
  if q.lqHead == q.lqTail || !q.room || !q.waiting.isEmpty then ok s
  else
    let (addr, tag, _) := q.entry q.lqHead.toNat
    let s := s.modVf v fun q => { q with lqHead := q.lqHead + 1, dues := q.dues.drop 1 }
    let s := if (s.vf v).dues.head?.any (fun t => decide (t ≤ s.tick)) then
        { s with todo := { ctx := { vf := v }, instr := .lastTaken } :: s.todo } else s
    match s.vfPart v with
    | none => ok (s.launchEntry v tag 2)
    | some p =>
      match (if addr % 64 = 0 then s.readVirt p 2 addr 256 else none) with
      | none => ok (s.launchEntry v tag 1)
      | some bs =>
        let l := lastOf addr bs
        let s := (s.virtUe p 2 addr 256).lastReads p l bs
        match s.statuses p addr bs with
        | [] =>
          let (n, s) := s.draw
          if l.t0 < s.tick + Config.freeNat n + 512 then
            ok (s.atTick (max s.tick (l.t0 - 512)) { ctx := { vf := v, req := tag.toNat, part := p }, instr := .armDeadline })
          else ok ((s.arm v p tag addr bs).launchEntry v tag 0)
        | e :: es => ok (s.launchEntry v tag (es.foldl min e))

/-- ARM_DEADLINE: arming is not complete by T0 − 512: LATE, and nothing is armed (01_machine.md R13). -/
def execArmDeadline (s : State) : Out :=
  ok (s.launchEntry s.ctx.vf (BitVec.ofNat 64 s.ctx.req) 9)

/-- LQ_TAIL_WRITE, of a function that boot has enabled (R407): a tail more than 2^n ahead of the head is ignored,
with an error event (19_host.md Table 19.2). -/
def execLqTailWrite (vf : Nat) (v : BitVec 32) (s : State) : Out :=
  let q := s.vf vf
  let t := bits v 0 16
  if s.boot != .up then ok s
  else if 2 ^ q.n < (t - q.lqHead).toNat then ok (s.errorEvent vf)
  else ok ((s.modVf vf fun q => { q with lqTail := t }).schedule vf)

/-- Entries that waited for room in the completion ring are posted while it lasts, 19_host.md R402. -/
def State.drainCq (s : State) (vf : Nat) : Nat → State
  | 0 => s
  | n + 1 =>
    let q := s.vf vf
    match q.waiting with
    | e :: r => if q.room then ((s.modVf vf fun q => { q with waiting := r }).writeCq vf e).drainCq vf n else s
    | [] => s

/-- CQ_HEAD_WRITE: the host has consumed entries; those that waited are posted (19_host.md R402). -/
def execCqHeadWrite (vf : Nat) (v : BitVec 32) (s : State) : Out :=
  if s.boot != .up then ok s
  else
    let s := s.modVf vf fun q => { q with cqHead := v }
    ok (s.drainCq vf (s.vf vf).waiting.length)

/-- HOST_REGISTER_WRITE: the other registers of Table 19.2; submission entries lie from offset 0x10000 on, 16 bytes each
(log entry 10). Read-only registers ignore it, as do the reserved bits of one that has some (00_scope.md R6). A virtual function has
them once boot has enabled it (R407); function 0 stands for PF0, which has an event ring only (log entry 39). -/
def execHostRegisterWrite (vf off : Nat) (v : BitVec 64) (s : State) : Out :=
  let aligned := v.toNat % 4096 == 0
  if s.boot != .up || (vf == 0 && off != 0x020) then ok s
  else match off with
  | 0x008 =>
    let n := (bits v 0 5).toNat
    ok (if 4 ≤ n ∧ n ≤ 12 then s.modVf vf fun q => { q with n := n } else s)
  | 0x018 => ok (if aligned then s.modVf vf fun q => { q with cqBase := v } else s)
  | 0x020 => ok (if aligned then s.modVf vf fun q => { q with evBase := v } else s)
  | _ =>
    if 0x10000 ≤ off ∧ off < 0x20000 ∧ off % 8 = 0 then
      let i := (off - 0x10000) / 16
      let (a, t, _) := (Table.get none (s.vf vf).entries i).getD (0, 0, false)
      let e := if off % 16 = 0 then (v.toNat, t, false) else (a, v, false)
      ok (s.modVf vf fun q => { q with entries := Table.put q.entries i (some e) })
    else ok s

/-! ## LAUNCH, 04_cycles.md R128 -/

/-- LAUNCH: the queue answers in one of the 4,096 cycles after the stall, or the core gives up. -/
def execLaunch (xd xa : XReg) (s : State) : Out :=
  let (n, s) := s.draw
  let d := Config.freeNat n % 4097
  let s := s.hold .launch (some xd) none
  ok (s.at s.ctx.core (s.me.cyc + s.ctx.stall + d)
    { ctx := { core := s.ctx.core, req := (s.xr xa).toNat, idx := if d = 4096 then 1 else 0 }, instr := .launchAnswer })

/-- The waiting LAUNCH of core `c` has its answer. -/
def State.launchStatus (s : State) (c : Nat) (st : Nat) : State :=
  s.modCore c fun k => { k with waits := k.waits.map fun w => if w.what == .launch then { w with ans := some (BitVec.ofNat 64 st) } else w }

/-- The first cycle at which the bundle after the waiting LAUNCH may issue, c0 + 1 + k. -/
def Core.launchBase (k : Core) : Nat := ((k.waits.find? (·.what == .launch)).map (·.base)).getD 0

/-- LAUNCH_ANSWER: the queue's answer, or the end of the wait (context index 1), which comes too when the partition has no
function. A bad address is answered before a full queue
(R128 names no order between the two; DESIGN CHOICE, log 11). -/
def execLaunchAnswer (s : State) : Out :=
  let c := s.ctx.core
  let p := s.partOf c
  let a := s.ctx.req
  match (s.part p).vf, s.ctx.idx with
  | some v, 0 =>
    if a % 64 != 0 || (s.readVirt p 2 a 256).isNone then ok (s.launchStatus c 2)
    else
      let q := s.vf v
      if 2 ^ q.n ≤ (q.lqTail - q.lqHead).toNat then ok (s.launchStatus c 1)
      else
        let e := (a, BitVec.ofNat 64 c, true)
        let s := s.modVf v fun q => { q with entries := Table.put q.entries (q.lqTail.toNat % 2 ^ q.n) (some e), lqTail := q.lqTail + 1 }
        ok ((s.schedule v).launchStatus c 0)
  | none, 0 => ok (s.at c (s.me.launchBase + 4095) { ctx := { s.ctx with idx := 1 }, instr := .launchAnswer })
  | _, _ => ok (s.launchStatus c 3)

end Sys2Proof.Machine
end

