-- ==== Sys2Proof/Machine/Host.lean ====
section
/-! DEFINITION. The device controller (19_host.md): partitions and management requests, page counters, migration and
checkpoint (10_channels.md R267 to R269), memory keys, TDISP, boot, attestation and sessions. -/

namespace Sys2Proof.Machine

/-! ## Requests, R405 -/

/-- The partition has a run that has not ended. -/
def State.liveRun (s : State) (p : Nat) : Bool := s.runs.any fun e => e.2.part == p && e.2.st != .ended

/-- The function is the virtual function that the partition is bound to. -/
def State.owns (s : State) (fn : Fn) (p : Nat) : Bool :=
  (s.part p).made && match fn with
    | .pf0 => false
    | .vf v => (s.part p).vf == some v

/-- The configuration of a confidential partition is frozen, R405. -/
def Part.frozen (p : Part) : Bool := p.confidential && (p.tdi == .locked || p.tdi == .run)

/-- Requests 0x10 to 0x12 and 0x15 need CONFIG_UNLOCKED of a confidential partition, Table 19.4. -/
def Part.open' (p : Part) : Bool := !p.confidential || p.tdi == .unlocked

/-- A request of an owner: refused, or done with its effect. -/
def State.owned (s : State) (fn : Fn) (p : Nat) (bad : Bool) (go : State → State) : State :=
  if !s.owns fn p then s.answer fn .notOwner []
  else if bad then s.answer fn .refused []
  else (go s).answer fn .done []

/-! ## Partitions -/

/-- Words of handlers 0 to 3 at creation, 12_order.md Table 12.7. -/
def handlersAtCreation : Table W32 :=
  [(0, 0x0C000000), (1, 0x10000000), (2, 0xF3000000),
   (32, 0x0C000000), (33, 0x23000000), (34, 0x10000000), (35, 0xF3000000),
   (64, 0x0C000000), (65, 0xB3400000), (66, 0xC0000001), (67, 0x10000000), (68, 0xF3000000),
   (96, 0x0C000000), (97, 0x83000000), (98, 0x10000000), (99, 0xF3000000)]

/-- The tiles of the partition's channels in the parity groups `g` are allotted: each is first sealed at version 0, its bytes zero,
under the partition's CURRENT key (10_channels.md R256; that the bytes are zero is a DESIGN CHOICE, log entry 44). None is allotted in
a retired row (16_faults.md R377). -/
def State.sealAllotted (s : State) (p : Nat) (g : BitVec 64) : State :=
  let q := s.part p
  (allotment g).foldl (fun s cn => (List.range Config.tiles).foldl (fun s t =>
    let f := cn * 2 ^ 18 + t
    if sealable f && !s.retiredRow cn (t / 4) then s.putSealed f 0 (2 * p + q.current.toNat) ((if q.current then q.key1 else q.key0).getD 0) (List.replicate 4096 0)
    else s) s) s

/-- Forgets a partition: its tables and loaded racking tables, its translations, and what was still to come of a rotation (R403,
R409). -/
def State.dropPart (s : State) (p : Nat) : State :=
  { (s.flushTlbs p).modPart p (fun _ => {}) with
    racks := s.racks.filter fun e => e.1 / 2 ^ 32 != p
    agenda := s.agenda.filter fun (d : Due) =>
      !((d.work.instr == Instr.keyRotationCommit || d.work.instr == Instr.resealScan) && d.work.ctx.part == p) }

/-- A group or lane set of the request belongs to another partition, R403. -/
def State.taken (s : State) (p : Nat) (q : PartSpec) : Bool :=
  s.parts.any fun e => e.1 != p && e.2.made && (e.2.coreGroups &&& q.coreGroups != 0 || e.2.parityGroups &&& q.parityGroups != 0 ||
    e.2.laneSets &&& q.laneSets != 0)

/-- PARTITION_CREATE_DELETE, request 0x01 (R403, R405, R409). -/
def execPartitionCreateDelete (fn : Fn) (part : Nat) (q : PartSpec) (s : State) : Out :=
  let p := s.part part
  if fn != .pf0 then ok (s.answer fn .notOwner [])
  else if s.boot != .up || Config.partitions ≤ part || s.liveRun part || p.frozen || (!q.create && !p.made) ||
      (q.create && (s.taken part q || (p.made && p.confidential != q.confidential))) then ok (s.answer fn .refused [])
  else if !q.create then ok ((s.dropPart part).answer fn .done [])
  else if p.made then
    let s := s.modPart part fun p => { p with coreGroups := q.coreGroups, parityGroups := q.parityGroups, laneSets := q.laneSets }
    ok ((s.sealAllotted part (q.parityGroups &&& ~~~ p.parityGroups)).answer fn .done [])
  else
    let (n, s) := s.draw
    let p : Part := { made := true, coreGroups := q.coreGroups, parityGroups := q.parityGroups, laneSets := q.laneSets,
                      confidential := q.confidential, key0 := some (Config.drbgKey n), handlers := handlersAtCreation }
    ok (((s.modPart part fun _ => p).sealAllotted part q.parityGroups).answer fn .done [])

/-- VF_BIND, request 0x02: a partition is bound to at most one function at a time (R403). -/
def execVfBind (fn : Fn) (vf : Nat) (part : Option Nat) (s : State) : Out :=
  if fn != .pf0 then ok (s.answer fn .notOwner [])
  else if vf < 1 || Config.vfs < vf then ok (s.answer fn .refused [])
  else
    let old := s.vfPart vf
    match part with
    | none =>
      match old with
      | none => ok (s.answer fn .done [])
      | some o => if (s.part o).frozen then ok (s.answer fn .refused [])
                  else ok ((s.modPart o fun p => { p with vf := none }).answer fn .done [])
    | some p =>
      let q := s.part p
      if !q.made || q.frozen || (q.vf.isSome && q.vf != some vf) || (old.isSome && old != some p) then ok (s.answer fn .refused [])
      else ok ((s.modPart p fun q => { q with vf := some vf }).answer fn .done [])

/-- SET_PAGE_TABLE_ROOT, request 0x10. -/
def execSetPageTableRoot (fn : Fn) (part root : Nat) (preload : List Nat) (s : State) : Out :=
  ok (s.owned fn part (!(s.part part).open') fun s =>
    (s.modPart part fun p => { p with root := some root, preload := preload }).flushTlbs part)

/-- LOAD_HANDLER_TABLE, request 0x11. -/
def execLoadHandlerTable (fn : Fn) (part : Nat) (words : List (BitVec 32)) (s : State) : Out :=
  ok (s.owned fn part (!(s.part part).open' || words.length != 1024) fun s =>
    s.modPart part fun p => { p with handlers := words.zipIdx.map fun e => (e.2, e.1) })

/-- The rows of a racking image, 15_light.md Table 15.3. -/
def rackRows (bs : List Byte) : List (List Nat) := (chunks 64 (bs.getD 2 0).toNat (bs.drop 0x40)).map fun r => r.map BitVec.toNat

/-- A row that a check of Table 15.3 refuses. -/
def badRow (d : Nat) (mask : Nat) (r : List Nat) : Bool :=
  r.length != 64 ||
  (List.range 64).any (fun i => let k := r.getD i 0
    decide (d ≤ k) || (k != 0 && (decide (14 ≤ i % 16) || !mask.testBit (i % 16)))) ||
  (List.range 4).any fun p => !decide (((r.drop (16 * p)).take 16).filter (· != 0)).Nodup

/-- A racking image that a check of Table 15.3 refuses for lane sets `own`. -/
def badRack (own : Nat) (bs : List Byte) : Bool :=
  let rows := (bs.getD 2 0).toNat
  let d := (bs.getD 3 0).toNat
  let mask := ofLe ((bs.drop 8).take 8)
  ofLe (bs.take 2) != 1 || rows == 0 || decide (64 < rows) || decide (d < 2) || decide (32 < d) || ofLe ((bs.drop 4).take 4) == 0 ||
  decide (2 ^ 14 ≤ mask) || (List.range 14).any (fun j => mask.testBit j && !own.testBit j) || ((bs.drop 16).take 48).any (· != 0) ||
  bs.length != 64 + 64 * rows || (rackRows bs).any (badRow d mask)

/-- Files a racking table and tells its digest to the other devices of the pod, 15_light.md R337. -/
def State.fileRack (s : State) (part : Nat) (bs : List Byte) : State :=
  let id := ofLe ((bs.drop 4).take 4)
  let g := Config.shake256 bs 64
  let old := Table.get {} s.racks (rackKey part id)
  let t : Rack := { d := (bs.getD 3 0).toNat, rows := rackRows bs, mask := BitVec.ofNat 14 (ofLe ((bs.drop 8).take 8)), digest := g,
                    peers := old.peers }
  let s := { s with racks := Table.put s.racks (rackKey part id) t }
  ((List.range s.podSize).filter (· != s.devIndex)).foldl (fun s d => s.wire d (.rackDigest part s.devIndex id g)) s

/-- LOAD_RACKING_TABLE, request 0x12: a racking table, a cask, or both (15_light.md R337, R348). -/
def execLoadRackingTable (fn : Fn) (part : Nat) (image : List Byte) (cask : Option CaskSpec) (s : State) : Out :=
  let p := s.part part
  let badCask := cask.any fun k => decide (512 ≤ k.core) || k.base % 128 != 0 || k.n == 0 || decide (256 < k.n)
  ok (s.owned fn part (!p.open' || badCask || (!image.isEmpty && badRack p.laneSets.toNat image)) fun s =>
    let s := if image.isEmpty then s else s.fileRack part image
    if cask.isSome then s.modPart part fun p => { p with cask := cask } else s)

/-- RECONFIGURE_PLANE, request 0x13 (15_light.md R355): the dark interval starts at slot X and lasts as long as the request says, or
else as the plane's settle time; the relock after it ends at a tick of its own within 64 slots (18_prog_rings.md R391, R393). The
table is one whose digest every device of the new reach map shares (R337). -/
def execReconfigurePlane (fn : Fn) (part plane : Nat) (dark : Nat × Option Nat) (table : Nat) (reach : BitVec 32) (s : State) : Out :=
  let slot := dark.1
  let t := Table.get {} s.racks (rackKey part table)
  let bad := decide (4 ≤ plane) || !Config.circuitPlane plane || decide (slot ≤ s.tick / 80) ||
    (table != 0 && (t.mask &&& ~~~ (s.part part).laneSets != 0 || !s.rackAgreed t (reach &&& BitVec.ofNat 32 (2 ^ s.podSize - 1))))
  if s.owns fn part && !bad && (Table.get {} s.planes plane).start.isSome then ok (s.answer fn .busy [])
  else ok (s.owned fn part bad fun s =>
    let (n, s) := s.draw
    let q : Plane := { start := some slot, dark := dark.2.getD (Config.darkSlots plane), relock := Config.freeNat n % 5121,
                       table := if table = 0 then none else some t, reach := reach, part := part }
    { s with planes := Table.put s.planes plane q }.atTick (80 * slot) { ctx := { plane := plane }, instr := .reconfigDarkStart })

/-- SET_LIMITS, request 0x14: FENCE_LIMIT and the QSEND threshold lie in their ranges (15_light.md R350); power level and votes
need no live run, and are items of the measurement (12_order.md R289; 14_time_power.md R327; Table 19.4). -/
def execSetLimits (fn : Fn) (part : Nat) (l : Limits) (s : State) : Out :=
  let p := s.part part
  let power := l.expert.isSome || l.votes.isSome
  let bad := l.fenceLimit.any (fun n => decide (n < 11000) || decide (1100000 < n)) || (power && (s.liveRun part || p.frozen)) ||
    l.qsendThreshold.any (fun n => decide (n < 128) || decide (4096 < n)) || l.votes.any fun v => v.length != 4 || v.any fun x => decide (7 < x)
  ok (s.owned fn part bad fun s => s.modPart part fun p =>
    { p with fenceLimit := l.fenceLimit.getD p.fenceLimit, qsendThreshold := l.qsendThreshold.getD p.qsendThreshold,
             counterThreshold := l.counterThreshold.getD p.counterThreshold, expert := l.expert.getD p.expert,
             votes := l.votes.getD p.votes })

/-- WRITE_MULTICAST_GROUP, request 0x15 (12_order.md R301). -/
def execWriteMulticastGroup (fn : Fn) (part g : Nat) (bitmap : BitVec 32) (core commit : Nat) (s : State) : Out :=
  let p := s.part part
  let (c, _, new) := Table.get (0, 0, 0) p.mcast g
  let bad := !p.open' || decide (64 ≤ g) || decide (512 ≤ core)
  if s.owns fn part && !bad && decide (s.tick ≤ c) && c != 0 then ok (s.answer fn .busy [])
  else ok (s.owned fn part bad fun s => s.modPart part fun p =>
    { p with mcast := Table.put p.mcast g (max commit s.tick, new, BitVec.ofNat 9 core ++ bitmap) })

/-! ## Pages and checkpoints, 10_channels.md R267 to R269 -/

/-- The blocks that a block's FETCH commands name. -/
def Block.fetches (b : Block) : List Nat :=
  ((List.range b.count).filterMap fun i => decodeCmd (b.word (i + 1))).filterMap fun c => match c with
    | .fetch bk r col => some (fetchIndex bk r col)
    | _ => none

/-- A script names the page of rows 4m to 4m + 3: in the blocks in hand, or in one that their FETCHes lead to, each looked at once. The
number bounds the blocks looked at. -/
def State.namesPage (s : State) (cn m : Nat) : Nat → List Nat → List Block → Bool
  | 0, _, _ => false
  | _ + 1, _, [] => false
  | f + 1, seen, b :: l =>
    let new := b.fetches.eraseDups.filter (!seen.contains ·)
    b.pages.contains m || s.namesPage cn m f (new ++ seen) (l ++ new.map fun i => blockOf i (s.blockBytes cn i))

/-- A page named in a script of a live run is pinned, in the blocks that have run as in those to come, R268. -/
def State.pinned (s : State) (cn m : Nat) : Bool :=
  let c := s.chan cn
  c.run.isSome && (c.named.contains m || s.namesPage cn m (2 ^ 25) [] (c.cur :: c.next.toList))

/-- The leaf entry that maps an address, with its pages and its place (R279). -/
def State.leafOf (s : State) (p va : Nat) : Option (BitVec 64 × Nat × Home) :=
  let w := s.walkOf p va
  match w.2, w.1.getLast? with
  | .ok (e, n), some h => some (e, n, { h with off := 8 * (va / 2 ^ (12 + 9 * (4 - w.1.length)) % 512 / (if n = 16 then 16 else 1) *
      (if n = 16 then 16 else 1)) })
  | _, _ => none

/-- An entry with another frame: HOST, device and frame fields (Table 12.2). -/
def withFrame (e : BitVec 64) (host : Bool) (dev frame : Nat) : BitVec 64 :=
  (e &&& 0xFFF) ||| BitVec.ofNat 64 (frame * 2 ^ 12 + (if host then 2 ^ 60 else dev * 2 ^ 55))

/-- A request of an owner that a copy engine carries out: its answer follows at the end. -/
def State.ownedMove (s : State) (fn : Fn) (p : Nat) (bad : Bool) (go : State → State) : State :=
  if !s.owns fn p then s.answer fn .notOwner []
  else if bad then s.answer fn .refused []
  else go s

/-- The partition is in steps 2 to 4 of a rotation (R410). -/
def Part.resealing (p : Part) : Bool := p.rotating.any fun e => e == p.current

/-- PAGE_COUNTERS_MIGRATE, request 0x20. -/
def execPageCountersMigrate (fn : Fn) (part : Nat) (r : PageReq) (s : State) : Out :=
  let p := s.part part
  let mine := fun cn page => decide (cn < 768) && decide (page < 12192) && p.parityGroups.getLsbD (cn % 64)
  let shut := p.confidential && p.tdi != .run
  match r with
  | .read cn page =>
    if s.owns fn part && mine cn page then ok (s.answer fn .done (leBytes 2 (Table.get 0 s.counters (cn * 12192 + page))))
    else ok (s.owned fn part true id)
  | .clear cn page =>
    ok (s.owned fn part (!mine cn page) fun s => { s with counters := Table.put s.counters (cn * 12192 + page) 0 })
  | .toHost va host =>
    if s.owns fn part && p.resealing then ok (s.answer fn .busy [])
    else match s.leafOf part va with
      | some (e, n, at_) =>
        let f := pteFrame e
        let bad := shut || pteHost e || pteDev e != s.devIndex || !(n = 1 || n = 16) || host % 4096 != 0 ||
          s.pinned (f / 2 ^ 18) (f % 2 ^ 18 / 16)
        ok (s.ownedMove fn part bad fun s => s.startMove part
          { fn := fn, out := true, first := f, count := n, host := host, leaf := some (at_, withFrame e true 0 (host / 4096)) })
      | none => ok (s.owned fn part true id)
  | .toHbm va tile =>
    if s.owns fn part && p.resealing then ok (s.answer fn .busy [])
    else match s.leafOf part va with
      | some (e, n, at_) =>
        let bad := shut || !pteHost e || !(n = 1 || n = 16) || !s.frameOk part tile n || s.pinned (tile / 2 ^ 18) (tile % 2 ^ 18 / 16)
        ok (s.ownedMove fn part bad fun s => s.startMove part
          { fn := fn, out := false, first := tile, count := n, host := 4096 * pteFrame e, leaf := some (at_, withFrame e false s.devIndex tile) })
      | none => ok (s.owned fn part true id)

/-- Host address of the pools in a checkpoint, from its start: behind the tiles with their records (log entry 20). -/
def poolSlot : Nat := 768 * 2 ^ 18 * 4128

/-- Bytes of a list of cells at other addresses. -/
def moveCells (f : Nat → Option Nat) (m into : Memory) : Memory :=
  m.foldl (fun a e => match f e.1 with
    | some k => a.write k [some e.2]
    | none => a) into

/-- An address of host memory in the copy, at `base`, of the pools of the cores `mine`. -/
def inPools (base : Nat) (mine : Nat → Bool) (a : Nat) : Bool :=
  decide (base ≤ a) && (let o := a - base
    decide (o / 2097152 < 512) && mine (o / 2097152) && decide (o % 2097152 < Config.poolBytes))
/-- Host memory with a copy of pools at `base`. -/
def poolsOut (base : Nat) (mine : Nat → Bool) (pool host : Memory) : Memory :=
  moveCells (fun k => if mine (k / 2097152) then some (base + k) else none) pool (host.filter fun e => !inPools base mine e.1)
/-- Pools restored from their copy at `base`. -/
def poolsIn (base : Nat) (mine : Nat → Bool) (host pool : Memory) : Memory :=
  moveCells (fun a => some (a - base)) (host.filter fun e => inPools base mine e.1) (pool.filter fun e => !mine (e.1 / 2097152))

/-- The pools of a partition's cores go to host memory or come from it, and those of its pre-empted runs whose cores another context
has, each behind the others (log entry 20). -/
def State.movePools (s : State) (part : Nat) (restore : Bool) (host : Nat) : State :=
  let mine := fun c => (s.part part).coreGroups.getLsbD (coreGroup c)
  let base := host + poolSlot
  let saved := (s.runs.filter fun e => e.2.part == part && e.2.context.isSome).zipIdx
  let ofRun := fun (e : (Nat × Run) × Nat) => (base + 2 ^ 30 * (e.2 + 1), fun c => e.1.2.cores.contains c)
  if restore then
    let s := { s with pool := poolsIn base mine s.host s.pool }
    saved.foldl (fun s e => s.modRun e.1.1 fun u =>
      { u with context := u.context.map fun x => { x with pool := poolsIn (ofRun e).1 (ofRun e).2 s.host x.pool } }) s
  else
    saved.foldl (fun s e => match e.1.2.context with
      | some x => { s with host := poolsOut (ofRun e).1 (ofRun e).2 x.pool s.host }
      | none => s) { s with host := poolsOut base mine s.pool s.host }

/-- CHECKPOINT_RESTORE, request 0x21: the pools of the partition's cores are copied at once, with no run going on, and every tile
with its record by the copy engines in guest windows (R269). -/
def execCheckpointRestore (fn : Fn) (part : Nat) (restore : Bool) (host : Nat) (s : State) : Out :=
  let p := s.part part
  let going := s.runs.any fun e => e.2.part == part && (match e.2.st with
    | .armed => true
    | .live => true
    | .runon _ => true
    | _ => false)
  if s.owns fn part && restore && p.resealing then ok (s.answer fn .busy [])
  else ok (s.ownedMove fn part (going || (p.confidential && p.tdi != .run)) fun s =>
    (s.movePools part restore host).startMove part
      { fn := fn, out := !restore, count := (allotment p.parityGroups).length * Config.tiles, host := host })

/-! ## Memory keys, R409, R410 -/

/-- An established session of a function, R408. -/
def State.session (s : State) (fn : Fn) : Bool := s.sessions.any fun e => e.2.any fun q => q.fn == fn && q.est

/-- The function that makes a request of the device controller, and the partition that the request concerns (19_host.md Table
19.4). -/
def State.request (s : State) (w : Work) : Option (Fn × Option Nat) :=
  match w.instr with
  | .partitionCreateDelete f p _ => some (f, some p)
  | .vfBind f v p => some (f, p.orElse fun _ => s.vfPart v)
  | .setPageTableRoot f p _ _ => some (f, some p)
  | .loadHandlerTable f p _ => some (f, some p)
  | .loadRackingTable f p _ _ => some (f, some p)
  | .reconfigurePlane f p _ _ _ _ => some (f, some p)
  | .setLimits f p _ => some (f, some p)
  | .writeMulticastGroup f p _ _ _ _ => some (f, some p)
  | .pageCountersMigrate f p _ => some (f, some p)
  | .checkpointRestore f p _ _ => some (f, some p)
  | .loadMemoryKey f p _ _ => some (f, some p)
  | .lockInterface | .startInterface | .stopInterface => some (w.ctx.fn, some w.ctx.part)
  | _ => none

/-- A request that a partition in steps 2 to 4 of a rotation answers BUSY, and that does not wait for their end (R410). -/
def busyInRotation (i : Instr) : Bool :=
  match i with
  | .pageCountersMigrate _ _ (.toHost _ _) | .pageCountersMigrate _ _ (.toHbm _ _) | .checkpointRestore _ _ true _
  | .loadMemoryKey _ _ _ _ => true
  | _ => false

/-- A copy engine has a migration, checkpoint or restore of the partition in hand. -/
def State.moving (s : State) (p : Nat) : Bool :=
  s.fars.any fun e => e.2.any fun f => f.part == p && match f.kind with
    | .move _ => true
    | _ => false

/-- A request about a partition stands in its ring: until a copy of the partition is whole, and until the steps 2 to 4 of a rotation
have ended (R405, R410). -/
def State.requestWaits (s : State) (i : Instr) (p : Nat) : Bool := s.moving p || ((s.part p).resealing && !busyInRotation i)

/-- The requests that the controller takes now, and those that stand in their rings: one function's in its order, and those that touch
one partition each whole before the next (R405). -/
def State.takeRequests (s : State) : List Due → List Fn → List Nat → List Work × List Due
  | [], _, _ => ([], [])
  | d :: l, fs, ps =>
    match s.request d.work with
    | none =>
      let (w, r) := s.takeRequests l fs ps
      (d.work :: w, r)
    | some (f, p) =>
      if fs.contains f || p.any (fun p => ps.contains p || s.requestWaits d.work.instr p) then
        let (w, r) := s.takeRequests l (f :: fs) (p.toList ++ ps)
        (w, d :: r)
      else
        let (w, r) := s.takeRequests l fs (p.toList ++ ps)
        (d.work :: w, r)

/-- LOAD_MEMORY_KEY, request 0x30: the key enters the register that CURRENT does not name; a rotation commits later (R409,
R410). -/
def execLoadMemoryKey (fn : Fn) (part : Nat) (key : Option (BitVec 256)) (rotate : Bool) (s : State) : Out :=
  let p := s.part part
  if s.owns fn part && s.session fn && p.rotating.isSome then ok (s.answer fn .busy [])
  else ok (s.owned fn part (!s.session fn) fun s =>
    let (n, s) := s.draw
    let (m, s) := s.draw
    let k := key.getD (Config.drbgKey n)
    let s := s.modPart part fun p => if p.current then { p with key0 := some k } else { p with key1 := some k }
    if rotate then
      (s.modPart part fun p => { p with rotating := some (!p.current) }).atTick (s.tick + 1 + Config.freeNat m)
        { ctx := { part := part }, instr := .keyRotationCommit }
    else s)

/-- KEY_ROTATION_COMMIT: CURRENT names the new register from now on (R410 step 2); a copy of the partition in hand is whole first
(R405). -/
def execKeyRotationCommit (s : State) : Out :=
  let p := s.ctx.part
  match (s.part p).rotating with
  | none => ok s
  | some e =>
    if s.moving p then ok (s.atTick (s.tick + 1) { ctx := { part := p }, instr := .keyRotationCommit })
    else
    let (n, s) := s.draw
    ok ((s.modPart p fun q => { q with current := e }).atTick (s.tick + 1 + Config.freeNat n) { ctx := { part := p }, instr := .resealScan })

/-- Tiles of a partition whose records name key slot `ks`, by tile frame; parity bursts of the seal region hold no record (10_channels.md
R248). -/
def State.tilesUnder (s : State) (p ks : Nat) : List Nat :=
  let cells := s.hbm.filter fun e =>
    let b := e.1 / 32
    decide (Config.sealRow ≤ b / 512 % 49152) && decide (b / 512 % 49152 < Config.ownRow) &&
      (s.part p).parityGroups.getLsbD (b / (49152 * 512) % 64)
  let frames := (cells.map fun e =>
    let b := e.1 / 32
    b / (49152 * 512) * 2 ^ 18 + (b / 512 % 49152 - Config.sealRow) * 512 + b / 32 % 16 * 32 + b % 32).eraseDups
  frames.filter fun f => decide (f % 2 ^ 18 < Config.tiles) && s.sealedTile f && ((s.record f).getD 20 0).toNat == ks

/-- A scan reseals a tile at version 0 under the new register; a failed verify leaves it as it is and is logged (R410 step 3). -/
def State.reseal (s : State) (p : Nat) (e : Bool) (key : BitVec 256) (f : Nat) : State :=
  let s := s.homeUe { dev := s.devIndex, frame := f } 4096
  match s.unseal p f with
  | some bs => s.putSealed f 0 (2 * p + e.toNat) key bs
  | none => { s with sealLog := (p, f) :: s.sealLog.filter (· != (p, f)) }

/-- A latch of the tile's channel holds it in state READ or SEALED, or no window is open for the access (R410 step 3). -/
def State.resealWaits (s : State) (f : Nat) : Bool := s.latchHolds f || !s.windowFits (f / 2 ^ 18) 512

/-- RESEAL_SCAN: tiles that name the old register are sealed at version 0 under the new one; once none is left, the old
register is emptied and an event posted (R410 steps 3, 4). -/
def execResealScan (s : State) : Out :=
  let p := s.ctx.part
  match (s.part p).rotating with
  | none => ok s
  | some e =>
    let q := s.part p
    let key := (if e then q.key1 else q.key0).getD 0
    let s := ((s.tilesUnder p (2 * p + (!e).toNat)).filter fun f => !s.resealWaits f).foldl (fun s f => s.reseal p e key f) s
    if (s.tilesUnder p (2 * p + (!e).toNat)).isEmpty then
      let s := s.modPart p fun q => if e then { q with key0 := none, rotating := none } else { q with key1 := none, rotating := none }
      match q.vf with
      | some v => ok (s.event v 3 (leBytes 32 0))
      | none => ok s
    else
      let (n, s) := s.draw
      ok (s.atTick (s.tick + 1 + Config.freeNat n) { ctx := { part := p }, instr := .resealScan })

/-! ## TDISP, 15_light.md R358, R404 -/

/-- What the measurement of a confidential partition covers, Table 19.6. -/
def State.tdiItems (s : State) (p : Nat) : List Byte :=
  let q := s.part p
  let racks := s.racks.flatMap fun e => if e.1 / 2 ^ 32 == p && e.2.mask &&& q.laneSets != 0 then e.2.digest else []
  let cask := match q.cask with
    | some k => leBytes 2 k.core ++ leBytes 4 k.base ++ leBytes 2 k.n
    | none => []
  leBytes 8 q.coreGroups.toNat ++ leBytes 8 q.parityGroups.toNat ++ leBytes 2 q.laneSets.toNat ++ racks ++ cask ++
    Config.shake256 (q.handlers.flatMap fun e => leBytes 2 e.1 ++ leBytes 4 e.2.toNat) 64 ++
    Config.shake256 (q.mcast.flatMap fun e => leBytes 1 e.1 ++ leBytes 6 e.2.2.2.toNat) 64 ++
    leBytes 8 (q.root.getD 0) ++ [BitVec.ofBool q.expert |>.setWidth 8] ++ q.votes.flatMap (leBytes 1) ++ leBytes 2 (q.vf.getD 0)

/-- A TDISP message, request 0x31: it needs a session and a confidential partition in one of the states `fr`. -/
def State.tdisp (s : State) (fr : List Tdi) (next : Tdi) (go : State → State) : State :=
  let fn := s.ctx.fn
  let p := s.ctx.part
  let q := s.part p
  s.owned fn p (!s.session fn || !q.confidential || !fr.contains q.tdi) fun s =>
    let s := go (s.modPart p fun q => { q with tdi := next })
    match q.vf with
    | some v => s.event v 3 (leBytes 32 next.ctorIdx)
    | none => s

/-- LOCK_INTERFACE: the configuration is frozen and measured. -/
def execLockInterface (s : State) : Out :=
  let p := s.ctx.part
  ok (s.tdisp [.unlocked] .locked fun s =>
    let m := Config.shake256 (s.tdiItems p) 64
    { s with measures := Table.put s.measures (16 + p) m }.modPart p fun q => { q with measured := some m })

/-- START_INTERFACE. -/
def execStartInterface (s : State) : Out := ok (s.tdisp [.locked] .run id)
/-- STOP_INTERFACE. -/
def execStopInterface (s : State) : Out := ok (s.tdisp [.locked, .run, .error] .unlocked id)

/-- FUNCTION_LEVEL_RESET of a function that boot has enabled: its registers return to their defaults; a confidential partition's
interface goes to ERROR (R404, R407). -/
def execFunctionLevelReset (s : State) : Out :=
  let v := s.ctx.vf
  if s.boot != .up then ok s
  else
  let s := match s.vfPart v with
    | some p => s.tdiError p
    | none => s
  ok (s.modVf v fun _ => {})

/-! ## Boot, R406, R407 -/

/-- Fields of the configuration block that stop boot, Table 19.5. -/
def State.badConfig (s : State) : Bool :=
  let f := fun o n => ofLe (s.cfg o n)
  f 0 2 != 1 || f 2 2 != 0 || (decide (8 ≤ f 0x48 1) && f 0x48 1 != 0xFF) || decide (31 < f 0x49 1) ||
  (f 0x4A 2 != 0 && (decide (f 0x4A 2 < 128) || decide (1023 < f 0x4A 2))) || f 0x4C 4 != 0 ||
  !Config.chainVerify (s.cfg 0x450 1024) Config.romDigest ||
  !Config.ed448Verify (s.cfg 0 0x850) (s.cfg 0x850 114) (s.cfg 0x450 1024)

/-- What survives a power loss: the flash, host memory and what has left the device. -/
def State.unpowered (s : State) : State :=
  { powered := false, tick := s.tick, todo := [], nonce := s.nonce, inbox := s.inbox, host := s.host, flash := s.flash,
    firmware := s.firmware, lightOut := s.lightOut, wireOut := s.wireOut, msi := s.msi, answers := s.answers }

/-- POWER_LOSS, R406, R409. -/
def execPowerLoss (s : State) : Out := ok s.unpowered

/-- Until boot ends a configuration request is answered with Configuration Request Retry Status (R399). -/
def State.configRetry (s : State) : Bool := s.powered && s.boot == .off
/-- The answer to a message on a function's DOE mailbox, which lies in its configuration space, before boot has ended: the retry
status, as code 0x100 (log entry 5). A boot that has stopped answers nothing. -/
def State.mailboxShut (s : State) : State :=
  if s.configRetry then { s with answers := { fn := s.ctx.fn, code := 0x100, body := [] } :: s.answers } else s

/-- The four steps of boot, R407. A controller that has booted asks the peers of its pod for sessions (R408). -/
def State.bootSteps (s : State) : State :=
  let (n, s) := s.draw
  match Config.pufExtract (Config.pufSram n) (s.cfg 0x50 1024) with
  | none => { s with boot := .stopped 1 }
  | some secret =>
    let dev := "DEVID".toList.map fun c => BitVec.ofNat 8 c.toNat
    let s := { s with secret := secret, identity := Config.shake256 (secret ++ dev) 57 }
    if s.badConfig then { s with boot := .stopped 2 }
    else
      let m2 := Config.shake256 s.firmware 64
      if m2 != s.cfg 8 64 then { s with boot := .stopped 3 }
      else
        let m3 := Config.shake256 (s.cfg 0 0x8C2) 64
        let f := fun o n => ofLe (s.cfg o n)
        let s := { s with measures := [(1, Config.shake256 Config.bootRom 64), (2, m2), (3, m3), (4, Config.shake256 (s.cfg 4 4) 64)]
                          alias_ := Config.shake256 (secret ++ m2 ++ m3) 57
                          floor := if f 0x48 1 = 0xFF then 5 else f 0x48 1
                          devIndex := f 0x49 1
                          flight := if f 0x4A 2 = 0 then 160 else f 0x4A 2
                          boot := .up }
        let s := { s with timekeeper := Config.timekeeper.getD (((List.range 32).find? s.present).getD s.devIndex) }
        ((List.range s.podSize).filter (· != s.devIndex)).foldl (fun s d => s.askPeer d 0x84 []) s

/-- The ticks of a second, 00_scope.md Table 0.1. -/
def tickHz : Nat := 1100000000

/-- POWER_UP: the board applies power and releases reset: everything starts from its power-up state, with boot in progress, and boot
ends, all four steps taken or one failed, within 1 s (R399, R406, R407; when within it is not stated, log 3). With index 1 in the
context that end has come. -/
def execPowerUp (s : State) : Out :=
  if s.ctx.idx = 1 then ok s.bootSteps
  else
    let s := { s.unpowered with powered := true, podSize := max 1 (min 32 Config.podSize) }
    let (n, s) := s.draw
    ok (s.atTick (s.tick + Config.freeNat n % tickHz) { ctx := { idx := 1 }, instr := .powerUp })

/-! ## Attestation and sessions, R408 -/

/-- The messages exchanged with the function in hand. -/
def State.transcript (s : State) : List Byte := ((s.transcripts.find? fun e => e.1 == s.ctx.fn).map (·.2)).getD []
/-- Adds a message to the transcript of the function in hand. -/
def State.hear (s : State) (bs : List Byte) : State :=
  { s with transcripts := (s.ctx.fn, s.transcript ++ bs) :: s.transcripts.filter fun e => e.1 != s.ctx.fn }
/-- An SPDM response to the function in hand: response code and body, which enter the transcript. The codes are those of SPDM 1.3
(log entry 5). -/
def State.respond (s : State) (code : Nat) (body : List Byte) : State :=
  let s := s.hear (leBytes 1 code ++ body)
  { s with answers := { fn := s.ctx.fn, code := code, body := body } :: s.answers }

/-- An SPDM error response. -/
def State.spdmError (s : State) (e : Nat) : State := s.respond 0x7F (leBytes 1 e)

/-- How far the function has negotiated: 1 version, 2 capabilities, 3 algorithms. -/
def State.spdmAt (s : State) : Nat := ((s.spdm.find? fun e => e.1 == s.ctx.fn).map (·.2)).getD 0

/-- Notes how far the function has negotiated. -/
def State.spdmTo (s : State) (n : Nat) : State := { s with spdm := (s.ctx.fn, n) :: s.spdm.filter fun e => e.1 != s.ctx.fn }

/-- A request that needs an identity, and negotiation as far as `n`. -/
def State.spdmAfter (s : State) (n : Nat) (go : State → State) : State :=
  if s.boot != .up then s.mailboxShut
  else if s.spdmAt < n then s.spdmError 4
  else go s

/-- GET_VERSION: SPDM 1.3; a new transcript begins. -/
def execGetVersion (s : State) : Out :=
  ok (s.spdmAfter 0 fun s => ({ s with transcripts := s.transcripts.filter fun e => e.1 != s.ctx.fn }.spdmTo 1).respond 0x04 [0x13])
/-- GET_CAPABILITIES. -/
def execGetCapabilities (s : State) : Out := ok (s.spdmAfter 1 fun s => (s.spdmTo 2).respond 0x61 [])
/-- NEGOTIATE_ALGORITHMS. -/
def execNegotiateAlgorithms (s : State) : Out :=
  ok (s.spdmAfter 2 fun s => (s.spdmTo 3).respond 0x63 spdmAlgorithms)

/-- GET_DIGESTS. -/
def execGetDigests (s : State) : Out := ok (s.spdmAfter 3 fun s => s.respond 0x01 (Config.sha3 s.aliasChain))
/-- GET_CERTIFICATE: slot 0 holds the alias chain. -/
def execGetCertificate (fn : Fn) (slot : Nat) (s : State) : Out :=
  ok ({ s with ctx := { s.ctx with fn := fn } }.spdmAfter 3 fun s => if slot = 0 then s.respond 0x02 s.aliasChain else s.spdmError 1)
/-- CHALLENGE: the digest of the chain and a signature of the transcript hash under the alias key. -/
def execChallenge (fn : Fn) (nonce : BitVec 256) (s : State) : Out :=
  ok ({ s with ctx := { s.ctx with fn := fn } }.spdmAfter 3 fun s =>
    let d := Config.sha3 s.aliasChain
    let s := s.hear (leBytes 32 nonce.toNat ++ d)
    s.respond 0x03 (d ++ Config.ed448Sign s.alias_ (Config.sha3 s.transcript)))
/-- GET_MEASUREMENTS: one block, or all with index 0xFF, or their number with index 0. -/
def execGetMeasurements (fn : Fn) (index : Nat) (s : State) : Out :=
  ok ({ s with ctx := { s.ctx with fn := fn } }.spdmAfter 3 fun s =>
    if index = 0 then s.respond 0x60 (leBytes 1 s.measures.length)
    else if index = 0xFF then s.respond 0x60 (s.measures.flatMap fun (e : Nat × List Byte) => leBytes 1 e.1 ++ e.2)
    else match s.measures.find? fun (e : Nat × List Byte) => e.1 == index with
      | some e => s.respond 0x60 (leBytes 1 e.1 ++ e.2)
      | none => s.spdmError 1)

/-- Session `n`. -/
def State.sessionAt (s : State) (n : Nat) : Option Session := Table.get none s.sessions n

/-- KEY_EXCHANGE: at most 64 sessions; a 65th is answered with Busy. The response carries the device's share and a signature of the
transcript hash. -/
def execKeyExchange (fn : Fn) (share : BitVec 768) (s : State) : Out :=
  ok ({ s with ctx := { s.ctx with fn := fn } }.spdmAfter 3 fun s =>
    match (if 64 ≤ s.openSessions then none else (List.range 64).find? fun n => (s.sessionAt n).isNone) with
    | none => s.spdmError 3
    | some i =>
      let (n, s) := s.draw
      let r := Config.ecdhe n share
      let s := s.hear (leBytes 96 share.toNat ++ leBytes 1 i ++ r.take 96)
      { s with sessions := Table.put s.sessions i (some { fn := fn, secret := r.drop 96 }) }.respond 0x64
        (leBytes 1 i ++ r.take 96 ++ Config.ed448Sign s.alias_ (Config.sha3 s.transcript)))

/-- A request inside session `session` of the function in hand. -/
def State.inSession (s : State) (go : Session → State → State) : State :=
  if s.boot != .up then s.mailboxShut
  else match s.sessionAt s.ctx.session with
    | some q => if q.fn == s.ctx.fn then go q s else s.spdmError 2
    | none => s.spdmError 2

/-- Puts the session in hand. -/
def State.putSession (s : State) (q : Option Session) : State := { s with sessions := Table.put s.sessions s.ctx.session q }

/-- FINISH: with the verify data that the secret and the transcript hash give, the session is established under the keys they yield;
with any other it is ended. -/
def execFinish (s : State) : Out :=
  ok (s.inSession fun q s =>
    let h := Config.sha3 s.transcript
    if s.ctx.verify = Config.finishData q.secret h then
      (s.putSession (some { q with est := true, secret := Config.nextSecret q.secret h })).respond 0x65 []
    else (s.putSession none).spdmError 6)

/-- KEY_UPDATE: the session goes on under the next keys. -/
def execKeyUpdate (s : State) : Out :=
  ok (s.inSession fun q s =>
    if q.est then (s.putSession (some { q with updates := q.updates + 1, secret := Config.nextSecret q.secret [] })).respond 0x69 []
    else s.spdmError 2)
/-- HEARTBEAT; with index 1 in the context, what this device's controller does next in the session it has with a peer. -/
def execHeartbeat (s : State) : Out :=
  if s.ctx.idx = 1 then ok (s.usePeer (s.ctx.session - 64))
  else ok (s.inSession fun q s => if q.est then s.respond 0x68 [] else s.spdmError 2)
/-- END_SESSION. -/
def execEndSession (s : State) : Out := ok (s.inSession fun _ s => (s.putSession none).respond 0x6C [])

/-- The rotation of link keys that a session with device `d` carried, or that this device's own sessions carry, stops; the keys in force stay in use (R408). -/
def State.stopRotation (s : State) (d : Nat) : State :=
  let late := fun (l : LaneSet) => (l.keyFrom == d || l.keyFrom == s.devIndex) && l.flip.any fun x => decide (s.tick < 80 * x)
  let stopped := (s.laneSets.filter fun e => late e.2).map (·.1)
  { s with laneSets := s.laneSets.map fun (e : Nat × LaneSet) => (e.1, if late e.2 then { e.2 with flip := none } else e.2)
           agenda := s.agenda.filter fun (x : Due) =>
             !(x.work.instr == Instr.keyFlip && stopped.contains x.work.ctx.idx && decide (s.tick < x.due)) }

/-- HEARTBEAT_FAILURE: a session that fails its heartbeat ends: one of a function, or, as number 64 + d, the one with the controller of
device d, whose rotation of link keys stops (R408, log entry 5). -/
def execHeartbeatFailure (s : State) : Out :=
  let n := s.ctx.session
  if n < 64 then ok (s.putSession none)
  else ok (((s.dropPeer (n - 64)).modPeer (n - 64) fun q => { q with opened := false, est := false }).stopRotation (n - 64))

/-- A selective stream has lost its key, or another function's key has taken its place: its owner's interface goes to ERROR (R404).
A partition has no interface state to lose where it is plain or unlocked. -/
def State.loseStream (s : State) (stream : Nat) (next : Option Fn) : State :=
  match Table.get none s.ide stream with
  | some (.vf v, _) =>
    if 64 ≤ stream || next == some (.vf v) then s
    else match s.vfPart v with
      | some p => s.tdiError p
      | none => s
  | _ => s

/-- IDE_KM: a key for a selective stream or the link's, over an established session (R399), answered in that session. A stream that
loses its key takes its owner's interface to ERROR (R404). -/
def execIdeKm (fn : Fn) (session stream : Nat) (key : Option (BitVec 256)) (s : State) : Out :=
  let good := (s.sessionAt session).any fun q => q.fn == fn && q.est
  let reply := fun (s : State) (code : Nat) => { s with answers := { fn := fn, code := code, body := [] } :: s.answers }
  if s.boot != .up then ok { s with ctx := { s.ctx with fn := fn } }.mailboxShut
  else if !good || 64 < stream then ok (reply s 0x7F)
  else
    let s := s.loseStream stream (key.map fun _ => fn)
    ok (reply { s with ide := Table.put s.ide stream (key.map fun k => (fn, k)) } 0x7E)

end Sys2Proof.Machine
end

