-- ==== Sys2Proof/Machine/Writeback.lean ====
section
/-! DEFINITION. Performing the writes of the cycles that end (04_cycles.md R98 to R100): which cores end a cycle at the
present tick, the collisions, and the writes a retained or finished core refuses. -/

namespace Sys2Proof.Machine

/-- A core at its gate whose gate tick has come, 01_machine.md R23. -/
def State.gateDue (s : State) (c : Nat) : Bool :=
  let k := s.core c
  match k.run, k.seq, k.gate with
  | some r, .gate a, some g => (s.run r).st == .live && decide (g.g ≤ s.runTick r) && decide (a ≤ s.tick)
  | _, _, _ => false

/-- The freeze tick of a run's cause, or that of its pre-emption, has come (01_machine.md R28, R33). -/
def State.freezeDue (s : State) (r : Nat) : Bool :=
  let ru := s.run r
  match ru.st, ru.cause with
  | .live, some c =>
    match c.byCore with
    | some (k, n) => s.pulses k && decide (n ≤ (s.core k).cyc + 1)
    | none => decide (c.byTick ≤ s.tick)
  | .live, none => ru.yieldAt.any fun t => decide (t ≤ s.tick)
  | _, _ => false

/-- Cores whose cycle in hand ends before the present tick: the next cycle, a gate, or a freeze begins. -/
def State.closing (s : State) : List Nat :=
  (s.cores.filter fun e => e.2.running && (s.pulses e.1 || s.gateDue e.1 ||
    match e.2.run with
    | some r => s.freezeDue r
    | none => true)).map (·.1)

/-- A pending write performs now, the cores `cs` ending their cycles. -/
def State.ripe (s : State) (cs : List Nat) (w : PWrite) : Bool :=
  match w.clk with
  | .core c => cs.contains c && !(s.core c).inRecov && decide (w.due ≤ (s.core c).cyc)
  | .recov c => cs.contains c && (s.core c).inRecov && decide (w.due ≤ (s.core c).cyc)
  | .tick => decide (w.due < s.tick)

/-- Pairs of writes of one location, with it. -/
def collisions : List PWrite → List (PWrite × PWrite × Nat)
  | [] => []
  | w :: r => (r.filterMap fun v => (w.upd.clash v.upd).map fun l => (w, v, l)) ++ collisions r

/-- Insertion of a collision by its later producer, the earliest of them first; of two bundles' collisions in one cycle that
of the bundle issued earlier is reported first (DESIGN CHOICE, log 24). -/
def insHit (x : PWrite × PWrite × Nat) : List (PWrite × PWrite × Nat) → List (PWrite × PWrite × Nat)
  | [] => [x]
  | y :: r =>
    if keyLt (laterOf x.1.src x.2.1.src).1.key (laterOf y.1.src y.2.1.src).1.key then x :: y :: r else y :: insHit x r

/-- Reports a WRITE_COLLISION on the core that owns the location, against the later producer (04_cycles.md R100). -/
def State.collide (s : State) (x : PWrite × PWrite × Nat) : State :=
  let (u, v, l) := x
  let (late, other) := laterOf u.src v.src
  match u.upd.owner with
  | some c =>
    let vb := (s.core c).carve.vb
    let at_ := match u.upd, v.upd with
      | .pool _ a _ true, .pool _ b _ true => if a = b && decide (vb ≤ a) then (a - vb) / 256 else l
      | _, _ => l
    s.raiseAt c .writeCollision late (if u.src.rx.isSome then u.due else v.due) (BitVec.ofNat 64 at_) (collWord other)
  | none => s

/-- Why a pool write that arrives from outside its core does not perform: the core has passed its END entry, faulted since or not, or
its SRAM rail is in retention; with the core the fault is raised on (09_pool.md R228, 14_time_power.md R322). A copy, a CHR and an AMOL
of the core itself arrive from the fabric like those of another core; its other writes are those of units that stay powered
until they are done. -/
def State.refusedWrite (s : State) (w : PWrite) : Option (FCode × Nat) :=
  let dst := match w.upd.plain with
    | .pool c _ _ _ => some c
    | .tag c _ _ => some c
    | _ => none
  match dst with
  | some c =>
    let fabric := match w.upd with
      | .amol _ _ _ _ => true
      | .pool _ _ _ whole => w.src.eng && decide (5 ≤ w.src.slot) && !w.src.fo && !w.src.own && !whole
      | _ => w.src.eng && decide (5 ≤ w.src.slot) && !w.src.fo && !w.src.own
    if w.src.core = c && w.src.rx.isNone && (!fabric || (s.core c).rails.getLsbD 2) then none
    else if w.src.rx.isNone && w.src.eng && !(s.core c).inBarrier then some (.taskOverhang, w.src.core)
    else if (s.core c).rails.getLsbD 2 then none
    else some (.railDown, if w.src.rx.isSome then c else w.src.core)
  | none => none

/-- Raises the fault of a refused write on core `c`: a landing's as a device fault (16_faults.md Table 16.1). -/
def State.raiseRefused (s : State) (c : Nat) (f : FCode) (w : PWrite) : State :=
  if w.src.rx.isSome then s.raiseUnit c f 3 0 0 w.due else s.raiseOn c f w.src 0 0

/-- Insertion by rank, keeping the order of equals. -/
def insRank (w : PWrite) : List PWrite → List PWrite
  | [] => [w]
  | v :: r => if w.upd.rank < v.upd.rank then w :: v :: r else v :: insRank w r

/-- Fills a data-queue slot or, when it is full and was not emptied, raises DATAQ_OVERRUN on the copy's core or on the
channel; an arrival of an elastic core waits (10_channels.md R247, R266). -/
def State.fillOrWait (s : State) (w : PWrite) (cn q : Nat) (d : List Byte) (poison : Bool) (key : Nat) (op : Option Nat) : State :=
  if (Table.get none (s.chan cn).slots q).isNone then s.fillSlot cn q d poison key
  else
    let c := w.src.core
    match op with
    | some n =>
      let o := s.op c n
      if (s.core c).elastic then
        (s.setOp c n (some { o with waiting := true, fin := none })).modCore c fun k => { k with
          sched := k.sched.filter fun d => !(d.work.ctx.op == n && d.work.instr == .followOnIssue) }
      else s.raiseOn c .dataqOverrun w.src 0 0
    | none =>
      match (s.chan cn).run with
      | some r => s.raiseRun r .dataqOverrun 1 cn w.src.slot
          (BitVec.ofNat 64 (cn + w.src.head % 2 ^ 20 * 2 ^ 10 + w.src.slot * 2 ^ 30)) (BitVec.ofNat 64 w.src.cyc) (s.tick - 1)
      | none => s

/-- Performs one write. -/
def State.perform (s : State) (w : PWrite) : State :=
  match w.upd with
  | .slot cn q d p key op => s.fillOrWait w cn q d p key op
  | .x c r _ => (s.noteX c r w.src).apply w.upd
  | u => s.apply u

/-- The AMOL writes of elastic cores among those that perform now, by ascending core. -/
def State.elasticAmols (s : State) (now : List PWrite) : List PWrite :=
  let l := now.filter fun w => match w.upd with
    | .amol _ _ _ _ => (s.core w.src.core).elastic
    | _ => false
  (s.cores.map (·.1)).flatMap fun c => l.filter fun w => w.src.core == c

/-- Of the AMOL writes that conflict at one tick the lowest core's performs; the others are put off. One that conflicts only with an
AMOL that is put off keeps its cycle (12_order.md R290 does not say whether it is one of the others; DESIGN CHOICE, log 24). -/
def amolsLate : List PWrite → List PWrite → List PWrite
  | _, [] => []
  | placed, w :: r =>
    if placed.any fun p => (p.upd.clash w.upd).isSome then w :: amolsLate placed r else amolsLate (w :: placed) r

/-- Puts an AMOL off by one cycle of its core, or, when its write performs, defers its xd (12_order.md R290). -/
def State.amolNext (s : State) (late : Bool) (w : PWrite) : State :=
  match w.upd with
  | .amol _ _ _ n =>
    let c := w.src.core
    let o := s.op c n
    if late then
      ((s.setOp c n (some { o with fut := [(o.cs, o.as, match o.instr with
          | .amol _ _ _ _ w8 _ => if w8 then 8 else 4
          | _ => 0)] })).modCore c fun k => { k with waits := k.waits.map fun x =>
          match x.what with
          | .amol d => if x.src.same w.src then { x with what := .amol (d + 1) } else x
          | _ => x }).at c ((s.core c).cyc + 1) { ctx := { core := c, op := n }, instr := .vaultSample }
    else
      match o.instr with
      | .amol _ xd _ _ _ _ =>
        (s.setOp c n none).push { clk := s.clkOf c, due := (s.core c).cyc + 3 + o.hs, src := w.src,
                                  upd := .x c xd (BitVec.ofNat 64 (ofLe o.buf)) }
      | _ => s
  | _ => s

/-- A copy, a decanter, a CHR or a landing: its tag follows its bytes (09_pool.md R212). -/
def Src.tags (p : Src) : Bool := p.rx.isSome || (p.eng && decide (5 ≤ p.slot) && !p.fo && !p.own)

/-- The granules that a write of such an operation writes in. -/
def PWrite.granules (w : PWrite) : List (Src × Nat × Nat) :=
  match w.upd with
  | .pool c a bs _ =>
    if w.src.tags then
      ((bs.zipIdx.filterMap fun e => if e.1.isSome then some ((a + e.2) / 1024) else none).eraseDups).map fun g => (w.src, c, g)
    else []
  | _ => []

/-- A landing that is no counted flit has written granule `g`: its send has, on its receive lane (15_light.md R341). -/
def State.noteSend (s : State) (p : Src) (g : Nat) : State :=
  match p.rx, p.cyc with
  | some rx, n + 1 => s.modRx rx fun r => { r with touched := ((n, g) :: r.touched.filter fun e => decide (n ≤ e.1)).eraseDups }
  | _, _ => s

/-- Notes the granules that the writes `l` of a cycle write in, and drops the tags of those among them in which their operation has
written nothing, its bytes having collided or its mask being empty (04_cycles.md R100, 09_pool.md R212). -/
def State.tagged (s : State) (l : List PWrite) : List PWrite × State :=
  let all := (s.wrote ++ l.flatMap PWrite.granules).eraseDups
  let mine := fun (w : PWrite) => match w.upd with
    | .tag c g _ => if w.src.tags then some (w.src, c, g) else none
    | _ => none
  let bad := fun (w : PWrite) => (mine w).any fun e => !all.contains e
  let done := l.filterMap mine
  let landed := all.filter fun e => e.1.rx.isSome
  (l.filter (!bad ·), landed.foldl (fun s e => s.noteSend e.1 e.2.2)
    { s with wrote := all.filter fun e => e.1.rx.isNone && !done.contains e })

/-- Performs the writes of the cycles that end: refused ones do not perform and collide with nothing, and of those that clash only the
bytes they do not share do; the others perform in the order of their ranks. Two writes of a core's cycle collide when they perform at
the end of one pod tick; a landing or a write of another core that performs in an earlier tick of a slow core's cycle f does not
count as one of cycle f (04_cycles.md R100 does not say; DESIGN CHOICE, log 24). -/
def State.writeback (s : State) : State :=
  let cs := s.closing
  let now := s.pend.filter (s.ripe cs)
  let s := { s with pend := s.pend.filter fun w => !s.ripe cs w }
  let s := cs.foldl (fun s c => s.modCore c fun k => { k with lastX := [], running := false }) s
  let am := s.elasticAmols now
  let late := amolsLate [] am
  let s := am.foldl (fun s w => s.amolNext (late.contains w) w) s
  let now := now.filter fun w => !late.contains w
  let s := now.foldl (fun s w =>
    match s.refusedWrite w with
    | some (f, c) => s.raiseRefused c f w
    | none => s) s
  let now := now.filter fun w => (s.refusedWrite w).isNone
  let hit := collisions now
  let good := now.filterMap fun w => ((hit.foldl (fun o h =>
      if h.1 == w then o.bind (·.without h.2.1.upd) else if h.2.1 == w then o.bind (·.without h.1.upd) else o) (some w.upd)).map
    fun u => { w with upd := u })
  let s := (hit.foldl (fun l x => insHit x l) []).foldl State.collide s
  let (good, s) := s.tagged good
  (good.foldl (fun l w => insRank w l) []).foldl State.perform s

/-- RESULT_WRITEBACK: the writes of the cycles that end perform, 04_cycles.md R98. -/
def execResultWriteback (s : State) : Out := ok s.writeback

end Sys2Proof.Machine
end

