-- ==== Sys2Proof/Machine/Clock.lean ====
section
/-! DEFINITION. The order of the steps of one pod tick: what each part of the tick makes due (the model's own order, log
entry 1). -/

namespace Sys2Proof.Machine

/-- A step on core `c`. -/
def onCore (c : Nat) (i : Instr) : Work := { ctx := { core := c }, instr := i }
/-- A step on run `r`. -/
def onRun (r : Nat) (i : Instr) : Work := { ctx := { run := r }, instr := i }

/-- Numbers of the cores that begin a cycle now. -/
def State.pulsing (s : State) : List Nat := (s.cores.filter fun e => s.pulses e.1).map (·.1)
/-- Numbers of the cores whose cycle in hand began at this tick. -/
def State.begun (s : State) : List Nat :=
  (s.cores.filter fun e => e.2.running && e.2.cycTick == s.tick).map (·.1)

/-- Rises of rails and wakes of cores that are complete (14_time_power.md R322, R323); the rails of a frozen run's cores stay as they
are (16_faults.md R362). -/
def State.railWorks (s : State) : List Work :=
  (s.rails.filterMap fun e => if e.2.rise.any fun r => decide (r.1 ≤ s.tick) then
      some ({ ctx := { idx := e.1 }, instr := .voteRiseComplete } : Work) else none) ++
  s.cores.filterMap fun e =>
    if (e.2.wake.any fun w => decide (w.2 ≤ s.tick)) && (e.2.inRecov || e.2.run.all fun r => (s.run r).st.moving) then
      some (onCore e.1 .railWakeComplete)
    else none

/-- Elastic clocks to be recomputed at this frame boundary (14_time_power.md R318), then the writes of cycles and ticks that
end. -/
def State.endWorks (s : State) : List Work :=
  (s.cores.filterMap fun e =>
    let live := e.2.run.any fun r => (s.run r).st == .live && s.runTick r % 16 == 0
    if e.2.reclock && live then some (onCore e.1 .clockRecompute) else none) ++
  (if s.cores.any (·.2.running) || s.pend.any (fun w => w.clk == .tick && decide (w.due < s.tick)) then
    [{ instr := .resultWriteback }] else [])

/-- Every core of the run stands at a yield point with idle engines, 01_machine.md R33. A core that waits does not (04_cycles.md
R127). The test is made at the end of the cycle, so one in which a TEND issues counts as between tasks, whatever its bundle's bit
29 and its task (R33 does not say; DESIGN CHOICE, log 18). -/
def State.yieldCycle (s : State) (r : Nat) : Bool :=
  (s.run r).cores.all fun c =>
    let k := s.core c
    !s.enginesBusy c k.cyc && k.waits.isEmpty && (!k.inTask || (k.yieldBit && (k.tasks.getD k.taskIx {}).yieldable) ||
      match k.seq with
      | .gate _ => true
      | _ => false)

/-- The tick after the cycle in hand of each core of a run: the latest of them ends the run's yield cycle (R33). -/
def State.yieldEnd (s : State) (r : Nat) : Nat :=
  (s.run r).cores.foldl (fun m c => max m (if s.pulses c then s.tick else s.nextPulse c s.tick)) s.tick

/-- The run is in a yield cycle: the count of 01_machine.md R34 starts anew, and a pre-emption asked for is honoured once the
cycle has ended on every core (R33). -/
def State.noteYields (s : State) : State :=
  { s with runs := s.runs.map fun e =>
      let ru := e.2
      if ru.st == .live && ru.last.yieldGap != 0 && ru.cause.isNone && ru.yieldAt.isNone && s.yieldCycle e.1 then
        (e.1, { ru with yieldCyc := ru.cores.map fun c => (c, (s.core c).cyc)
                        yieldAt := if ru.preempt then some (s.yieldEnd e.1) else none })
      else e }

/-- Part 2, runs: starts, quorums, freezes, recoveries, restarts, aborts, pre-emptions, and barrier flips. -/
def State.runWorks (s : State) : List Work :=
  s.runs.flatMap fun e =>
    let r := e.1
    let ru := e.2
    let gang := match ru.abortAt with
      | some a => if a ≤ s.tick then [onRun r .gangAbortTick] else []
      | none => []
    let quorum := if ru.last.gang && !ru.checked && decide (ru.last.t0 + ru.last.q ≤ s.tick) then [onRun r .quorumCheck] else []
    match ru.st with
    | .armed => if ru.last.t0 ≤ s.tick then [onRun r .runStart] else []
    | .live =>
      gang ++ quorum ++
        (ru.flips.filterMap fun f => if f.1 ≤ s.runTick r then
          some ({ ctx := { run := r, idx := f.2 }, instr := .barrierFlip } : Work) else none) ++
        (if s.freezeDue r then [onRun r .runFreeze] else []) ++
        (if ru.preempt && ru.last.yieldGap != 0 && ru.cause.isNone then
          (match ru.yieldAt with
           | some t => if t ≤ s.tick then [onRun r .preemptFreeze] else []
           | none => if ru.cores.any fun c => decide (ru.last.yieldGap < s.gapOf ru c) then [onRun r .yieldGapExpiry] else [])
         else [])
    | .frozen _ =>
      gang ++ quorum ++ (match ru.recAt with
        | some t => if t ≤ s.tick && ru.tests == 0 && ru.recov.isNone then [onRun r .recoveryStart] else []
        | none => []) ++
      (match ru.restartAt with
        | some t => if t ≤ s.tick then [onRun r (if ru.preempted then .preemptResume else .runRestart)] else []
        | none => [])
    | .runon t => gang ++ quorum ++ (if t ≤ s.tick then [onRun r .scriptRunonLimit] else [])
    | .ended => []

/-- The core's waits hold issue, or, past a TEND, the start of the next task. -/
def Core.waiting (k : Core) : Bool := k.seq == .wait || (k.faulted.isNone && !k.inTask && !k.waits.isEmpty)

/-- Part 3: gates that are due, then the waits that may end, what fences and barriers hold, and SLEW. -/
def State.waitWorks (s : State) : List Work :=
  (s.cores.flatMap fun e =>
    if s.gateDue e.1 then [onCore e.1 .gateTick]
    else if s.pulses e.1 && e.2.waiting then
      (if e.2.waits.any s.fenceWait then [onCore e.1 .fenceComplete] else []) ++ [onCore e.1 .waitEnd]
    else []) ++
  (if s.slewDue then [{ instr := .slewStep }] else [])

/-- Part 4: the cores that pulse begin a cycle; follow-ons issue before the bundle and before what takes the mover after a wait,
C0's first (08_matrix.md R200, R206). At a task start what has waited beside the TEND runs in the carve of the task that has ended,
and follow-ons in that of the new one. -/
def State.beginCycles (s : State) : State :=
  s.pulsing.foldl (fun s c =>
    let s := s.modCore c fun k => { k with cyc := k.cyc + 1, cycTick := s.tick, running := true, yieldBit := false }
    let k := s.core c
    let rt := ((k.run).map s.runTick).getD 0
    let start := match k.seq with
      | .atTick t => if t ≤ rt && k.waits.isEmpty then [onCore c .taskStart] else []
      | .atCycle n => if n ≤ k.cyc && k.waits.isEmpty then [onCore c .taskStart] else []
      | _ => []
    let fo := k.sched.filter fun d => decide (d.due ≤ k.cyc) && d.work.instr == .followOnIssue
    let slot := fun n => fo.filterMap fun d => if (s.op c d.work.ctx.op).src.slot == n then some d.work else none
    { s.modCore c (fun k => { k with ready := [], sched := k.sched.filter fun d => !fo.contains d }) with
      todo := s.todo ++ (if start.isEmpty then slot 5 ++ slot 6 ++ k.ready else
        k.ready.filter (·.instr != .tileMoverGroup) ++ start ++ slot 5 ++ slot 6 ++ k.ready.filter (·.instr == .tileMoverGroup)) }) s

/-- Part 5: bundles that issue. -/
def State.issueWorks (s : State) : List Work :=
  s.begun.flatMap fun c =>
    let k := s.core c
    match k.seq with
    | .issue n => if n ≤ k.cyc && k.inTask then [onCore c .bundleIssue] else []
    | _ => []

/-- Part 6: declared lengths, budgets and gate ticks that pass (01_machine.md R19, R20, R23); a wait beside a TEND is bounded by the
budget of the task that has ended (06_vector.md R178). -/
def State.boundWorks (s : State) : List Work :=
  (s.begun.flatMap fun c =>
    let k := s.core c
    let t := k.tasks.getD (if k.inTask then k.taskIx else k.taskIx - 1) {}
    if !k.inTask then (if !k.waits.isEmpty && k.lcyc == t.budget.toNat then [onCore c .budgetExpiry] else [])
    else if !k.elastic && t.len != 0xFFFFFFFF && k.lcyc == t.len.toNat then [onCore c .lengthExpiry]
    else if k.lcyc == t.budget.toNat then [onCore c .budgetExpiry]
    else []) ++
  s.cores.flatMap fun e =>
    match e.2.run, e.2.gate with
    | some r, some g =>
      if (s.run r).st == .live && decide (g.g ≤ s.runTick r) && e.2.faulted.isNone then [onCore e.1 .gateTick] else []
    | _, _ => []

/-- Part 9: requests served in guest windows, and packets delivered (10_channels.md R254, 12_order.md R300). -/
def State.guestWorks (s : State) : List Work :=
  (s.fars.filterMap fun e => if e.2.any (s.farDue e.1) then some (onReq e.1 .guestAccess) else none) ++
  s.parts.flatMap fun e => e.2.queues.filterMap fun q =>
    if (s.delivery e.1 q.1).isSome || (s.queueReady e.1 q.1).isSome then
      some ({ ctx := { part := e.1, idx := q.1 }, instr := .queueDelivery } : Work) else none

/-- Part 10: what is due on the engines of the cores that began a cycle, C1's operations after those of the other slots
(10_channels.md R247), and the cores' expectations, the last first. -/
def State.engineWorks (s : State) : State :=
  s.begun.foldl (fun s c =>
    let k := s.core c
    let now := k.sched.filter fun d => decide (d.due ≤ k.cyc)
    let second := fun (d : Due) => (Table.get none k.ops d.work.ctx.op).any fun o => o.src.slot == 6
    let due := now.filter (!second ·) ++ now.filter second
    let exps := ((List.range k.expects.length).filter fun i => decide ((k.expects.getD i {}).e ≤ k.cyc)).reverse
    let checks := exps.map fun i => ({ ctx := { core := c, idx := i }, instr := .expectationCheck } : Work)
    let steps := (due.filter fun d => d.work.instr != .runRestart).filterMap fun d =>
      ((Table.get none k.ops d.work.ctx.op).map fun o => (d.work, o))
    { s.modCore c (fun k => { k with sched := k.sched.filter fun d => !decide (d.due ≤ k.cyc), engSteps := steps }) with
      todo := s.todo ++ due.map Due.work ++ checks }) s

/-- Part 15: launch queues whose next entry the controller takes (19_host.md R401, R402). -/
def State.launchWorks (s : State) : List Work :=
  s.vfs.filterMap fun e =>
    if e.2.dues.head?.any (fun t => decide (t ≤ s.tick)) && e.2.room && e.2.waiting.isEmpty then
      some ({ ctx := { vf := e.1 }, instr := .lastTaken } : Work)
    else none

/-- The steps of a list that are due at the present tick, and the others. -/
def State.dueNow (s : State) (l : List Due) : List Work × List Due :=
  ((l.filter fun d => decide (d.due ≤ s.tick)).map (·.work), l.filter fun d => !decide (d.due ≤ s.tick))

/-- The dark intervals that begin with the present tick (15_light.md R355). -/
def State.darkWorks (s : State) : State × List Work :=
  let dark := fun (d : Due) => d.work.instr == .reconfigDarkStart && decide (d.due ≤ s.tick)
  ({ s with agenda := s.agenda.filter (!dark ·) }, (s.agenda.filter dark).map (·.work))

/-- What reaches the device now, and the requests to the device controller that it takes (19_host.md R405). -/
def State.hostWorks (s : State) : List Work × List Due :=
  let due := fun (d : Due) => decide (d.due ≤ s.tick)
  let (w, l) := s.takeRequests (s.inbox.filter due) [] []
  (w, l ++ s.inbox.filter (!due ·))

/-- The SLEWs whose step the tick generator has made receive OFF (14_time_power.md R316). -/
def Core.slewed (off : Int) (k : Core) : Core :=
  { k with waits := k.waits.map fun w => if w.stepped && w.ans.isNone then { w with ans := some (BitVec.ofInt 64 off) } else w }

/-- The next tick; a forward step of the tick generator leaves one out, and OFF moves at the end of the tick (14_time_power.md
R316). The tick is not bounded: what PCC does past 2^64 − 1 the spec does not say, and there a read of it wraps while WAIT.pcc, T0
and gates compare the tick itself (00_scope.md R1; DESIGN CHOICE, log 1). -/
def State.nextTick (s : State) : State :=
  let off := clampOff (s.podoff + 16 * s.slew)
  let s := s.mapCores (Core.slewed off)
  { s with tick := s.tick + (if 0 < s.slew then 2 else 1), podoff := off, slew := 0, sub := 0 }

/-- One part of the tick: what it makes due goes to `todo`. -/
def State.advance (s : State) : State :=
  let next := { s with sub := s.sub + 1 }
  match s.sub with
  | 0 =>
    let (s, dark) := next.publishHours.retireReady.beginTests.darkWorks
    { s with todo := dark ++ s.railWorks ++ s.testWorks }
  | 1 => { next with todo := s.endWorks }
  | 2 =>
    let s := (List.range 4).foldl State.followVotes next.noteYields
    { s with todo := s.runWorks }
  | 3 => { next with todo := s.waitWorks }
  | 4 => next.beginCycles
  | 5 => { next with todo := s.issueWorks }
  | 6 => { next with todo := s.boundWorks }
  | 7 => { next with todo := s.activeChans.flatMap s.chanEvents }
  | 8 => s.activeChans.foldl State.chanCommands next
  | 9 => { next with todo := s.guestWorks }
  | 10 => { next with pendMark := s.pend.length }.engineWorks
  | 11 => { next with todo := if s.tick / 80 ≠ s.slotNow then [{ instr := .slotBoundary }] else [] }
  | 12 => next.laneWorks
  | 13 => { next with todo := s.wireWorks }
  | 14 => { next with todo := s.landWorks }
  | 15 => { next with todo := s.launchWorks }
  | 16 =>
    let (w, l) := s.dueNow s.agenda
    { next with todo := w, agenda := l }
  | 17 =>
    let (w, l) := s.hostWorks
    { next with todo := w, inbox := l }
  | _ => ((List.range 4).foldl State.fallVotes s.stripeEnd).nextTick

end Sys2Proof.Machine
end

