-- ==== Sys2Proof/Machine/VecMove.lean ====
section
/-! DEFINITION. Moving lanes, reductions, lanes to scalars, lane masks and conditional streams (06_vector.md R169 to R173,
R180 to R184). -/

namespace Sys2Proof.Machine

/-! ## Moving lanes, R169, R170 -/

/-- VMOV. -/
def execVmov (f : VOne) (s : State) : Out :=
  ok (s.withB f.t f.b fun s b => s.putLanes 1 f.t f.vd f.q fun i => (b.getD i 0, 0))
/-- VSEL: the mask `qs` chooses A or B. -/
def execVsel (f : VBin) (qs : QReg) (s : State) : Out :=
  ok (s.withB f.t f.b fun s b =>
    let a := s.lanesV f.t f.va
    let m := s.me.qr qs
    s.putLanes 1 f.t f.vd f.q fun i => (if m.getLsbD i then a.getD i 0 else b.getD i 0, 0))
/-- VIOTA. -/
def execViota (f : VOne) (s : State) : Out :=
  ok (s.withB f.t f.b fun s b => s.putLanes 1 f.t f.vd f.q fun i => ((b.getD i 0 + i) % 2 ^ f.t.bits, 0))
/-- PERM. -/
def execPerm (f : VBin) (s : State) : Out :=
  ok (s.withB f.t f.b fun s b =>
    let a := s.lanesV f.t f.va
    s.putLanes 2 f.t f.vd f.q fun i => (a.getD (b.getD i 0 % f.t.lanes) 0, 0))
/-- ROTL. -/
def execRotl (f : VUn) (imm : BitVec 8) (s : State) : Out :=
  let a := s.lanesV f.t f.va
  ok (s.putLanes 2 f.t f.vd f.q fun i => (a.getD ((i + imm.toNat) % f.t.lanes) 0, 0))
/-- BCAST. -/
def execBcast (f : VUn) (imm : BitVec 8) (s : State) : Out :=
  let a := s.lanesV f.t f.va
  ok (s.putLanes 2 f.t f.vd f.q fun _ => (a.getD imm.toNat 0, 0))
/-- ZIP. -/
def execZip (f : VZip) (s : State) : Out :=
  ok (s.withB f.t f.vb fun s b =>
    let a := s.lanesV f.t f.va
    let o := f.h.toNat * (f.t.lanes / 2)
    s.putLanes 2 f.t f.vd f.q fun i => ((if i % 2 = 0 then a else b).getD (o + i / 2) 0, 0))
/-- UNZIP. -/
def execUnzip (f : VZip) (s : State) : Out :=
  ok (s.withB f.t f.vb fun s b =>
    let a := s.lanesV f.t f.va
    let n := f.t.lanes / 2
    s.putLanes 2 f.t f.vd f.q fun i => ((if i < n then a else b).getD (2 * (i % n) + f.h.toNat) 0, 0))

/-! ## Reductions and scan, R171, R172 -/

/-- One level of the tree: neighbours combine, a lone active input passes (03_numbers.md R91, 06_vector.md R171). -/
def treeLevel {α : Type} (g : α → α → α × Fl) : List (Option α) → List (Option α) × Fl
  | some x :: some y :: r =>
    let (v, f) := g x y
    let (l, h) := treeLevel g r
    (some v :: l, f ||| h)
  | some x :: none :: r => let (l, h) := treeLevel g r; (some x :: l, h)
  | none :: y :: r => let (l, h) := treeLevel g r; (y :: l, h)
  | [x] => ([x], 0)
  | [] => ([], 0)

/-- The tree of `n` levels, 03_numbers.md R91. -/
def tree {α : Type} (g : α → α → α × Fl) : Nat → List (Option α) → Option α × Fl
  | 0, l => (l.headD none, 0)
  | n + 1, l =>
    let (m, f) := treeLevel g l
    let (v, h) := tree g n m
    (v, f ||| h)

/-- Levels of the tree over the lanes of a type. -/
def treeDepth (t : VTy) : Nat := Nat.log2 t.lanes

/-- RSUM's node, 06_vector.md Table 6.7. -/
def sumNode (t : VTy) (rm : Rm) (x y : Nat) : Nat × Fl := if t.isFp then fpAdd t rm x y else intOp t (· + ·) x y
/-- RMIN's and RMAX's node. -/
def minMaxNode (t : VTy) (max_ : Bool) (x y : Nat) : Nat × Fl :=
  if t.isFp then fpMinMax t max_ x y else if max_ then intOp t max x y else intOp t min x y

/-- The active lanes of a register. -/
def State.activeOf (s : State) (t : VTy) (va : VReg) (q : QReg) : List (Option Nat) :=
  List.zipWith (fun (b : Bool) v => if b then some v else none) (s.lanesQ t q) (s.lanesV t va)

/-- Reduces the active lanes and writes the result, `e` when there is none, to every lane at c0 + 7. -/
def State.reduce (s : State) (f : VUn) (e : Nat) (g : Nat → Nat → Nat × Fl) : State :=
  let (v, fl) := tree g (treeDepth f.t) (s.activeOf f.t f.va f.q)
  (s.deferLanes 7 f.t f.vd (List.replicate f.t.lanes (some (v.getD e)))).deferFlags 7 fl

/-- RSUM. -/
def execRsum (f : VUn) (s : State) : Out := ok (s.reduce f 0 (sumNode f.t s.rm))
/-- RMIN. -/
def execRmin (f : VUn) (s : State) : Out :=
  ok (s.reduce f (if f.t.isFp then (laneIeee f.t).infOf false else wrapInt f.t.bits (intMax f.t.isSint f.t.bits))
    (minMaxNode f.t false))
/-- RMAX. -/
def execRmax (f : VUn) (s : State) : Out :=
  ok (s.reduce f (if f.t.isFp then (laneIeee f.t).infOf true else wrapInt f.t.bits (intMin f.t.isSint f.t.bits))
    (minMaxNode f.t true))

/-- The left value stands unless the right is less; NaN is greater than every number (06_vector.md Table 6.7). -/
def miniNode (t : VTy) (x y : Nat × Nat) : (Nat × Nat) × Fl :=
  if t.isFp then
    let a := fpNum t x.1
    let b := fpNum t y.1
    let less := !b.isNan && (a.isNan || b.cmp a == some .lt)
    (if less then y else x, sigFl [a, b])
  else (if intOf t.isSint t.bits y.1 < intOf t.isSint t.bits x.1 then y else x, 0)

/-- RMINI. -/
def execRmini (f : VUn) (s : State) : Out :=
  let l := ((s.activeOf f.t f.va f.q).zipIdx).map fun e => e.1.map fun v => (v, e.2)
  let (v, fl) := tree (miniNode f.t) (treeDepth f.t) l
  let r := match v with
    | some x => x.2
    | none => 2 ^ f.t.bits - 1
  ok ((s.deferLanes 7 f.t f.vd (List.replicate f.t.lanes (some r))).deferFlags 7 fl)

/-- The inclusive running sum in lane order, 06_vector.md R172. -/
def scanGo (g : Nat → Nat → Nat × Fl) : Option Nat → List (Option Nat) → List (Option Nat) × Fl
  | _, [] => ([], 0)
  | run, none :: r => let (l, f) := scanGo g run r; (none :: l, f)
  | none, some v :: r => let (l, f) := scanGo g (some v) r; (some v :: l, f)
  | some a, some v :: r =>
    let (w, h) := g a v
    let (l, f) := scanGo g (some w) r
    (some w :: l, f ||| h)

/-- SCAN. -/
def execScan (f : VUn) (s : State) : Out :=
  let (l, fl) := scanGo (sumNode f.t s.rm) none (s.activeOf f.t f.va f.q)
  ok ((s.deferLanes 7 f.t f.vd l).deferFlags 7 fl)

/-! ## Lanes to scalars, R173 -/

/-- VEXT. -/
def execVext (t : VTy) (xd : XReg) (va : VReg) (i : BitVec 8) (_q : QReg) (s : State) : Out :=
  ok (s.deferX 2 xd (extend t.isSint t.bytes ((s.lanesV t va).getD i.toNat 0)))
/-- VINS. -/
def execVins (f : VOne) (i : BitVec 8) (s : State) : Out :=
  ok (s.withB f.t f.b fun s b =>
    let on := (s.me.qr f.q).getLsbD i.toNat
    s.deferLanes 1 f.t f.vd ((List.range f.t.lanes).map fun j =>
      if j = i.toNat && on then some (b.getD j 0) else none))

/-! ## Lane masks, R184 -/

/-- QAND. -/
def execQand (qd qa qb : QReg) (s : State) : Out := ok (s.defer 0 (.q s.ctx.core qd (s.me.qr qa &&& s.me.qr qb)))
/-- QOR. -/
def execQor (qd qa qb : QReg) (s : State) : Out := ok (s.defer 0 (.q s.ctx.core qd (s.me.qr qa ||| s.me.qr qb)))
/-- QXOR. -/
def execQxor (qd qa qb : QReg) (s : State) : Out := ok (s.defer 0 (.q s.ctx.core qd (s.me.qr qa ^^^ s.me.qr qb)))
/-- QNOT. -/
def execQnot (qd qa : QReg) (s : State) : Out := ok (s.defer 0 (.q s.ctx.core qd (~~~ (s.me.qr qa))))
/-- QPOP (mask). -/
def execQpopMask (t : VTy) (xd : XReg) (qa : QReg) (s : State) : Out :=
  ok (s.deferX 0 xd (BitVec.ofNat 64 (popCount t.lanes (s.me.qr qa).toNat)))
/-- QFIRST. -/
def execQfirst (t : VTy) (xd : XReg) (qa : QReg) (s : State) : Out :=
  ok (s.deferX 0 xd (BitVec.ofNat 64 (lowBit t.lanes (s.me.qr qa).toNat)))
/-- QANY. -/
def execQany (t : VTy) (pd : PReg) (qa : QReg) (s : State) : Out :=
  ok (s.deferP pd ((s.me.qr qa).toNat % 2 ^ t.lanes != 0))

/-! ## Conditional streams, R180 to R183 -/

/-- Ring size of a stream buffer, 06_vector.md R180. -/
def ringBytes : Nat := 16384

/-- Pool address of byte `o` of stream buffer `k`'s ring. -/
def Core.ringAt (k : Core) (b o : Nat) : Nat := k.carve.sb + ringBytes * b + o % ringBytes

/-- Head and count of stream buffer `b`. -/
def Core.stream (k : Core) (b : Nat) : Nat × Nat := Table.get (0, 0) k.streams b

/-- Writes bytes into the ring from offset `o`, in two pieces where it wraps. -/
def State.ringWrite (s : State) (b o : Nat) (bs : List Byte) : State :=
  let n := ringBytes - o % ringBytes
  let c := s.ctx.core
  let s := s.defer 0 (.pool c (s.me.ringAt b o) (someBytes (bs.take n)) false)
  if bs.length ≤ n then s else s.defer 0 (.pool c (s.me.ringAt b 0) (someBytes (bs.drop n)) false)

/-- SPUSH. Word 2 of POOL_BOUNDS is the address of the ring's tail, where the first lane would go (16_faults.md Table 16.3 names
no address for a ring; DESIGN CHOICE, log 27). -/
def execSpush (t : VTy) (va : VReg) (k : BitVec 2) (q : QReg) (s : State) : Out :=
  let (h, n) := s.me.stream k.toNat
  let bs := bytesOf t.bytes ((s.activeOf t va q).filterMap id)
  if ringBytes < n + bs.length then ok (s.raise .poolBounds (BitVec.ofNat 64 (s.me.ringAt k.toNat (h + n))) 0)
  else
    let s := if bs.isEmpty then s else s.ringWrite k.toNat (h + n) bs
    ok (s.defer 0 (.stream s.ctx.core k.toNat h (n + bs.length)))

/-- SPOP. -/
def execSpop (t : VTy) (vd : VReg) (qd : QReg) (k : BitVec 2) (s : State) : Out :=
  let c := s.ctx.core
  let (h, n) := s.me.stream k.toNat
  let m := min t.lanes (n / t.bytes)
  let bs := (List.range (m * t.bytes)).flatMap fun j => s.poolRead c (s.me.ringAt k.toNat (h + j)) 1
  let ls := lanesOf t.bytes bs
  let s := s.deferLanes 5 t vd ((List.range t.lanes).map fun i => if i < m then ls[i]? else none)
  let s := s.defer 5 (.q c qd (BitVec.ofNat 256 (2 ^ m - 1)))
  ok (s.defer 0 (.stream c k.toNat ((h + m * t.bytes) % ringBytes) (n - m * t.bytes)))

/-- SCNT. Its lane mask is not looked at (R160 lists SPOP and the mask forms alone as needing q0; DESIGN CHOICE, log 28). -/
def execScnt (t : VTy) (xd : XReg) (k : BitVec 2) (_q : QReg) (s : State) : Out :=
  ok (s.deferX 0 xd (BitVec.ofNat 64 ((s.me.stream k.toNat).2 / t.bytes)))

end Sys2Proof.Machine
end

