-- ==== Sys2Proof/Machine/Dispatch.lean ====
section
/-! DEFINITION. The meaning of every instruction: one arm for each constructor of `Instr`. -/

namespace Sys2Proof.Machine

/-- Runs one instruction in the context of `s.ctx`. -/
def exec (i : Instr) (s : State) : Host.Outcome State Fault Refusal :=
  match i with
  | .lqTailWrite a0 a1 => Sys2Proof.Machine.execLqTailWrite a0 a1 s
  | .cqHeadWrite a0 a1 => Sys2Proof.Machine.execCqHeadWrite a0 a1 s
  | .hostRegisterWrite a0 a1 a2 => Sys2Proof.Machine.execHostRegisterWrite a0 a1 a2 s
  | .armMessage a0 a1 => Sys2Proof.Machine.execArmMessage a0 a1 s
  | .abortNotice a0 a1 => Sys2Proof.Machine.execAbortNotice a0 a1 s
  | .add a0 a1 a2 => Sys2Proof.Machine.execAdd a0 a1 a2 s
  | .addi a0 a1 a2 => Sys2Proof.Machine.execAddi a0 a1 a2 s
  | .sub a0 a1 a2 => Sys2Proof.Machine.execSub a0 a1 a2 s
  | .subi a0 a1 a2 => Sys2Proof.Machine.execSubi a0 a1 a2 s
  | .mul a0 a1 a2 => Sys2Proof.Machine.execMul a0 a1 a2 s
  | .muli a0 a1 a2 => Sys2Proof.Machine.execMuli a0 a1 a2 s
  | .mulh a0 a1 a2 a3 => Sys2Proof.Machine.execMulh a0 a1 a2 a3 s
  | .div a0 a1 a2 a3 => Sys2Proof.Machine.execDiv a0 a1 a2 a3 s
  | .rem a0 a1 a2 a3 => Sys2Proof.Machine.execRem a0 a1 a2 a3 s
  | .and a0 a1 a2 => Sys2Proof.Machine.execAnd a0 a1 a2 s
  | .andi a0 a1 a2 => Sys2Proof.Machine.execAndi a0 a1 a2 s
  | .or a0 a1 a2 => Sys2Proof.Machine.execOr a0 a1 a2 s
  | .ori a0 a1 a2 => Sys2Proof.Machine.execOri a0 a1 a2 s
  | .xor a0 a1 a2 => Sys2Proof.Machine.execXor a0 a1 a2 s
  | .xori a0 a1 a2 => Sys2Proof.Machine.execXori a0 a1 a2 s
  | .andn a0 a1 a2 => Sys2Proof.Machine.execAndn a0 a1 a2 s
  | .shl a0 a1 a2 => Sys2Proof.Machine.execShl a0 a1 a2 s
  | .shli a0 a1 a2 => Sys2Proof.Machine.execShli a0 a1 a2 s
  | .shr a0 a1 a2 => Sys2Proof.Machine.execShr a0 a1 a2 s
  | .shri a0 a1 a2 => Sys2Proof.Machine.execShri a0 a1 a2 s
  | .sha a0 a1 a2 => Sys2Proof.Machine.execSha a0 a1 a2 s
  | .shai a0 a1 a2 => Sys2Proof.Machine.execShai a0 a1 a2 s
  | .rot a0 a1 a2 => Sys2Proof.Machine.execRot a0 a1 a2 s
  | .roti a0 a1 a2 => Sys2Proof.Machine.execRoti a0 a1 a2 s
  | .min a0 a1 a2 a3 => Sys2Proof.Machine.execMin a0 a1 a2 a3 s
  | .max a0 a1 a2 a3 => Sys2Proof.Machine.execMax a0 a1 a2 a3 s
  | .clz a0 a1 => Sys2Proof.Machine.execClz a0 a1 s
  | .ctz a0 a1 => Sys2Proof.Machine.execCtz a0 a1 s
  | .popc a0 a1 => Sys2Proof.Machine.execPopc a0 a1 s
  | .bfx a0 a1 a2 a3 a4 => Sys2Proof.Machine.execBfx a0 a1 a2 a3 a4 s
  | .bfi a0 a1 a2 a3 => Sys2Proof.Machine.execBfi a0 a1 a2 a3 s
  | .sel a0 a1 a2 a3 => Sys2Proof.Machine.execSel a0 a1 a2 a3 s
  | .cmp a0 a1 a2 a3 => Sys2Proof.Machine.execCmp a0 a1 a2 a3 s
  | .cmpi a0 a1 a2 a3 => Sys2Proof.Machine.execCmpi a0 a1 a2 a3 s
  | .li a0 a1 a2 => Sys2Proof.Machine.execLi a0 a1 a2 s
  | .lih a0 a1 => Sys2Proof.Machine.execLih a0 a1 s
  | .lea a0 a1 a2 a3 a4 => Sys2Proof.Machine.execLea a0 a1 a2 a3 a4 s
  | .pand a0 a1 a2 a3 a4 => Sys2Proof.Machine.execPand a0 a1 a2 a3 a4 s
  | .por a0 a1 a2 a3 a4 => Sys2Proof.Machine.execPor a0 a1 a2 a3 a4 s
  | .pxor a0 a1 a2 a3 a4 => Sys2Proof.Machine.execPxor a0 a1 a2 a3 a4 s
  | .pnot a0 a1 => Sys2Proof.Machine.execPnot a0 a1 s
  | .pmov a0 a1 => Sys2Proof.Machine.execPmov a0 a1 s
  | .pmovGet a0 => Sys2Proof.Machine.execPmovGet a0 s
  | .pmovPut a0 => Sys2Proof.Machine.execPmovPut a0 s
  | .ld a0 a1 a2 a3 a4 => Sys2Proof.Machine.execLd a0 a1 a2 a3 a4 s
  | .st a0 a1 a2 a3 => Sys2Proof.Machine.execSt a0 a1 a2 a3 s
  | .ldk a0 a1 a2 a3 a4 => Sys2Proof.Machine.execLdk a0 a1 a2 a3 a4 s
  | .ldf a0 a1 a2 a3 a4 a5 => Sys2Proof.Machine.execLdf a0 a1 a2 a3 a4 a5 s
  | .stf a0 a1 a2 a3 a4 => Sys2Proof.Machine.execStf a0 a1 a2 a3 a4 s
  | .amo a0 a1 a2 a3 a4 a5 => Sys2Proof.Machine.execAmo a0 a1 a2 a3 a4 a5 s
  | .amol a0 a1 a2 a3 a4 a5 => Sys2Proof.Machine.execAmol a0 a1 a2 a3 a4 a5 s
  | .fence a0 a1 a2 => Sys2Proof.Machine.execFence a0 a1 a2 s
  | .br a0 a1 => Sys2Proof.Machine.execBr a0 a1 s
  | .bri a0 => Sys2Proof.Machine.execBri a0 s
  | .call a0 a1 a2 => Sys2Proof.Machine.execCall a0 a1 a2 s
  | .calli a0 a1 => Sys2Proof.Machine.execCalli a0 a1 s
  | .loop a0 a1 a2 a3 a4 a5 => Sys2Proof.Machine.execLoop a0 a1 a2 a3 a4 a5 s
  | .loopi a0 a1 a2 a3 a4 a5 => Sys2Proof.Machine.execLoopi a0 a1 a2 a3 a4 a5 s
  | .rdsr a0 a1 => Sys2Proof.Machine.execRdsr a0 a1 s
  | .wrsr a0 a1 => Sys2Proof.Machine.execWrsr a0 a1 s
  | .rdpod a0 a1 => Sys2Proof.Machine.execRdpod a0 a1 s
  | .slew a0 a1 => Sys2Proof.Machine.execSlew a0 a1 s
  | .phase a0 a1 a2 a3 a4 => Sys2Proof.Machine.execPhase a0 a1 a2 a3 a4 s
  | .wait a0 a1 a2 a3 a4 => Sys2Proof.Machine.execWait a0 a1 a2 a3 a4 s
  | .barArr a0 a1 => Sys2Proof.Machine.execBarArr a0 a1 s
  | .barWait a0 a1 a2 => Sys2Proof.Machine.execBarWait a0 a1 a2 s
  | .barAw a0 a1 => Sys2Proof.Machine.execBarAw a0 a1 s
  | .trap a0 => Sys2Proof.Machine.execTrap a0 s
  | .brk a0 => Sys2Proof.Machine.execBrk a0 s
  | .launch a0 a1 => Sys2Proof.Machine.execLaunch a0 a1 s
  | .tkwait a0 a1 => Sys2Proof.Machine.execTkwait a0 a1 s
  | .pushm a0 a1 => Sys2Proof.Machine.execPushm a0 a1 s
  | .popm a0 a1 => Sys2Proof.Machine.execPopm a0 a1 s
  | .rdfrCore a0 a1 a2 => Sys2Proof.Machine.execRdfrCore a0 a1 a2 s
  | .rdfrCause a0 a1 => Sys2Proof.Machine.execRdfrCause a0 a1 s
  | .thaw a0 => Sys2Proof.Machine.execThaw a0 s
  | .abort a0 => Sys2Proof.Machine.execAbort a0 s
  | .wfld a0 a1 a2 => Sys2Proof.Machine.execWfld a0 a1 a2 s
  | .fadd a0 => Sys2Proof.Machine.execFadd a0 s
  | .fsub a0 => Sys2Proof.Machine.execFsub a0 s
  | .fmul a0 => Sys2Proof.Machine.execFmul a0 s
  | .fma a0 => Sys2Proof.Machine.execFma a0 s
  | .fms a0 => Sys2Proof.Machine.execFms a0 s
  | .fnma a0 => Sys2Proof.Machine.execFnma a0 s
  | .fmin a0 => Sys2Proof.Machine.execFmin a0 s
  | .fmax a0 => Sys2Proof.Machine.execFmax a0 s
  | .fabs a0 => Sys2Proof.Machine.execFabs a0 s
  | .fneg a0 => Sys2Proof.Machine.execFneg a0 s
  | .fcmp a0 => Sys2Proof.Machine.execFcmp a0 s
  | .frcp a0 => Sys2Proof.Machine.execFrcp a0 s
  | .frsq a0 => Sys2Proof.Machine.execFrsq a0 s
  | .fexp2 a0 => Sys2Proof.Machine.execFexp2 a0 s
  | .flog2 a0 => Sys2Proof.Machine.execFlog2 a0 s
  | .iadd a0 => Sys2Proof.Machine.execIadd a0 s
  | .isub a0 => Sys2Proof.Machine.execIsub a0 s
  | .imul a0 => Sys2Proof.Machine.execImul a0 s
  | .imulh a0 => Sys2Proof.Machine.execImulh a0 s
  | .imin a0 => Sys2Proof.Machine.execImin a0 s
  | .imax a0 => Sys2Proof.Machine.execImax a0 s
  | .iabs a0 => Sys2Proof.Machine.execIabs a0 s
  | .vand a0 => Sys2Proof.Machine.execVand a0 s
  | .vor a0 => Sys2Proof.Machine.execVor a0 s
  | .vxor a0 => Sys2Proof.Machine.execVxor a0 s
  | .vshl a0 => Sys2Proof.Machine.execVshl a0 s
  | .vshr a0 => Sys2Proof.Machine.execVshr a0 s
  | .vsha a0 => Sys2Proof.Machine.execVsha a0 s
  | .vpopc a0 => Sys2Proof.Machine.execVpopc a0 s
  | .vclz a0 => Sys2Proof.Machine.execVclz a0 s
  | .icmp a0 => Sys2Proof.Machine.execIcmp a0 s
  | .iadds a0 => Sys2Proof.Machine.execIadds a0 s
  | .isubs a0 => Sys2Proof.Machine.execIsubs a0 s
  | .vmov a0 => Sys2Proof.Machine.execVmov a0 s
  | .cvt a0 => Sys2Proof.Machine.execCvt a0 s
  | .vsel a0 a1 => Sys2Proof.Machine.execVsel a0 a1 s
  | .viota a0 => Sys2Proof.Machine.execViota a0 s
  | .perm a0 => Sys2Proof.Machine.execPerm a0 s
  | .rotl a0 a1 => Sys2Proof.Machine.execRotl a0 a1 s
  | .bcast a0 a1 => Sys2Proof.Machine.execBcast a0 a1 s
  | .zip a0 => Sys2Proof.Machine.execZip a0 s
  | .unzip a0 => Sys2Proof.Machine.execUnzip a0 s
  | .rsum a0 => Sys2Proof.Machine.execRsum a0 s
  | .rmin a0 => Sys2Proof.Machine.execRmin a0 s
  | .rmax a0 => Sys2Proof.Machine.execRmax a0 s
  | .rmini a0 => Sys2Proof.Machine.execRmini a0 s
  | .scan a0 => Sys2Proof.Machine.execScan a0 s
  | .vext a0 a1 a2 a3 a4 => Sys2Proof.Machine.execVext a0 a1 a2 a3 a4 s
  | .vins a0 a1 => Sys2Proof.Machine.execVins a0 a1 s
  | .vhash a0 => Sys2Proof.Machine.execVhash a0 s
  | .vld a0 => Sys2Proof.Machine.execVld a0 s
  | .vst a0 => Sys2Proof.Machine.execVst a0 s
  | .vlds a0 => Sys2Proof.Machine.execVlds a0 s
  | .vsts a0 => Sys2Proof.Machine.execVsts a0 s
  | .vgath a0 => Sys2Proof.Machine.execVgath a0 s
  | .vscat a0 => Sys2Proof.Machine.execVscat a0 s
  | .vgathk a0 a1 a2 => Sys2Proof.Machine.execVgathk a0 a1 a2 s
  | .spush a0 a1 a2 a3 => Sys2Proof.Machine.execSpush a0 a1 a2 a3 s
  | .spop a0 a1 a2 a3 => Sys2Proof.Machine.execSpop a0 a1 a2 a3 s
  | .scnt a0 a1 a2 a3 => Sys2Proof.Machine.execScnt a0 a1 a2 a3 s
  | .qand a0 a1 a2 => Sys2Proof.Machine.execQand a0 a1 a2 s
  | .qor a0 a1 a2 => Sys2Proof.Machine.execQor a0 a1 a2 s
  | .qxor a0 a1 a2 => Sys2Proof.Machine.execQxor a0 a1 a2 s
  | .qnot a0 a1 => Sys2Proof.Machine.execQnot a0 a1 s
  | .qpopMask a0 a1 a2 => Sys2Proof.Machine.execQpopMask a0 a1 a2 s
  | .qfirst a0 a1 a2 => Sys2Proof.Machine.execQfirst a0 a1 a2 s
  | .qany a0 a1 a2 => Sys2Proof.Machine.execQany a0 a1 a2 s
  | .mma a0 a1 a2 a3 a4 => Sys2Proof.Machine.execMma a0 a1 a2 a3 a4 s
  | .mmat a0 a1 a2 a3 a4 => Sys2Proof.Machine.execMmat a0 a1 a2 a3 a4 s
  | .mzero a0 a1 => Sys2Proof.Machine.execMzero a0 a1 s
  | .mld a0 a1 a2 a3 => Sys2Proof.Machine.execMld a0 a1 a2 a3 s
  | .mst a0 a1 a2 => Sys2Proof.Machine.execMst a0 a1 a2 s
  | .macs a0 a1 a2 => Sys2Proof.Machine.execMacs a0 a1 a2 s
  | .mcvt a0 a1 a2 a3 a4 => Sys2Proof.Machine.execMcvt a0 a1 a2 a3 a4 s
  | .mlda a0 a1 a2 => Sys2Proof.Machine.execMlda a0 a1 a2 s
  | .mtrn a0 a1 => Sys2Proof.Machine.execMtrn a0 a1 s
  | .zscla a0 a1 => Sys2Proof.Machine.execZscla a0 a1 s
  | .zsclb a0 a1 => Sys2Proof.Machine.execZsclb a0 a1 s
  | .ztab a0 a1 => Sys2Proof.Machine.execZtab a0 a1 s
  | .zfmt a0 a1 => Sys2Proof.Machine.execZfmt a0 a1 s
  | .zfsel a0 a1 a2 => Sys2Proof.Machine.execZfsel a0 a1 a2 s
  | .cpl a0 => Sys2Proof.Machine.execCpl a0 s
  | .cpv a0 => Sys2Proof.Machine.execCpv a0 s
  | .cpi a0 => Sys2Proof.Machine.execCpi a0 s
  | .dtab a0 a1 => Sys2Proof.Machine.execDtab a0 a1 s
  | .spb a0 => Sys2Proof.Machine.execSpb a0 s
  | .fla a0 => Sys2Proof.Machine.execFla a0 s
  | .chr a0 => Sys2Proof.Machine.execChr a0 s
  | .chw a0 => Sys2Proof.Machine.execChw a0 s
  | .act a0 a1 a2 => Sys2Proof.Machine.execAct a0 a1 a2 s
  | .rd a0 a1 a2 a3 => Sys2Proof.Machine.execRd a0 a1 a2 a3 s
  | .wr a0 a1 a2 a3 => Sys2Proof.Machine.execWr a0 a1 a2 a3 s
  | .pre a0 a1 => Sys2Proof.Machine.execPre a0 a1 s
  | .refpb a0 a1 => Sys2Proof.Machine.execRefpb a0 a1 s
  | .sealrd a0 a1 a2 => Sys2Proof.Machine.execSealrd a0 a1 a2 s
  | .sealwr a0 a1 a2 => Sys2Proof.Machine.execSealwr a0 a1 a2 s
  | .parrmw a0 => Sys2Proof.Machine.execParrmw a0 s
  | .gopen a0 => Sys2Proof.Machine.execGopen a0 s
  | .fetch a0 a1 a2 => Sys2Proof.Machine.execFetch a0 a1 a2 s
  | .rdLanding a0 a1 a2 a3 => Sys2Proof.Machine.execRdLanding a0 a1 a2 a3 s
  | .cobLdw a0 a1 => Sys2Proof.Machine.execCobLdw a0 a1 s
  | .cobStw a0 a1 => Sys2Proof.Machine.execCobStw a0 a1 s
  | .cobAdd a0 a1 a2 => Sys2Proof.Machine.execCobAdd a0 a1 a2 s
  | .cobSub a0 a1 a2 => Sys2Proof.Machine.execCobSub a0 a1 a2 s
  | .cobAnd a0 a1 a2 => Sys2Proof.Machine.execCobAnd a0 a1 a2 s
  | .cobOr a0 a1 a2 => Sys2Proof.Machine.execCobOr a0 a1 a2 s
  | .cobXor a0 a1 a2 => Sys2Proof.Machine.execCobXor a0 a1 a2 s
  | .cobMins a0 a1 a2 => Sys2Proof.Machine.execCobMins a0 a1 a2 s
  | .cobMaxs a0 a1 a2 => Sys2Proof.Machine.execCobMaxs a0 a1 a2 s
  | .cobMinn a0 a1 a2 => Sys2Proof.Machine.execCobMinn a0 a1 a2 s
  | .cobMaxn a0 a1 a2 => Sys2Proof.Machine.execCobMaxn a0 a1 a2 s
  | .cobCeq a0 a1 => Sys2Proof.Machine.execCobCeq a0 a1 s
  | .cobSkipT a0 => Sys2Proof.Machine.execCobSkipT a0 s
  | .cobSkipF a0 => Sys2Proof.Machine.execCobSkipF a0 s
  | .cobMov a0 a1 => Sys2Proof.Machine.execCobMov a0 a1 s
  | .cobMovi a0 a1 => Sys2Proof.Machine.execCobMovi a0 a1 s
  | .cobRet a0 => Sys2Proof.Machine.execCobRet a0 s
  | .qapp a0 a1 a2 => Sys2Proof.Machine.execQapp a0 a1 a2 s
  | .lsend a0 => Sys2Proof.Machine.execLsend a0 s
  | .lrecv a0 a1 a2 => Sys2Proof.Machine.execLrecv a0 a1 a2 s
  | .qsend a0 => Sys2Proof.Machine.execQsend a0 s
  | .qpopCask a0 a1 a2 => Sys2Proof.Machine.execQpopCask a0 a1 a2 s
  | .esend a0 a1 a2 a3 => Sys2Proof.Machine.execEsend a0 a1 a2 a3 s
  | .emcast a0 a1 a2 a3 a4 => Sys2Proof.Machine.execEmcast a0 a1 a2 a3 a4 s
  | .drainMark a0 a1 => Sys2Proof.Machine.execDrainMark a0 a1 s
  | .drainPoll a0 a1 => Sys2Proof.Machine.execDrainPoll a0 a1 s
  | .drainRelease a0 a1 => Sys2Proof.Machine.execDrainRelease a0 a1 s
  | .flitReceive a0 => Sys2Proof.Machine.execFlitReceive a0 s
  | .wireDelivery a0 => Sys2Proof.Machine.execWireDelivery a0 s
  | .beaconUpdate a0 => Sys2Proof.Machine.execBeaconUpdate a0 s
  | .poolUe a0 a1 a2 a3 => Sys2Proof.Machine.execPoolUe a0 a1 a2 a3 s
  | .correctedError a0 => Sys2Proof.Machine.execCorrectedError a0 s
  | .selfTestVerdict a0 a1 => Sys2Proof.Machine.execSelfTestVerdict a0 a1 s
  | .lineFailure a0 a1 => Sys2Proof.Machine.execLineFailure a0 a1 s
  | .combFailure a0 => Sys2Proof.Machine.execCombFailure a0 s
  | .partitionCreateDelete a0 a1 a2 => Sys2Proof.Machine.execPartitionCreateDelete a0 a1 a2 s
  | .vfBind a0 a1 a2 => Sys2Proof.Machine.execVfBind a0 a1 a2 s
  | .setPageTableRoot a0 a1 a2 a3 => Sys2Proof.Machine.execSetPageTableRoot a0 a1 a2 a3 s
  | .loadHandlerTable a0 a1 a2 => Sys2Proof.Machine.execLoadHandlerTable a0 a1 a2 s
  | .loadRackingTable a0 a1 a2 a3 => Sys2Proof.Machine.execLoadRackingTable a0 a1 a2 a3 s
  | .reconfigurePlane a0 a1 a2 a3 a4 a5 => Sys2Proof.Machine.execReconfigurePlane a0 a1 a2 a3 a4 a5 s
  | .setLimits a0 a1 a2 => Sys2Proof.Machine.execSetLimits a0 a1 a2 s
  | .writeMulticastGroup a0 a1 a2 a3 a4 a5 => Sys2Proof.Machine.execWriteMulticastGroup a0 a1 a2 a3 a4 a5 s
  | .pageCountersMigrate a0 a1 a2 => Sys2Proof.Machine.execPageCountersMigrate a0 a1 a2 s
  | .checkpointRestore a0 a1 a2 a3 => Sys2Proof.Machine.execCheckpointRestore a0 a1 a2 a3 s
  | .loadMemoryKey a0 a1 a2 a3 => Sys2Proof.Machine.execLoadMemoryKey a0 a1 a2 a3 s
  | .getCertificate a0 a1 => Sys2Proof.Machine.execGetCertificate a0 a1 s
  | .challenge a0 a1 => Sys2Proof.Machine.execChallenge a0 a1 s
  | .getMeasurements a0 a1 => Sys2Proof.Machine.execGetMeasurements a0 a1 s
  | .keyExchange a0 a1 => Sys2Proof.Machine.execKeyExchange a0 a1 s
  | .parrmwWrite a0 a1 a2 => Sys2Proof.Machine.execParrmwWrite a0 a1 a2 s
  | .linkBringUp a0 a1 a2 => Sys2Proof.Machine.execLinkBringUp a0 a1 a2 s
  | .ideKm a0 a1 a2 a3 => Sys2Proof.Machine.execIdeKm a0 a1 a2 a3 s
  | .laneFloorRequest a0 a1 => Sys2Proof.Machine.execLaneFloorRequest a0 a1 s
  | .powerUp => Sys2Proof.Machine.execPowerUp s
  | .lastTaken => Sys2Proof.Machine.execLastTaken s
  | .runStart => Sys2Proof.Machine.execRunStart s
  | .quorumCheck => Sys2Proof.Machine.execQuorumCheck s
  | .taskStart => Sys2Proof.Machine.execTaskStart s
  | .budgetExpiry => Sys2Proof.Machine.execBudgetExpiry s
  | .lengthExpiry => Sys2Proof.Machine.execLengthExpiry s
  | .gateTick => Sys2Proof.Machine.execGateTick s
  | .bundleIssue => Sys2Proof.Machine.execBundleIssue s
  | .resultWriteback => Sys2Proof.Machine.execResultWriteback s
  | .runFreeze => Sys2Proof.Machine.execRunFreeze s
  | .recoveryStart => Sys2Proof.Machine.execRecoveryStart s
  | .runRestart => Sys2Proof.Machine.execRunRestart s
  | .gangAbortTick => Sys2Proof.Machine.execGangAbortTick s
  | .runEnd => Sys2Proof.Machine.execRunEnd s
  | .preemptRequest => Sys2Proof.Machine.execPreemptRequest s
  | .preemptFreeze => Sys2Proof.Machine.execPreemptFreeze s
  | .yieldGapExpiry => Sys2Proof.Machine.execYieldGapExpiry s
  | .preemptResume => Sys2Proof.Machine.execPreemptResume s
  | .nop => Sys2Proof.Machine.execNop s
  | .vnop => Sys2Proof.Machine.execVnop s
  | .mnop => Sys2Proof.Machine.execMnop s
  | .znop => Sys2Proof.Machine.execZnop s
  | .cnop => Sys2Proof.Machine.execCnop s
  | .tend => Sys2Proof.Machine.execTend s
  | .mmaResultWrite => Sys2Proof.Machine.execMmaResultWrite s
  | .followOnIssue => Sys2Proof.Machine.execFollowOnIssue s
  | .copyBeat => Sys2Proof.Machine.execCopyBeat s
  | .decodeContainer => Sys2Proof.Machine.execDecodeContainer s
  | .spillFillGroup => Sys2Proof.Machine.execSpillFillGroup s
  | .chrCollect => Sys2Proof.Machine.execChrCollect s
  | .chwArrival => Sys2Proof.Machine.execChwArrival s
  | .sealVerdict => Sys2Proof.Machine.execSealVerdict s
  | .sealLatchUpdate => Sys2Proof.Machine.execSealLatchUpdate s
  | .prea => Sys2Proof.Machine.execPrea s
  | .ref => Sys2Proof.Machine.execRef s
  | .gclose => Sys2Proof.Machine.execGclose s
  | .gsync => Sys2Proof.Machine.execGsync s
  | .scriptEnd => Sys2Proof.Machine.execScriptEnd s
  | .fetchComplete => Sys2Proof.Machine.execFetchComplete s
  | .epochStart => Sys2Proof.Machine.execEpochStart s
  | .slotAgeExpiry => Sys2Proof.Machine.execSlotAgeExpiry s
  | .keptCopyExpiry => Sys2Proof.Machine.execKeptCopyExpiry s
  | .deltaAgeExpiry => Sys2Proof.Machine.execDeltaAgeExpiry s
  | .refreshInterval => Sys2Proof.Machine.execRefreshInterval s
  | .guestWindowEnd => Sys2Proof.Machine.execGuestWindowEnd s
  | .guestAccess => Sys2Proof.Machine.execGuestAccess s
  | .scriptRunonLimit => Sys2Proof.Machine.execScriptRunonLimit s
  | .handlerRun => Sys2Proof.Machine.execHandlerRun s
  | .translationAnswer => Sys2Proof.Machine.execTranslationAnswer s
  | .farDataReturn => Sys2Proof.Machine.execFarDataReturn s
  | .farStorePerform => Sys2Proof.Machine.execFarStorePerform s
  | .fenceComplete => Sys2Proof.Machine.execFenceComplete s
  | .amoResult => Sys2Proof.Machine.execAmoResult s
  | .waitEnd => Sys2Proof.Machine.execWaitEnd s
  | .launchAnswer => Sys2Proof.Machine.execLaunchAnswer s
  | .barrierFlip => Sys2Proof.Machine.execBarrierFlip s
  | .qappAnswer => Sys2Proof.Machine.execQappAnswer s
  | .queueDelivery => Sys2Proof.Machine.execQueueDelivery s
  | .expectationCheck => Sys2Proof.Machine.execExpectationCheck s
  | .slotBoundary => Sys2Proof.Machine.execSlotBoundary s
  | .countedFlitDepart => Sys2Proof.Machine.execCountedFlitDepart s
  | .wireFlitDepart => Sys2Proof.Machine.execWireFlitDepart s
  | .drainMarkerSend => Sys2Proof.Machine.execDrainMarkerSend s
  | .flitLanding => Sys2Proof.Machine.execFlitLanding s
  | .creditMessage => Sys2Proof.Machine.execCreditMessage s
  | .timekeeperTakeover => Sys2Proof.Machine.execTimekeeperTakeover s
  | .slewStep => Sys2Proof.Machine.execSlewStep s
  | .railWakeComplete => Sys2Proof.Machine.execRailWakeComplete s
  | .voteRiseComplete => Sys2Proof.Machine.execVoteRiseComplete s
  | .clockRecompute => Sys2Proof.Machine.execClockRecompute s
  | .keyFlip => Sys2Proof.Machine.execKeyFlip s
  | .reconfigDarkStart => Sys2Proof.Machine.execReconfigDarkStart s
  | .relockComplete => Sys2Proof.Machine.execRelockComplete s
  | .keyRotationCommit => Sys2Proof.Machine.execKeyRotationCommit s
  | .resealScan => Sys2Proof.Machine.execResealScan s
  | .lockInterface => Sys2Proof.Machine.execLockInterface s
  | .startInterface => Sys2Proof.Machine.execStartInterface s
  | .stopInterface => Sys2Proof.Machine.execStopInterface s
  | .functionLevelReset => Sys2Proof.Machine.execFunctionLevelReset s
  | .getVersion => Sys2Proof.Machine.execGetVersion s
  | .getCapabilities => Sys2Proof.Machine.execGetCapabilities s
  | .negotiateAlgorithms => Sys2Proof.Machine.execNegotiateAlgorithms s
  | .getDigests => Sys2Proof.Machine.execGetDigests s
  | .finish => Sys2Proof.Machine.execFinish s
  | .keyUpdate => Sys2Proof.Machine.execKeyUpdate s
  | .heartbeat => Sys2Proof.Machine.execHeartbeat s
  | .endSession => Sys2Proof.Machine.execEndSession s
  | .armDeadline => Sys2Proof.Machine.execArmDeadline s
  | .arraySample => Sys2Proof.Machine.execArraySample s
  | .tileMoverGroup => Sys2Proof.Machine.execTileMoverGroup s
  | .vaultSample => Sys2Proof.Machine.execVaultSample s
  | .codeImageLoad => Sys2Proof.Machine.execCodeImageLoad s
  | .decodeTableLoad => Sys2Proof.Machine.execDecodeTableLoad s
  | .powerLoss => Sys2Proof.Machine.execPowerLoss s
  | .heartbeatFailure => Sys2Proof.Machine.execHeartbeatFailure s

end Sys2Proof.Machine
end

