-- ==== Sys2Proof/Machine/Step.lean ====
section
/-! DEFINITION. One step of the device: the micro-instruction of a handler in hand, else the next step of the tick, else
the next part of the tick. -/

namespace Sys2Proof.Machine

/-- The first power-up that the outside world will apply. -/
def State.nextPower (s : State) : Option Due := s.inbox.find? fun d => d.work.instr == .powerUp

/-- One step. Without power only a power-up goes on (19_host.md R406). -/
def step (s : State) : Out :=
  if !s.powered then
    match s.nextPower with
    | some d => exec .powerUp { s with inbox := s.inbox.erase d, tick := max s.tick d.due, ctx := d.work.ctx }
    | none => .fault .noPower
  else match s.cob with
    | some c => cobStep s c exec
    | none =>
      match s.todo with
      | w :: r => exec w.instr { s with todo := r, ctx := w.ctx }
      | [] => .next s.advance

/-- `s` with an instruction of `nbits` bits `w` placed where the next step takes its instruction from: 32 bits as word 0 of
handler 0 of partition 0 with the cobbler entered there (12_order.md R292, R293), 64 bits as an S syllable of core 0 in
hand. The device runs programs it is sent (19_host.md R401, 01_machine.md R12); this stands for that load (log 22). -/
def State.withFetchWord (s : State) (nbits w : Nat) : State :=
  if nbits = 32 then
    { (s.modPart 0 fun p => { p with handlers := Table.put p.handlers 0 (BitVec.ofNat 32 w) }) with powered := true, cob := some {} }
  else match decodeTableWord nbits w with
    | some i => { s with powered := true, cob := none, todo := { ctx := { slot := .s }, instr := i } :: s.todo }
    | none => s

end Sys2Proof.Machine
end

