-- ==== Sys2Proof/Laws/Decode.lean ====
section
/-! SUPPORT. The fields of an encoded word: what a field read gives of a concatenation, of each class's packed word, and
of the codes of the operand tables. -/

namespace Sys2Proof

@[simp] theorem bits_all {w : Nat} (x : BitVec w) : bits x 0 w = x := by
  simp [bits]

theorem bits_append_low {m n : Nat} (x : BitVec m) (y : BitVec n) (lo k : Nat) (h : lo + k ≤ n) :
    bits (x ++ y) lo k = bits y lo k := by
  unfold bits
  apply BitVec.eq_of_getLsbD_eq
  intro i hi
  simp only [BitVec.getLsbD_extractLsb', BitVec.getLsbD_append, hi, decide_true, Bool.true_and]
  rw [if_pos (by omega)]

theorem bits_append_high {m n : Nat} (x : BitVec m) (y : BitVec n) (lo k : Nat) (h : n ≤ lo) :
    bits (x ++ y) lo k = bits x (lo - n) k := by
  unfold bits
  apply BitVec.eq_of_getLsbD_eq
  intro i hi
  simp only [BitVec.getLsbD_extractLsb', BitVec.getLsbD_append, hi, decide_true, Bool.true_and]
  rw [if_neg (by omega)]
  congr 1
  omega

/-- A zero field reads zero. -/
@[simp] theorem bits_zero {w lo n : Nat} : bits (0#w) lo n = 0#n := by
  unfold bits
  apply BitVec.eq_of_getLsbD_eq
  intro i hi
  simp

@[simp] theorem SF_of_packS (op : BitVec 8) (d a b : BitVec 5) (v : BitVec 4) (imm : BitVec 32) :
    SF.of (packS op d a b v imm) = { op := op, d := d, a := a, b := b, v := v, imm := imm } := by
  have h : ∀ lo n, bits (packS op d a b v imm) lo n = @bits (8 + 5 + 5 + 5 + 4 + 32) (op ++ d ++ a ++ b ++ v ++ imm) lo n := fun _ _ => rfl
  simp only [SF.of, h, SF.mk.injEq]
  exact
    ⟨(bits_append_high _ _ _ _ (by decide)).trans <| (bits_append_high _ _ _ _ (by decide)).trans <| (bits_append_high _ _ _ _ (by decide)).trans <| (bits_append_high _ _ _ _ (by decide)).trans <| (bits_append_high _ _ _ _ (by decide)).trans <| bits_all _,
      (bits_append_high _ _ _ _ (by decide)).trans <| (bits_append_high _ _ _ _ (by decide)).trans <| (bits_append_high _ _ _ _ (by decide)).trans <| (bits_append_high _ _ _ _ (by decide)).trans <| (bits_append_low _ _ _ _ (by decide)).trans (bits_all _),
      (bits_append_high _ _ _ _ (by decide)).trans <| (bits_append_high _ _ _ _ (by decide)).trans <| (bits_append_high _ _ _ _ (by decide)).trans <| (bits_append_low _ _ _ _ (by decide)).trans (bits_all _),
      (bits_append_high _ _ _ _ (by decide)).trans <| (bits_append_high _ _ _ _ (by decide)).trans <| (bits_append_low _ _ _ _ (by decide)).trans (bits_all _),
      (bits_append_high _ _ _ _ (by decide)).trans <| (bits_append_low _ _ _ _ (by decide)).trans (bits_all _),
      (bits_append_low _ _ _ _ (by decide)).trans (bits_all _)⟩

@[simp] theorem VF_of_packV (op : BitVec 7) (vd va : BitVec 6) (b : BitVec 7) (vc : BitVec 6) (ty : BitVec 4) (q : BitVec 3)
    (imm : BitVec 20) :
    VF.of (packV op vd va b vc ty q imm) = { op := op, vd := vd, va := va, b := b, vc := vc, ty := ty, q := q, imm := imm } := by
  have h : ∀ lo n, bits (packV op vd va b vc ty q imm) lo n = @bits (7 + 6 + 6 + 7 + 6 + 4 + 3 + 20) (op ++ vd ++ va ++ b ++ vc ++ ty ++ q ++ imm) lo n := fun _ _ => rfl
  simp only [VF.of, h, VF.mk.injEq]
  exact
    ⟨(bits_append_high _ _ _ _ (by decide)).trans <| (bits_append_high _ _ _ _ (by decide)).trans <| (bits_append_high _ _ _ _ (by decide)).trans <| (bits_append_high _ _ _ _ (by decide)).trans <| (bits_append_high _ _ _ _ (by decide)).trans <| (bits_append_high _ _ _ _ (by decide)).trans <| (bits_append_high _ _ _ _ (by decide)).trans <| bits_all _,
      (bits_append_high _ _ _ _ (by decide)).trans <| (bits_append_high _ _ _ _ (by decide)).trans <| (bits_append_high _ _ _ _ (by decide)).trans <| (bits_append_high _ _ _ _ (by decide)).trans <| (bits_append_high _ _ _ _ (by decide)).trans <| (bits_append_high _ _ _ _ (by decide)).trans <| (bits_append_low _ _ _ _ (by decide)).trans (bits_all _),
      (bits_append_high _ _ _ _ (by decide)).trans <| (bits_append_high _ _ _ _ (by decide)).trans <| (bits_append_high _ _ _ _ (by decide)).trans <| (bits_append_high _ _ _ _ (by decide)).trans <| (bits_append_high _ _ _ _ (by decide)).trans <| (bits_append_low _ _ _ _ (by decide)).trans (bits_all _),
      (bits_append_high _ _ _ _ (by decide)).trans <| (bits_append_high _ _ _ _ (by decide)).trans <| (bits_append_high _ _ _ _ (by decide)).trans <| (bits_append_high _ _ _ _ (by decide)).trans <| (bits_append_low _ _ _ _ (by decide)).trans (bits_all _),
      (bits_append_high _ _ _ _ (by decide)).trans <| (bits_append_high _ _ _ _ (by decide)).trans <| (bits_append_high _ _ _ _ (by decide)).trans <| (bits_append_low _ _ _ _ (by decide)).trans (bits_all _),
      (bits_append_high _ _ _ _ (by decide)).trans <| (bits_append_high _ _ _ _ (by decide)).trans <| (bits_append_low _ _ _ _ (by decide)).trans (bits_all _),
      (bits_append_high _ _ _ _ (by decide)).trans <| (bits_append_low _ _ _ _ (by decide)).trans (bits_all _),
      (bits_append_low _ _ _ _ (by decide)).trans (bits_all _)⟩

@[simp] theorem MF_of_packM (op : BitVec 8) (d a b : BitVec 4) (acc : BitVec 3) (v : BitVec 4) (imm : BitVec 32) :
    MF.of (packM op d a b acc v imm) = { op := op, d := d, a := a, b := b, acc := acc, v := v, imm := imm } := by
  have h : ∀ lo n, bits (packM op d a b acc v imm) lo n = @bits (8 + 4 + 4 + 4 + 3 + 4 + 32) (op ++ d ++ a ++ b ++ acc ++ v ++ imm) lo n := fun _ _ => rfl
  simp only [MF.of, h, MF.mk.injEq]
  exact
    ⟨(bits_append_high _ _ _ _ (by decide)).trans <| (bits_append_high _ _ _ _ (by decide)).trans <| (bits_append_high _ _ _ _ (by decide)).trans <| (bits_append_high _ _ _ _ (by decide)).trans <| (bits_append_high _ _ _ _ (by decide)).trans <| (bits_append_high _ _ _ _ (by decide)).trans <| bits_all _,
      (bits_append_high _ _ _ _ (by decide)).trans <| (bits_append_high _ _ _ _ (by decide)).trans <| (bits_append_high _ _ _ _ (by decide)).trans <| (bits_append_high _ _ _ _ (by decide)).trans <| (bits_append_high _ _ _ _ (by decide)).trans <| (bits_append_low _ _ _ _ (by decide)).trans (bits_all _),
      (bits_append_high _ _ _ _ (by decide)).trans <| (bits_append_high _ _ _ _ (by decide)).trans <| (bits_append_high _ _ _ _ (by decide)).trans <| (bits_append_high _ _ _ _ (by decide)).trans <| (bits_append_low _ _ _ _ (by decide)).trans (bits_all _),
      (bits_append_high _ _ _ _ (by decide)).trans <| (bits_append_high _ _ _ _ (by decide)).trans <| (bits_append_high _ _ _ _ (by decide)).trans <| (bits_append_low _ _ _ _ (by decide)).trans (bits_all _),
      (bits_append_high _ _ _ _ (by decide)).trans <| (bits_append_high _ _ _ _ (by decide)).trans <| (bits_append_low _ _ _ _ (by decide)).trans (bits_all _),
      (bits_append_high _ _ _ _ (by decide)).trans <| (bits_append_low _ _ _ _ (by decide)).trans (bits_all _),
      (bits_append_low _ _ _ _ (by decide)).trans (bits_all _)⟩

@[simp] theorem ZF_of_packZ (op : BitVec 8) (va : BitVec 6) (idx : BitVec 4) (imm : BitVec 32) :
    ZF.of (packZ op va idx imm) = { op := op, va := va, idx := idx, v := 0, mbz := 0, imm := imm } := by
  have h : ∀ lo n, bits (packZ op va idx imm) lo n = @bits (8 + 6 + 4 + 9 + 32) (op ++ va ++ idx ++ 0#9 ++ imm) lo n := fun _ _ => rfl
  simp only [ZF.of, h, ZF.mk.injEq]
  exact
    ⟨(bits_append_high _ _ _ _ (by decide)).trans <| (bits_append_high _ _ _ _ (by decide)).trans <| (bits_append_high _ _ _ _ (by decide)).trans <| (bits_append_high _ _ _ _ (by decide)).trans <| bits_all _,
      (bits_append_high _ _ _ _ (by decide)).trans <| (bits_append_high _ _ _ _ (by decide)).trans <| (bits_append_high _ _ _ _ (by decide)).trans <| (bits_append_low _ _ _ _ (by decide)).trans (bits_all _),
      (bits_append_high _ _ _ _ (by decide)).trans <| (bits_append_high _ _ _ _ (by decide)).trans <| (bits_append_low _ _ _ _ (by decide)).trans (bits_all _),
      (bits_append_high _ _ _ _ (by decide)).trans <| (bits_append_low _ _ 5 4 (by decide)).trans bits_zero,
      (bits_append_high _ _ _ _ (by decide)).trans <| (bits_append_low _ _ 0 5 (by decide)).trans bits_zero,
      (bits_append_low _ _ _ _ (by decide)).trans (bits_all _)⟩

@[simp] theorem CF_of_packC (op : BitVec 8) (xa xb xc : BitVec 5) (fl : BitVec 8) (imm : BitVec 28) :
    CF.of (packC op xa xb xc fl imm) = { op := op, xa := xa, xb := xb, xc := xc, fl := fl, imm := imm } := by
  have h : ∀ lo n, bits (packC op xa xb xc fl imm) lo n = @bits (8 + 5 + 5 + 5 + 8 + 28) (op ++ xa ++ xb ++ xc ++ fl ++ imm) lo n := fun _ _ => rfl
  simp only [CF.of, h, CF.mk.injEq]
  exact
    ⟨(bits_append_high _ _ _ _ (by decide)).trans <| (bits_append_high _ _ _ _ (by decide)).trans <| (bits_append_high _ _ _ _ (by decide)).trans <| (bits_append_high _ _ _ _ (by decide)).trans <| (bits_append_high _ _ _ _ (by decide)).trans <| bits_all _,
      (bits_append_high _ _ _ _ (by decide)).trans <| (bits_append_high _ _ _ _ (by decide)).trans <| (bits_append_high _ _ _ _ (by decide)).trans <| (bits_append_high _ _ _ _ (by decide)).trans <| (bits_append_low _ _ _ _ (by decide)).trans (bits_all _),
      (bits_append_high _ _ _ _ (by decide)).trans <| (bits_append_high _ _ _ _ (by decide)).trans <| (bits_append_high _ _ _ _ (by decide)).trans <| (bits_append_low _ _ _ _ (by decide)).trans (bits_all _),
      (bits_append_high _ _ _ _ (by decide)).trans <| (bits_append_high _ _ _ _ (by decide)).trans <| (bits_append_low _ _ _ _ (by decide)).trans (bits_all _),
      (bits_append_high _ _ _ _ (by decide)).trans <| (bits_append_low _ _ _ _ (by decide)).trans (bits_all _),
      (bits_append_low _ _ _ _ (by decide)).trans (bits_all _)⟩

@[simp] theorem Cond_dec_code (c : Cond) : Cond.dec c.code = some c := by cases c <;> decide
@[simp] theorem VCond_dec_code (c : VCond) : VCond.dec c.code = some c := by cases c <;> decide
@[simp] theorem VTy_dec_code (t : VTy) : VTy.dec t.code = some t := by cases t <;> decide
@[simp] theorem AmolOp_dec_code (o : AmolOp) : AmolOp.dec o.code = some o := by cases o <;> decide
@[simp] theorem Scope_dec_code (c : Scope) : Scope.dec c.code = c := by cases c <;> decide
@[simp] theorem FenceOrd_dec_code (c : FenceOrd) : FenceOrd.dec c.code = c := by cases c <;> decide
@[simp] theorem AmoOrd_dec_code (c : AmoOrd) : AmoOrd.dec c.code = c := by cases c <;> decide

/-- A type of the group survives its field. -/
theorem tyIn_code (g : VTy → Bool) (t : VTy) (h : g t = true) : tyIn g t.code = some t := by
  simp [tyIn, h]

/-- An operand B that the bundle's literals allow survives its code and field. -/
theorem OpB_dec_code (n : Nat) (b : OpB) (h : b.wf n = true) : OpB.dec n false b.code b.field = some b := by
  cases b with
  | v r =>
    have h1 : ∀ r : BitVec 6, (0#1 ++ r : BitVec 7).toNat = r.toNat := by decide
    have h2 : ∀ r : BitVec 6, bits (0#1 ++ r : BitVec 7) 0 6 = r := by decide
    simp [OpB.dec, OpB.code, OpB.field, h1, h2, show r.toNat < 64 from r.isLt]
  | lit i =>
    have h1 : ∀ i : BitVec 3, (8#4 ++ i : BitVec 7).toNat = 64 + i.toNat := by decide
    have h2 : ∀ i : BitVec 3, bits (8#4 ++ i : BitVec 7) 0 3 = i := by decide
    have h3 := i.isLt
    simp only [OpB.wf, decide_eq_true_eq] at h
    simp [OpB.dec, OpB.code, OpB.field, h1, h2, h, show 64 + i.toNat < 72 by omega]
  | imm i => simp [OpB.dec, OpB.code, OpB.field]
  | win w i =>
    have h1 : ∀ w : BitVec 3, (10#4 ++ w : BitVec 7).toNat = 80 + w.toNat := by decide
    have h2 : ∀ w : BitVec 3, bits (10#4 ++ w : BitVec 7) 0 3 = w := by decide
    have h3 : bits (0#8 ++ i : BitVec 20) 12 8 = 0#8 := (bits_append_high _ _ _ _ (by decide)).trans bits_zero
    have h4 : bits (0#8 ++ i : BitVec 20) 0 12 = i := (bits_append_low _ _ _ _ (by decide)).trans (bits_all _)
    have h5 := w.isLt
    have e0 : ¬ 80 + w.toNat < 64 := by omega
    have e1 : ¬ 80 + w.toNat < 72 := by omega
    have e2 : ¬ 80 + w.toNat = 72 := by omega
    have e3 : ¬ 80 + w.toNat < 80 := by omega
    have e4 : 80 + w.toNat < 88 := by omega
    simp only [OpB.dec, OpB.code, OpB.field, h1, h2, h3, h4, e0, e1, e2, e3, e4, if_false, if_true]
    simp
  | x r =>
    have h1 : ∀ r : BitVec 5, (3#2 ++ r : BitVec 7).toNat = 96 + r.toNat := by decide
    have h2 : ∀ r : BitVec 5, bits (3#2 ++ r : BitVec 7) 0 5 = r := by decide
    have h3 : r.toNat < 32 := r.isLt
    have e0 : ¬ 96 + r.toNat < 64 := by omega
    have e1 : ¬ 96 + r.toNat < 72 := by omega
    have e2 : ¬ 96 + r.toNat = 72 := by omega
    have e3 : ¬ 96 + r.toNat < 80 := by omega
    have e4 : ¬ 96 + r.toNat < 88 := by omega
    have e5 : ¬ 96 + r.toNat < 96 := by omega
    simp only [OpB.dec, OpB.code, OpB.field, h1, h2, e0, e1, e2, e3, e4, e5, if_false]
    simp

end Sys2Proof
end

