-- ==== Sys2Proof/Laws/Word.lean ====
section
/-! SUPPORT. What the byte memory and the tables can do: the canonical form is kept, and a read after a write. -/

namespace Sys2Proof

/-- Keys strictly rising from `a` up and no zero byte: the canonical form of a list that holds no key below `a`. -/
def Memory.From (a : Nat) : Memory → Prop
  | [] => True
  | e :: r => a ≤ e.1 ∧ e.2 ≠ 0 ∧ Memory.From (e.1 + 1) r

theorem Memory.From.weaken {a b : Nat} {m : Memory} (h : Memory.From b m) (hb : a ≤ b) : Memory.From a m := by
  cases m with
  | nil => trivial
  | cons e r => exact ⟨Nat.le_trans hb h.1, h.2.1, h.2.2⟩

theorem Memory.From.key_ge {a : Nat} {m : Memory} (h : Memory.From a m) : ∀ e ∈ m, a ≤ e.1 := by
  induction m generalizing a with
  | nil => simp
  | cons e r ih =>
    intro x hx
    rcases List.mem_cons.1 hx with rfl | hx
    · exact h.1
    · have := ih h.2.2 x hx; have := h.1; omega

theorem Memory.wf_iff (m : Memory) : m.wf = true ↔ Memory.From 0 m := by
  have aux : ∀ (m : Memory) (a : Nat), Memory.From a m ↔
      (m.Pairwise (fun x y => x.1 < y.1) ∧ (∀ e ∈ m, e.2 ≠ 0) ∧ ∀ e ∈ m, a ≤ e.1) := by
    intro m
    induction m with
    | nil => intro a; simp [Memory.From]
    | cons e r ih =>
      intro a
      constructor
      · intro h
        have hk := h.2.2.key_ge
        obtain ⟨p1, p2, -⟩ := (ih (e.1 + 1)).1 h.2.2
        refine ⟨List.pairwise_cons.2 ⟨fun x hx => hk x hx, p1⟩, ?_, ?_⟩
        · intro x hx
          rcases List.mem_cons.1 hx with rfl | hx
          · exact h.2.1
          · exact p2 x hx
        · exact Memory.From.key_ge h
      · rintro ⟨p1, p2, p3⟩
        obtain ⟨q1, q2⟩ := List.pairwise_cons.1 p1
        exact ⟨p3 e (by simp), p2 e (by simp), (ih _).2 ⟨q2, fun x hx => p2 x (by simp [hx]), fun x hx => q1 x hx⟩⟩
  rw [aux]
  simp [Memory.wf]

theorem Memory.merge_from (bs : List (Option Byte)) : ∀ (a : Nat) (m : Memory), Memory.From a m →
    Memory.From a (Memory.merge bs a m) := by
  induction bs with
  | nil => intro a m h; simpa [Memory.merge] using h
  | cons b bs ih =>
    intro a m h
    cases m with
    | nil =>
      simp only [Memory.merge]
      split
      · exact (ih (a + 1) [] trivial).weaken (by omega)
      · exact ⟨Nat.le_refl a, ‹_›, ih (a + 1) [] trivial⟩
    | cons e r =>
      obtain ⟨k, v⟩ := e
      obtain ⟨h1, h2, h3⟩ := h
      simp only at h1 h2 h3
      have hr : Memory.From (k + 1) r := h3
      simp only [Memory.merge]
      split
      · subst_vars
        split
        · exact (ih _ r hr).weaken (by omega)
        · exact ⟨Nat.le_refl _, ‹_›, ih _ r hr⟩
      · have hm : Memory.From (a + 1) ((k, v) :: r) := ⟨by simp; omega, h2, h3⟩
        split
        · exact (ih _ _ hm).weaken (by omega)
        · exact ⟨Nat.le_refl _, ‹_›, ih _ _ hm⟩

theorem Memory.dropWhile_from (m : Memory) (a b : Nat) (h : Memory.From b m) :
    Memory.From a (m.dropWhile fun e => e.1 < a) := by
  induction m generalizing b with
  | nil => simp [Memory.From]
  | cons e r ih =>
    by_cases hc : e.1 < a
    · rw [List.dropWhile_cons_of_pos (by simpa using hc)]
      exact ih _ h.2.2
    · rw [List.dropWhile_cons_of_neg (by simpa using hc)]
      exact ⟨by omega, h.2.1, h.2.2⟩

theorem Memory.takeWhile_append_from (m n : Memory) (a b : Nat) (hm : Memory.From b m) (hn : Memory.From a n) (hb : b ≤ a) :
    Memory.From b ((m.takeWhile fun e => e.1 < a) ++ n) := by
  induction m generalizing b with
  | nil => simpa using hn.weaken hb
  | cons e r ih =>
    by_cases hc : e.1 < a
    · rw [List.takeWhile_cons_of_pos (by simpa using hc)]
      exact ⟨hm.1, hm.2.1, ih _ hm.2.2 (by omega)⟩
    · rw [List.takeWhile_cons_of_neg (by simpa using hc)]
      simpa using hn.weaken hb

/-- A write keeps the canonical form. -/
theorem Memory.write_wf (m : Memory) (a : Nat) (bs : List (Option Byte)) (h : m.wf = true) : (m.write a bs).wf = true := by
  rw [Memory.wf_iff] at h ⊢
  exact Memory.takeWhile_append_from m _ a 0 h (Memory.merge_from bs a _ (Memory.dropWhile_from m a 0 h)) (Nat.zero_le _)

/-- Nothing listed is in the canonical form. -/
@[simp] theorem Memory.nil_wf : Memory.wf [] = true := by decide

theorem Memory.get_below {a : Nat} {m : Memory} (h : Memory.From a m) {x : Nat} (hx : x < a) : m.get x = 0 := by
  cases m with
  | nil => rfl
  | cons e r =>
    obtain ⟨k, v⟩ := e
    have := h.1
    simp only at this
    simp only [Memory.get]
    rw [if_neg (by omega), if_pos (by omega)]

/-- The byte a write leaves at an address. -/
def Memory.written (old : Byte) (a : Nat) (bs : List (Option Byte)) (x : Nat) : Byte :=
  if a ≤ x ∧ x < a + bs.length then (bs.getD (x - a) none).getD old else old

theorem Memory.written_cons (old : Byte) (a : Nat) (b : Option Byte) (bs : List (Option Byte)) (x : Nat) :
    Memory.written old a (b :: bs) x = if x = a then b.getD old else Memory.written old (a + 1) bs x := by
  unfold Memory.written
  by_cases hx : x = a
  · subst hx; simp
  · rw [if_neg hx]
    by_cases h : a ≤ x ∧ x < a + (b :: bs).length
    · have h' : a + 1 ≤ x ∧ x < a + 1 + bs.length := by simp at h; omega
      rw [if_pos h, if_pos h']
      obtain ⟨i, hi⟩ : ∃ i, x - a = i + 1 := ⟨x - a - 1, by omega⟩
      have : x - (a + 1) = i := by omega
      rw [hi, this]; simp
    · have h' : ¬ (a + 1 ≤ x ∧ x < a + 1 + bs.length) := by simp at h; omega
      rw [if_neg h, if_neg h']

theorem Memory.get_merge (bs : List (Option Byte)) : ∀ (a : Nat) (m : Memory), Memory.From a m → ∀ x, a ≤ x →
    (Memory.merge bs a m).get x = Memory.written (m.get x) a bs x := by
  induction bs with
  | nil => intro a m _ x _; simp [Memory.merge, Memory.written]
  | cons b bs ih =>
    intro a m h x hx
    rw [Memory.written_cons]
    cases m with
    | nil =>
      have i1 := ih (a + 1) [] trivial x
      simp only [Memory.merge]
      by_cases hxa : x = a
      · subst hxa
        split
        · rw [Memory.get_below (Memory.merge_from bs (x + 1) [] trivial) (Nat.lt_succ_self x)]
          simp_all [Memory.get]
        · simp [Memory.get]
      · rw [if_neg hxa]
        split
        · exact i1 (by omega)
        · simp only [Memory.get]; rw [if_neg hxa, if_neg (by omega)]; exact i1 (by omega)
    | cons e r =>
      obtain ⟨k, v⟩ := e
      obtain ⟨h1, h2, h3⟩ := h
      simp only at h1 h2 h3
      have hr : Memory.From (k + 1) r := h3
      simp only [Memory.merge]
      by_cases hka : k = a
      · subst hka
        have i1 := ih (k + 1) r hr x
        rw [if_pos rfl]
        by_cases hxa : x = k
        · subst hxa
          split
          · rw [Memory.get_below (Memory.merge_from bs (x + 1) r hr) (Nat.lt_succ_self x)]
            simp_all [Memory.get]
          · simp [Memory.get]
        · have hg : Memory.get ((k, v) :: r) x = Memory.get r x := by
            simp only [Memory.get]; rw [if_neg hxa, if_neg (by omega)]
          rw [hg, if_neg hxa]
          split
          · exact i1 (by omega)
          · simp only [Memory.get]; rw [if_neg hxa, if_neg (by omega)]; exact i1 (by omega)
      · have hm : Memory.From (a + 1) ((k, v) :: r) := ⟨by simp; omega, h2, h3⟩
        have i1 := ih (a + 1) _ hm x
        rw [if_neg hka]
        by_cases hxa : x = a
        · subst hxa
          have hg : Memory.get ((k, v) :: r) x = 0 := Memory.get_below hm (Nat.lt_succ_self x)
          rw [hg, if_pos rfl]
          split
          · rw [Memory.get_below (Memory.merge_from bs (x + 1) _ hm) (Nat.lt_succ_self x)]; simp_all
          · simp [Memory.get]
        · rw [if_neg hxa]
          split
          · exact i1 (by omega)
          · simp only [Memory.get]; rw [if_neg hxa, if_neg (by omega)]; exact i1 (by omega)

theorem Memory.get_split (m n : Memory) (a b : Nat) (hm : Memory.From b m) (hn : Memory.From a n) (x : Nat) :
    Memory.get ((m.takeWhile fun e => e.1 < a) ++ n) x = if x < a then m.get x else n.get x := by
  induction m generalizing b with
  | nil =>
    simp only [List.takeWhile_nil, List.nil_append, Memory.get]
    split
    · exact Memory.get_below hn ‹_›
    · rfl
  | cons e r ih =>
    obtain ⟨k, v⟩ := e
    by_cases hc : k < a
    · rw [List.takeWhile_cons_of_pos (by simpa using hc)]
      simp only [List.cons_append, Memory.get]
      by_cases hxk : x = k
      · subst hxk; simp [hc]
      · rw [if_neg hxk, if_neg hxk]
        by_cases hxl : x < k
        · rw [if_pos hxl, if_pos hxl, if_pos (by omega)]
        · rw [if_neg hxl, if_neg hxl]
          exact ih _ hm.2.2
    · rw [List.takeWhile_cons_of_neg (by simpa using hc)]
      simp only [List.nil_append]
      split
      · rw [Memory.get_below hn ‹_›]
        simp only [Memory.get]; rw [if_neg (by omega), if_pos (by omega)]
      · rfl

theorem Memory.get_dropWhile (m : Memory) (a x : Nat) (h : a ≤ x) :
    Memory.get (m.dropWhile fun e => e.1 < a) x = m.get x := by
  induction m with
  | nil => rfl
  | cons e r ih =>
    obtain ⟨k, v⟩ := e
    by_cases hc : k < a
    · rw [List.dropWhile_cons_of_pos (by simpa using hc), ih]
      simp only [Memory.get]; rw [if_neg (by omega), if_neg (by omega)]
    · rw [List.dropWhile_cons_of_neg (by simpa using hc)]

/-- Reading one byte after a write: the byte written where one was, else what stood there. -/
theorem Memory.get_write (m : Memory) (a : Nat) (bs : List (Option Byte)) (h : m.wf = true) (x : Nat) :
    (m.write a bs).get x = Memory.written (m.get x) a bs x := by
  rw [Memory.wf_iff] at h
  have hd := Memory.dropWhile_from m a 0 h
  have hs : (m.write a bs).get x = if x < a then m.get x else (Memory.merge bs a (m.dropWhile fun e => e.1 < a)).get x :=
    Memory.get_split m _ a 0 h (Memory.merge_from bs a _ hd) x
  rw [hs]
  split
  · unfold Memory.written; rw [if_neg (by omega)]
  · rw [Memory.get_merge bs a _ hd x (by omega), Memory.get_dropWhile m a x (by omega)]

/-- A write leaves every byte outside it alone. -/
theorem Memory.get_write_other (m : Memory) (a : Nat) (bs : List (Option Byte)) (h : m.wf = true) (x : Nat)
    (hx : x < a ∨ a + bs.length ≤ x) : (m.write a bs).get x = m.get x := by
  rw [Memory.get_write m a bs h]; unfold Memory.written; rw [if_neg (by omega)]

theorem Memory.readFrom_get (n : Nat) : ∀ (a : Nat) (m : Memory), Memory.From a m →
    Memory.readFrom n a m = (List.range' a n).map m.get := by
  induction n with
  | zero => intro a m _; rfl
  | succ n ih =>
    intro a m h
    rw [List.range'_succ, List.map_cons]
    cases m with
    | nil =>
      simp only [Memory.readFrom]
      rw [ih (a + 1) [] trivial]; rfl
    | cons e r =>
      obtain ⟨k, v⟩ := e
      obtain ⟨h1, h2, h3⟩ := h
      simp only at h1 h2 h3
      have hr : Memory.From (k + 1) r := h3
      simp only [Memory.readFrom]
      split
      · subst_vars
        rw [ih _ r hr]
        congr 1
        · simp [Memory.get]
        · apply List.map_congr_left
          intro y hy
          have := (List.mem_range'_1.1 hy).1
          simp only [Memory.get]; rw [if_neg (by omega), if_neg (by omega)]
      · have hm : Memory.From (a + 1) ((k, v) :: r) := ⟨by simp; omega, h2, h3⟩
        rw [ih _ _ hm, Memory.get_below hm (Nat.lt_succ_self a)]

/-- A read of `n` bytes is the bytes one by one. -/
theorem Memory.read_get (m : Memory) (a n : Nat) (h : m.wf = true) : m.read a n = (List.range' a n).map m.get := by
  rw [Memory.wf_iff] at h
  unfold Memory.read
  rw [Memory.readFrom_get n a _ (Memory.dropWhile_from m a 0 h)]
  apply List.map_congr_left
  intro y hy
  exact Memory.get_dropWhile m a y (List.mem_range'_1.1 hy).1

/-! ## Tables -/

theorem Table.get_put {α : Type} (d : α) (m : Table α) (k : Nat) (v : α) (j : Nat) :
    Table.get d (Table.put m k v) j = if j = k then v else Table.get d m j := by
  induction m with
  | nil => simp [Table.put, Table.get]
  | cons e r ih =>
    obtain ⟨i, w⟩ := e
    simp only [Table.put]
    split
    · simp only [Table.get]
    · split
      · subst_vars; simp only [Table.get]; split <;> rfl
      · simp only [Table.get]
        by_cases hj : j = i
        · subst hj
          rw [if_pos rfl, if_pos rfl, if_neg (by omega)]
        · rw [if_neg hj, if_neg hj, ih]

@[simp] theorem Table.get_put_same {α : Type} (d : α) (m : Table α) (k : Nat) (v : α) : Table.get d (Table.put m k v) k = v := by
  rw [Table.get_put, if_pos rfl]

theorem Table.get_put_ne {α : Type} (d : α) (m : Table α) {k j : Nat} (v : α) (h : j ≠ k) :
    Table.get d (Table.put m k v) j = Table.get d m j := by
  rw [Table.get_put, if_neg h]

theorem Table.mem_put {α : Type} (m : Table α) (k : Nat) (v : α) {e : Nat × α} (h : e ∈ Table.put m k v) :
    e.1 = k ∨ e ∈ m := by
  induction m with
  | nil => simp [Table.put] at h; exact .inl (by rw [h])
  | cons x r ih =>
    obtain ⟨i, w⟩ := x
    simp only [Table.put] at h
    split at h
    · rcases List.mem_cons.1 h with rfl | h
      · exact .inl rfl
      · exact .inr h
    · split at h
      · rcases List.mem_cons.1 h with rfl | h
        · exact .inl rfl
        · exact .inr (List.mem_cons_of_mem _ h)
      · rcases List.mem_cons.1 h with rfl | h
        · exact .inr (by simp)
        · rcases ih h with h | h
          · exact .inl h
          · exact .inr (List.mem_cons_of_mem _ h)

/-- Putting a record keeps the keys strictly rising. -/
theorem Table.put_wf {α : Type} (m : Table α) (k : Nat) (v : α) (h : Table.wf m = true) : Table.wf (Table.put m k v) = true := by
  simp only [Table.wf, decide_eq_true_eq] at h ⊢
  induction m with
  | nil => simp [Table.put]
  | cons e r ih =>
    obtain ⟨i, w⟩ := e
    obtain ⟨h1, h2⟩ := List.pairwise_cons.1 h
    simp only [Table.put]
    split
    · refine List.pairwise_cons.2 ⟨?_, h⟩
      intro x hx
      rcases List.mem_cons.1 hx with rfl | hx
      · assumption
      · have := h1 x hx; simp only at this ⊢; omega
    · split
      · subst_vars; exact List.pairwise_cons.2 ⟨h1, h2⟩
      · refine List.pairwise_cons.2 ⟨?_, ih h2⟩
        intro x hx
        rcases Table.mem_put r k v hx with hx | hx
        · simp only [hx]; omega
        · exact h1 x hx

end Sys2Proof
end

