-- ==== Sys2Proof/Laws/State.lean ====
section
/-! SUPPORT. The fields of the state after each named update: one lemma a field and update, so that no proof unfolds a
record update; and what reading a unit gives after changing it. -/

namespace Sys2Proof.Machine

@[simp] theorem State.setCore_powered (s : State) (c : Nat) (k : Core) : (s.setCore c k).powered = s.powered := rfl
@[simp] theorem State.setCore_tick (s : State) (c : Nat) (k : Core) : (s.setCore c k).tick = s.tick := rfl
@[simp] theorem State.setCore_sub (s : State) (c : Nat) (k : Core) : (s.setCore c k).sub = s.sub := rfl
@[simp] theorem State.setCore_todo (s : State) (c : Nat) (k : Core) : (s.setCore c k).todo = s.todo := rfl
@[simp] theorem State.setCore_ctx (s : State) (c : Nat) (k : Core) : (s.setCore c k).ctx = s.ctx := rfl
@[simp] theorem State.setCore_nonce (s : State) (c : Nat) (k : Core) : (s.setCore c k).nonce = s.nonce := rfl
@[simp] theorem State.setCore_inbox (s : State) (c : Nat) (k : Core) : (s.setCore c k).inbox = s.inbox := rfl
@[simp] theorem State.setCore_agenda (s : State) (c : Nat) (k : Core) : (s.setCore c k).agenda = s.agenda := rfl
@[simp] theorem State.setCore_pend (s : State) (c : Nat) (k : Core) : (s.setCore c k).pend = s.pend := rfl
@[simp] theorem State.setCore_wrote (s : State) (c : Nat) (k : Core) : (s.setCore c k).wrote = s.wrote := rfl
@[simp] theorem State.setCore_pendMark (s : State) (c : Nat) (k : Core) : (s.setCore c k).pendMark = s.pendMark := rfl
@[simp] theorem State.setCore_cores (s : State) (c : Nat) (k : Core) : (s.setCore c k).cores = Table.put s.cores c k := rfl
@[simp] theorem State.setCore_pool (s : State) (c : Nat) (k : Core) : (s.setCore c k).pool = s.pool := rfl
@[simp] theorem State.setCore_tags (s : State) (c : Nat) (k : Core) : (s.setCore c k).tags = s.tags := rfl
@[simp] theorem State.setCore_imem (s : State) (c : Nat) (k : Core) : (s.setCore c k).imem = s.imem := rfl
@[simp] theorem State.setCore_hbm (s : State) (c : Nat) (k : Core) : (s.setCore c k).hbm = s.hbm := rfl
@[simp] theorem State.setCore_poisoned (s : State) (c : Nat) (k : Core) : (s.setCore c k).poisoned = s.poisoned := rfl
@[simp] theorem State.setCore_host (s : State) (c : Nat) (k : Core) : (s.setCore c k).host = s.host := rfl
@[simp] theorem State.setCore_runs (s : State) (c : Nat) (k : Core) : (s.setCore c k).runs = s.runs := rfl
@[simp] theorem State.setCore_nextRun (s : State) (c : Nat) (k : Core) : (s.setCore c k).nextRun = s.nextRun := rfl
@[simp] theorem State.setCore_nextOp (s : State) (c : Nat) (k : Core) : (s.setCore c k).nextOp = s.nextOp := rfl
@[simp] theorem State.setCore_chans (s : State) (c : Nat) (k : Core) : (s.setCore c k).chans = s.chans := rfl
@[simp] theorem State.setCore_deltas (s : State) (c : Nat) (k : Core) : (s.setCore c k).deltas = s.deltas := rfl
@[simp] theorem State.setCore_stripe (s : State) (c : Nat) (k : Core) : (s.setCore c k).stripe = s.stripe := rfl
@[simp] theorem State.setCore_counters (s : State) (c : Nat) (k : Core) : (s.setCore c k).counters = s.counters := rfl
@[simp] theorem State.setCore_parts (s : State) (c : Nat) (k : Core) : (s.setCore c k).parts = s.parts := rfl
@[simp] theorem State.setCore_vfs (s : State) (c : Nat) (k : Core) : (s.setCore c k).vfs = s.vfs := rfl
@[simp] theorem State.setCore_fars (s : State) (c : Nat) (k : Core) : (s.setCore c k).fars = s.fars := rfl
@[simp] theorem State.setCore_nextFar (s : State) (c : Nat) (k : Core) : (s.setCore c k).nextFar = s.nextFar := rfl
@[simp] theorem State.setCore_tlbs (s : State) (c : Nat) (k : Core) : (s.setCore c k).tlbs = s.tlbs := rfl
@[simp] theorem State.setCore_cobFree (s : State) (c : Nat) (k : Core) : (s.setCore c k).cobFree = s.cobFree := rfl
@[simp] theorem State.setCore_cob (s : State) (c : Nat) (k : Core) : (s.setCore c k).cob = s.cob := rfl
@[simp] theorem State.setCore_lanes (s : State) (c : Nat) (k : Core) : (s.setCore c k).lanes = s.lanes := rfl
@[simp] theorem State.setCore_rxs (s : State) (c : Nat) (k : Core) : (s.setCore c k).rxs = s.rxs := rfl
@[simp] theorem State.setCore_ports (s : State) (c : Nat) (k : Core) : (s.setCore c k).ports = s.ports := rfl
@[simp] theorem State.setCore_laneSets (s : State) (c : Nat) (k : Core) : (s.setCore c k).laneSets = s.laneSets := rfl
@[simp] theorem State.setCore_racks (s : State) (c : Nat) (k : Core) : (s.setCore c k).racks = s.racks := rfl
@[simp] theorem State.setCore_planes (s : State) (c : Nat) (k : Core) : (s.setCore c k).planes = s.planes := rfl
@[simp] theorem State.setCore_lightOut (s : State) (c : Nat) (k : Core) : (s.setCore c k).lightOut = s.lightOut := rfl
@[simp] theorem State.setCore_wireOut (s : State) (c : Nat) (k : Core) : (s.setCore c k).wireOut = s.wireOut := rfl
@[simp] theorem State.setCore_wireLast (s : State) (c : Nat) (k : Core) : (s.setCore c k).wireLast = s.wireLast := rfl
@[simp] theorem State.setCore_arms (s : State) (c : Nat) (k : Core) : (s.setCore c k).arms = s.arms := rfl
@[simp] theorem State.setCore_linkDiscards (s : State) (c : Nat) (k : Core) : (s.setCore c k).linkDiscards = s.linkDiscards := rfl
@[simp] theorem State.setCore_podoff (s : State) (c : Nat) (k : Core) : (s.setCore c k).podoff = s.podoff := rfl
@[simp] theorem State.setCore_missed (s : State) (c : Nat) (k : Core) : (s.setCore c k).missed = s.missed := rfl
@[simp] theorem State.setCore_beaconSlot (s : State) (c : Nat) (k : Core) : (s.setCore c k).beaconSlot = s.beaconSlot := rfl
@[simp] theorem State.setCore_slotNow (s : State) (c : Nat) (k : Core) : (s.setCore c k).slotNow = s.slotNow := rfl
@[simp] theorem State.setCore_timekeeper (s : State) (c : Nat) (k : Core) : (s.setCore c k).timekeeper = s.timekeeper := rfl
@[simp] theorem State.setCore_slew (s : State) (c : Nat) (k : Core) : (s.setCore c k).slew = s.slew := rfl
@[simp] theorem State.setCore_devIndex (s : State) (c : Nat) (k : Core) : (s.setCore c k).devIndex = s.devIndex := rfl
@[simp] theorem State.setCore_podSize (s : State) (c : Nat) (k : Core) : (s.setCore c k).podSize = s.podSize := rfl
@[simp] theorem State.setCore_flight (s : State) (c : Nat) (k : Core) : (s.setCore c k).flight = s.flight := rfl
@[simp] theorem State.setCore_rails (s : State) (c : Nat) (k : Core) : (s.setCore c k).rails = s.rails := rfl
@[simp] theorem State.setCore_floor (s : State) (c : Nat) (k : Core) : (s.setCore c k).floor = s.floor := rfl
@[simp] theorem State.setCore_boot (s : State) (c : Nat) (k : Core) : (s.setCore c k).boot = s.boot := rfl
@[simp] theorem State.setCore_flash (s : State) (c : Nat) (k : Core) : (s.setCore c k).flash = s.flash := rfl
@[simp] theorem State.setCore_firmware (s : State) (c : Nat) (k : Core) : (s.setCore c k).firmware = s.firmware := rfl
@[simp] theorem State.setCore_secret (s : State) (c : Nat) (k : Core) : (s.setCore c k).secret = s.secret := rfl
@[simp] theorem State.setCore_identity (s : State) (c : Nat) (k : Core) : (s.setCore c k).identity = s.identity := rfl
@[simp] theorem State.setCore_alias_ (s : State) (c : Nat) (k : Core) : (s.setCore c k).alias_ = s.alias_ := rfl
@[simp] theorem State.setCore_measures (s : State) (c : Nat) (k : Core) : (s.setCore c k).measures = s.measures := rfl
@[simp] theorem State.setCore_sessions (s : State) (c : Nat) (k : Core) : (s.setCore c k).sessions = s.sessions := rfl
@[simp] theorem State.setCore_spdm (s : State) (c : Nat) (k : Core) : (s.setCore c k).spdm = s.spdm := rfl
@[simp] theorem State.setCore_transcripts (s : State) (c : Nat) (k : Core) : (s.setCore c k).transcripts = s.transcripts := rfl
@[simp] theorem State.setCore_peerSessions (s : State) (c : Nat) (k : Core) : (s.setCore c k).peerSessions = s.peerSessions := rfl
@[simp] theorem State.setCore_peers (s : State) (c : Nat) (k : Core) : (s.setCore c k).peers = s.peers := rfl
@[simp] theorem State.setCore_ide (s : State) (c : Nat) (k : Core) : (s.setCore c k).ide = s.ide := rfl
@[simp] theorem State.setCore_sealLog (s : State) (c : Nat) (k : Core) : (s.setCore c k).sealLog = s.sealLog := rfl
@[simp] theorem State.setCore_answers (s : State) (c : Nat) (k : Core) : (s.setCore c k).answers = s.answers := rfl
@[simp] theorem State.setCore_msi (s : State) (c : Nat) (k : Core) : (s.setCore c k).msi = s.msi := rfl
@[simp] theorem State.setCore_caps (s : State) (c : Nat) (k : Core) : (s.setCore c k).caps = s.caps := rfl
@[simp] theorem State.setCore_errors (s : State) (c : Nat) (k : Core) : (s.setCore c k).errors = s.errors := rfl
@[simp] theorem State.setCore_testing (s : State) (c : Nat) (k : Core) : (s.setCore c k).testing = s.testing := rfl
@[simp] theorem State.setCore_badWords (s : State) (c : Nat) (k : Core) : (s.setCore c k).badWords = s.badWords := rfl
@[simp] theorem State.setCore_cpiWords (s : State) (c : Nat) (k : Core) : (s.setCore c k).cpiWords = s.cpiWords := rfl
@[simp] theorem State.setCore_hbmUe (s : State) (c : Nat) (k : Core) : (s.setCore c k).hbmUe = s.hbmUe := rfl
@[simp] theorem State.setCore_lowTests (s : State) (c : Nat) (k : Core) : (s.setCore c k).lowTests = s.lowTests := rfl
@[simp] theorem State.setCore_undervolts (s : State) (c : Nat) (k : Core) : (s.setCore c k).undervolts = s.undervolts := rfl
@[simp] theorem State.setCore_retiring (s : State) (c : Nat) (k : Core) : (s.setCore c k).retiring = s.retiring := rfl

@[simp] theorem State.modRun_powered (s : State) (r : Nat) (f : Run → Run) : (s.modRun r f).powered = s.powered := rfl
@[simp] theorem State.modRun_tick (s : State) (r : Nat) (f : Run → Run) : (s.modRun r f).tick = s.tick := rfl
@[simp] theorem State.modRun_sub (s : State) (r : Nat) (f : Run → Run) : (s.modRun r f).sub = s.sub := rfl
@[simp] theorem State.modRun_todo (s : State) (r : Nat) (f : Run → Run) : (s.modRun r f).todo = s.todo := rfl
@[simp] theorem State.modRun_ctx (s : State) (r : Nat) (f : Run → Run) : (s.modRun r f).ctx = s.ctx := rfl
@[simp] theorem State.modRun_nonce (s : State) (r : Nat) (f : Run → Run) : (s.modRun r f).nonce = s.nonce := rfl
@[simp] theorem State.modRun_inbox (s : State) (r : Nat) (f : Run → Run) : (s.modRun r f).inbox = s.inbox := rfl
@[simp] theorem State.modRun_agenda (s : State) (r : Nat) (f : Run → Run) : (s.modRun r f).agenda = s.agenda := rfl
@[simp] theorem State.modRun_pend (s : State) (r : Nat) (f : Run → Run) : (s.modRun r f).pend = s.pend := rfl
@[simp] theorem State.modRun_wrote (s : State) (r : Nat) (f : Run → Run) : (s.modRun r f).wrote = s.wrote := rfl
@[simp] theorem State.modRun_pendMark (s : State) (r : Nat) (f : Run → Run) : (s.modRun r f).pendMark = s.pendMark := rfl
@[simp] theorem State.modRun_cores (s : State) (r : Nat) (f : Run → Run) : (s.modRun r f).cores = s.cores := rfl
@[simp] theorem State.modRun_pool (s : State) (r : Nat) (f : Run → Run) : (s.modRun r f).pool = s.pool := rfl
@[simp] theorem State.modRun_tags (s : State) (r : Nat) (f : Run → Run) : (s.modRun r f).tags = s.tags := rfl
@[simp] theorem State.modRun_imem (s : State) (r : Nat) (f : Run → Run) : (s.modRun r f).imem = s.imem := rfl
@[simp] theorem State.modRun_hbm (s : State) (r : Nat) (f : Run → Run) : (s.modRun r f).hbm = s.hbm := rfl
@[simp] theorem State.modRun_poisoned (s : State) (r : Nat) (f : Run → Run) : (s.modRun r f).poisoned = s.poisoned := rfl
@[simp] theorem State.modRun_host (s : State) (r : Nat) (f : Run → Run) : (s.modRun r f).host = s.host := rfl
@[simp] theorem State.modRun_runs (s : State) (r : Nat) (f : Run → Run) : (s.modRun r f).runs = Table.put s.runs r (f (s.run r)) := rfl
@[simp] theorem State.modRun_nextRun (s : State) (r : Nat) (f : Run → Run) : (s.modRun r f).nextRun = s.nextRun := rfl
@[simp] theorem State.modRun_nextOp (s : State) (r : Nat) (f : Run → Run) : (s.modRun r f).nextOp = s.nextOp := rfl
@[simp] theorem State.modRun_chans (s : State) (r : Nat) (f : Run → Run) : (s.modRun r f).chans = s.chans := rfl
@[simp] theorem State.modRun_deltas (s : State) (r : Nat) (f : Run → Run) : (s.modRun r f).deltas = s.deltas := rfl
@[simp] theorem State.modRun_stripe (s : State) (r : Nat) (f : Run → Run) : (s.modRun r f).stripe = s.stripe := rfl
@[simp] theorem State.modRun_counters (s : State) (r : Nat) (f : Run → Run) : (s.modRun r f).counters = s.counters := rfl
@[simp] theorem State.modRun_parts (s : State) (r : Nat) (f : Run → Run) : (s.modRun r f).parts = s.parts := rfl
@[simp] theorem State.modRun_vfs (s : State) (r : Nat) (f : Run → Run) : (s.modRun r f).vfs = s.vfs := rfl
@[simp] theorem State.modRun_fars (s : State) (r : Nat) (f : Run → Run) : (s.modRun r f).fars = s.fars := rfl
@[simp] theorem State.modRun_nextFar (s : State) (r : Nat) (f : Run → Run) : (s.modRun r f).nextFar = s.nextFar := rfl
@[simp] theorem State.modRun_tlbs (s : State) (r : Nat) (f : Run → Run) : (s.modRun r f).tlbs = s.tlbs := rfl
@[simp] theorem State.modRun_cobFree (s : State) (r : Nat) (f : Run → Run) : (s.modRun r f).cobFree = s.cobFree := rfl
@[simp] theorem State.modRun_cob (s : State) (r : Nat) (f : Run → Run) : (s.modRun r f).cob = s.cob := rfl
@[simp] theorem State.modRun_lanes (s : State) (r : Nat) (f : Run → Run) : (s.modRun r f).lanes = s.lanes := rfl
@[simp] theorem State.modRun_rxs (s : State) (r : Nat) (f : Run → Run) : (s.modRun r f).rxs = s.rxs := rfl
@[simp] theorem State.modRun_ports (s : State) (r : Nat) (f : Run → Run) : (s.modRun r f).ports = s.ports := rfl
@[simp] theorem State.modRun_laneSets (s : State) (r : Nat) (f : Run → Run) : (s.modRun r f).laneSets = s.laneSets := rfl
@[simp] theorem State.modRun_racks (s : State) (r : Nat) (f : Run → Run) : (s.modRun r f).racks = s.racks := rfl
@[simp] theorem State.modRun_planes (s : State) (r : Nat) (f : Run → Run) : (s.modRun r f).planes = s.planes := rfl
@[simp] theorem State.modRun_lightOut (s : State) (r : Nat) (f : Run → Run) : (s.modRun r f).lightOut = s.lightOut := rfl
@[simp] theorem State.modRun_wireOut (s : State) (r : Nat) (f : Run → Run) : (s.modRun r f).wireOut = s.wireOut := rfl
@[simp] theorem State.modRun_wireLast (s : State) (r : Nat) (f : Run → Run) : (s.modRun r f).wireLast = s.wireLast := rfl
@[simp] theorem State.modRun_arms (s : State) (r : Nat) (f : Run → Run) : (s.modRun r f).arms = s.arms := rfl
@[simp] theorem State.modRun_linkDiscards (s : State) (r : Nat) (f : Run → Run) : (s.modRun r f).linkDiscards = s.linkDiscards := rfl
@[simp] theorem State.modRun_podoff (s : State) (r : Nat) (f : Run → Run) : (s.modRun r f).podoff = s.podoff := rfl
@[simp] theorem State.modRun_missed (s : State) (r : Nat) (f : Run → Run) : (s.modRun r f).missed = s.missed := rfl
@[simp] theorem State.modRun_beaconSlot (s : State) (r : Nat) (f : Run → Run) : (s.modRun r f).beaconSlot = s.beaconSlot := rfl
@[simp] theorem State.modRun_slotNow (s : State) (r : Nat) (f : Run → Run) : (s.modRun r f).slotNow = s.slotNow := rfl
@[simp] theorem State.modRun_timekeeper (s : State) (r : Nat) (f : Run → Run) : (s.modRun r f).timekeeper = s.timekeeper := rfl
@[simp] theorem State.modRun_slew (s : State) (r : Nat) (f : Run → Run) : (s.modRun r f).slew = s.slew := rfl
@[simp] theorem State.modRun_devIndex (s : State) (r : Nat) (f : Run → Run) : (s.modRun r f).devIndex = s.devIndex := rfl
@[simp] theorem State.modRun_podSize (s : State) (r : Nat) (f : Run → Run) : (s.modRun r f).podSize = s.podSize := rfl
@[simp] theorem State.modRun_flight (s : State) (r : Nat) (f : Run → Run) : (s.modRun r f).flight = s.flight := rfl
@[simp] theorem State.modRun_rails (s : State) (r : Nat) (f : Run → Run) : (s.modRun r f).rails = s.rails := rfl
@[simp] theorem State.modRun_floor (s : State) (r : Nat) (f : Run → Run) : (s.modRun r f).floor = s.floor := rfl
@[simp] theorem State.modRun_boot (s : State) (r : Nat) (f : Run → Run) : (s.modRun r f).boot = s.boot := rfl
@[simp] theorem State.modRun_flash (s : State) (r : Nat) (f : Run → Run) : (s.modRun r f).flash = s.flash := rfl
@[simp] theorem State.modRun_firmware (s : State) (r : Nat) (f : Run → Run) : (s.modRun r f).firmware = s.firmware := rfl
@[simp] theorem State.modRun_secret (s : State) (r : Nat) (f : Run → Run) : (s.modRun r f).secret = s.secret := rfl
@[simp] theorem State.modRun_identity (s : State) (r : Nat) (f : Run → Run) : (s.modRun r f).identity = s.identity := rfl
@[simp] theorem State.modRun_alias_ (s : State) (r : Nat) (f : Run → Run) : (s.modRun r f).alias_ = s.alias_ := rfl
@[simp] theorem State.modRun_measures (s : State) (r : Nat) (f : Run → Run) : (s.modRun r f).measures = s.measures := rfl
@[simp] theorem State.modRun_sessions (s : State) (r : Nat) (f : Run → Run) : (s.modRun r f).sessions = s.sessions := rfl
@[simp] theorem State.modRun_spdm (s : State) (r : Nat) (f : Run → Run) : (s.modRun r f).spdm = s.spdm := rfl
@[simp] theorem State.modRun_transcripts (s : State) (r : Nat) (f : Run → Run) : (s.modRun r f).transcripts = s.transcripts := rfl
@[simp] theorem State.modRun_peerSessions (s : State) (r : Nat) (f : Run → Run) : (s.modRun r f).peerSessions = s.peerSessions := rfl
@[simp] theorem State.modRun_peers (s : State) (r : Nat) (f : Run → Run) : (s.modRun r f).peers = s.peers := rfl
@[simp] theorem State.modRun_ide (s : State) (r : Nat) (f : Run → Run) : (s.modRun r f).ide = s.ide := rfl
@[simp] theorem State.modRun_sealLog (s : State) (r : Nat) (f : Run → Run) : (s.modRun r f).sealLog = s.sealLog := rfl
@[simp] theorem State.modRun_answers (s : State) (r : Nat) (f : Run → Run) : (s.modRun r f).answers = s.answers := rfl
@[simp] theorem State.modRun_msi (s : State) (r : Nat) (f : Run → Run) : (s.modRun r f).msi = s.msi := rfl
@[simp] theorem State.modRun_caps (s : State) (r : Nat) (f : Run → Run) : (s.modRun r f).caps = s.caps := rfl
@[simp] theorem State.modRun_errors (s : State) (r : Nat) (f : Run → Run) : (s.modRun r f).errors = s.errors := rfl
@[simp] theorem State.modRun_testing (s : State) (r : Nat) (f : Run → Run) : (s.modRun r f).testing = s.testing := rfl
@[simp] theorem State.modRun_badWords (s : State) (r : Nat) (f : Run → Run) : (s.modRun r f).badWords = s.badWords := rfl
@[simp] theorem State.modRun_cpiWords (s : State) (r : Nat) (f : Run → Run) : (s.modRun r f).cpiWords = s.cpiWords := rfl
@[simp] theorem State.modRun_hbmUe (s : State) (r : Nat) (f : Run → Run) : (s.modRun r f).hbmUe = s.hbmUe := rfl
@[simp] theorem State.modRun_lowTests (s : State) (r : Nat) (f : Run → Run) : (s.modRun r f).lowTests = s.lowTests := rfl
@[simp] theorem State.modRun_undervolts (s : State) (r : Nat) (f : Run → Run) : (s.modRun r f).undervolts = s.undervolts := rfl
@[simp] theorem State.modRun_retiring (s : State) (r : Nat) (f : Run → Run) : (s.modRun r f).retiring = s.retiring := rfl

@[simp] theorem State.modChan_powered (s : State) (c : Nat) (f : Chan → Chan) : (s.modChan c f).powered = s.powered := rfl
@[simp] theorem State.modChan_tick (s : State) (c : Nat) (f : Chan → Chan) : (s.modChan c f).tick = s.tick := rfl
@[simp] theorem State.modChan_sub (s : State) (c : Nat) (f : Chan → Chan) : (s.modChan c f).sub = s.sub := rfl
@[simp] theorem State.modChan_todo (s : State) (c : Nat) (f : Chan → Chan) : (s.modChan c f).todo = s.todo := rfl
@[simp] theorem State.modChan_ctx (s : State) (c : Nat) (f : Chan → Chan) : (s.modChan c f).ctx = s.ctx := rfl
@[simp] theorem State.modChan_nonce (s : State) (c : Nat) (f : Chan → Chan) : (s.modChan c f).nonce = s.nonce := rfl
@[simp] theorem State.modChan_inbox (s : State) (c : Nat) (f : Chan → Chan) : (s.modChan c f).inbox = s.inbox := rfl
@[simp] theorem State.modChan_agenda (s : State) (c : Nat) (f : Chan → Chan) : (s.modChan c f).agenda = s.agenda := rfl
@[simp] theorem State.modChan_pend (s : State) (c : Nat) (f : Chan → Chan) : (s.modChan c f).pend = s.pend := rfl
@[simp] theorem State.modChan_wrote (s : State) (c : Nat) (f : Chan → Chan) : (s.modChan c f).wrote = s.wrote := rfl
@[simp] theorem State.modChan_pendMark (s : State) (c : Nat) (f : Chan → Chan) : (s.modChan c f).pendMark = s.pendMark := rfl
@[simp] theorem State.modChan_cores (s : State) (c : Nat) (f : Chan → Chan) : (s.modChan c f).cores = s.cores := rfl
@[simp] theorem State.modChan_pool (s : State) (c : Nat) (f : Chan → Chan) : (s.modChan c f).pool = s.pool := rfl
@[simp] theorem State.modChan_tags (s : State) (c : Nat) (f : Chan → Chan) : (s.modChan c f).tags = s.tags := rfl
@[simp] theorem State.modChan_imem (s : State) (c : Nat) (f : Chan → Chan) : (s.modChan c f).imem = s.imem := rfl
@[simp] theorem State.modChan_hbm (s : State) (c : Nat) (f : Chan → Chan) : (s.modChan c f).hbm = s.hbm := rfl
@[simp] theorem State.modChan_poisoned (s : State) (c : Nat) (f : Chan → Chan) : (s.modChan c f).poisoned = s.poisoned := rfl
@[simp] theorem State.modChan_host (s : State) (c : Nat) (f : Chan → Chan) : (s.modChan c f).host = s.host := rfl
@[simp] theorem State.modChan_runs (s : State) (c : Nat) (f : Chan → Chan) : (s.modChan c f).runs = s.runs := rfl
@[simp] theorem State.modChan_nextRun (s : State) (c : Nat) (f : Chan → Chan) : (s.modChan c f).nextRun = s.nextRun := rfl
@[simp] theorem State.modChan_nextOp (s : State) (c : Nat) (f : Chan → Chan) : (s.modChan c f).nextOp = s.nextOp := rfl
@[simp] theorem State.modChan_chans (s : State) (c : Nat) (f : Chan → Chan) : (s.modChan c f).chans = Table.put s.chans c (f (s.chan c)) := rfl
@[simp] theorem State.modChan_deltas (s : State) (c : Nat) (f : Chan → Chan) : (s.modChan c f).deltas = s.deltas := rfl
@[simp] theorem State.modChan_stripe (s : State) (c : Nat) (f : Chan → Chan) : (s.modChan c f).stripe = s.stripe := rfl
@[simp] theorem State.modChan_counters (s : State) (c : Nat) (f : Chan → Chan) : (s.modChan c f).counters = s.counters := rfl
@[simp] theorem State.modChan_parts (s : State) (c : Nat) (f : Chan → Chan) : (s.modChan c f).parts = s.parts := rfl
@[simp] theorem State.modChan_vfs (s : State) (c : Nat) (f : Chan → Chan) : (s.modChan c f).vfs = s.vfs := rfl
@[simp] theorem State.modChan_fars (s : State) (c : Nat) (f : Chan → Chan) : (s.modChan c f).fars = s.fars := rfl
@[simp] theorem State.modChan_nextFar (s : State) (c : Nat) (f : Chan → Chan) : (s.modChan c f).nextFar = s.nextFar := rfl
@[simp] theorem State.modChan_tlbs (s : State) (c : Nat) (f : Chan → Chan) : (s.modChan c f).tlbs = s.tlbs := rfl
@[simp] theorem State.modChan_cobFree (s : State) (c : Nat) (f : Chan → Chan) : (s.modChan c f).cobFree = s.cobFree := rfl
@[simp] theorem State.modChan_cob (s : State) (c : Nat) (f : Chan → Chan) : (s.modChan c f).cob = s.cob := rfl
@[simp] theorem State.modChan_lanes (s : State) (c : Nat) (f : Chan → Chan) : (s.modChan c f).lanes = s.lanes := rfl
@[simp] theorem State.modChan_rxs (s : State) (c : Nat) (f : Chan → Chan) : (s.modChan c f).rxs = s.rxs := rfl
@[simp] theorem State.modChan_ports (s : State) (c : Nat) (f : Chan → Chan) : (s.modChan c f).ports = s.ports := rfl
@[simp] theorem State.modChan_laneSets (s : State) (c : Nat) (f : Chan → Chan) : (s.modChan c f).laneSets = s.laneSets := rfl
@[simp] theorem State.modChan_racks (s : State) (c : Nat) (f : Chan → Chan) : (s.modChan c f).racks = s.racks := rfl
@[simp] theorem State.modChan_planes (s : State) (c : Nat) (f : Chan → Chan) : (s.modChan c f).planes = s.planes := rfl
@[simp] theorem State.modChan_lightOut (s : State) (c : Nat) (f : Chan → Chan) : (s.modChan c f).lightOut = s.lightOut := rfl
@[simp] theorem State.modChan_wireOut (s : State) (c : Nat) (f : Chan → Chan) : (s.modChan c f).wireOut = s.wireOut := rfl
@[simp] theorem State.modChan_wireLast (s : State) (c : Nat) (f : Chan → Chan) : (s.modChan c f).wireLast = s.wireLast := rfl
@[simp] theorem State.modChan_arms (s : State) (c : Nat) (f : Chan → Chan) : (s.modChan c f).arms = s.arms := rfl
@[simp] theorem State.modChan_linkDiscards (s : State) (c : Nat) (f : Chan → Chan) : (s.modChan c f).linkDiscards = s.linkDiscards := rfl
@[simp] theorem State.modChan_podoff (s : State) (c : Nat) (f : Chan → Chan) : (s.modChan c f).podoff = s.podoff := rfl
@[simp] theorem State.modChan_missed (s : State) (c : Nat) (f : Chan → Chan) : (s.modChan c f).missed = s.missed := rfl
@[simp] theorem State.modChan_beaconSlot (s : State) (c : Nat) (f : Chan → Chan) : (s.modChan c f).beaconSlot = s.beaconSlot := rfl
@[simp] theorem State.modChan_slotNow (s : State) (c : Nat) (f : Chan → Chan) : (s.modChan c f).slotNow = s.slotNow := rfl
@[simp] theorem State.modChan_timekeeper (s : State) (c : Nat) (f : Chan → Chan) : (s.modChan c f).timekeeper = s.timekeeper := rfl
@[simp] theorem State.modChan_slew (s : State) (c : Nat) (f : Chan → Chan) : (s.modChan c f).slew = s.slew := rfl
@[simp] theorem State.modChan_devIndex (s : State) (c : Nat) (f : Chan → Chan) : (s.modChan c f).devIndex = s.devIndex := rfl
@[simp] theorem State.modChan_podSize (s : State) (c : Nat) (f : Chan → Chan) : (s.modChan c f).podSize = s.podSize := rfl
@[simp] theorem State.modChan_flight (s : State) (c : Nat) (f : Chan → Chan) : (s.modChan c f).flight = s.flight := rfl
@[simp] theorem State.modChan_rails (s : State) (c : Nat) (f : Chan → Chan) : (s.modChan c f).rails = s.rails := rfl
@[simp] theorem State.modChan_floor (s : State) (c : Nat) (f : Chan → Chan) : (s.modChan c f).floor = s.floor := rfl
@[simp] theorem State.modChan_boot (s : State) (c : Nat) (f : Chan → Chan) : (s.modChan c f).boot = s.boot := rfl
@[simp] theorem State.modChan_flash (s : State) (c : Nat) (f : Chan → Chan) : (s.modChan c f).flash = s.flash := rfl
@[simp] theorem State.modChan_firmware (s : State) (c : Nat) (f : Chan → Chan) : (s.modChan c f).firmware = s.firmware := rfl
@[simp] theorem State.modChan_secret (s : State) (c : Nat) (f : Chan → Chan) : (s.modChan c f).secret = s.secret := rfl
@[simp] theorem State.modChan_identity (s : State) (c : Nat) (f : Chan → Chan) : (s.modChan c f).identity = s.identity := rfl
@[simp] theorem State.modChan_alias_ (s : State) (c : Nat) (f : Chan → Chan) : (s.modChan c f).alias_ = s.alias_ := rfl
@[simp] theorem State.modChan_measures (s : State) (c : Nat) (f : Chan → Chan) : (s.modChan c f).measures = s.measures := rfl
@[simp] theorem State.modChan_sessions (s : State) (c : Nat) (f : Chan → Chan) : (s.modChan c f).sessions = s.sessions := rfl
@[simp] theorem State.modChan_spdm (s : State) (c : Nat) (f : Chan → Chan) : (s.modChan c f).spdm = s.spdm := rfl
@[simp] theorem State.modChan_transcripts (s : State) (c : Nat) (f : Chan → Chan) : (s.modChan c f).transcripts = s.transcripts := rfl
@[simp] theorem State.modChan_peerSessions (s : State) (c : Nat) (f : Chan → Chan) : (s.modChan c f).peerSessions = s.peerSessions := rfl
@[simp] theorem State.modChan_peers (s : State) (c : Nat) (f : Chan → Chan) : (s.modChan c f).peers = s.peers := rfl
@[simp] theorem State.modChan_ide (s : State) (c : Nat) (f : Chan → Chan) : (s.modChan c f).ide = s.ide := rfl
@[simp] theorem State.modChan_sealLog (s : State) (c : Nat) (f : Chan → Chan) : (s.modChan c f).sealLog = s.sealLog := rfl
@[simp] theorem State.modChan_answers (s : State) (c : Nat) (f : Chan → Chan) : (s.modChan c f).answers = s.answers := rfl
@[simp] theorem State.modChan_msi (s : State) (c : Nat) (f : Chan → Chan) : (s.modChan c f).msi = s.msi := rfl
@[simp] theorem State.modChan_caps (s : State) (c : Nat) (f : Chan → Chan) : (s.modChan c f).caps = s.caps := rfl
@[simp] theorem State.modChan_errors (s : State) (c : Nat) (f : Chan → Chan) : (s.modChan c f).errors = s.errors := rfl
@[simp] theorem State.modChan_testing (s : State) (c : Nat) (f : Chan → Chan) : (s.modChan c f).testing = s.testing := rfl
@[simp] theorem State.modChan_badWords (s : State) (c : Nat) (f : Chan → Chan) : (s.modChan c f).badWords = s.badWords := rfl
@[simp] theorem State.modChan_cpiWords (s : State) (c : Nat) (f : Chan → Chan) : (s.modChan c f).cpiWords = s.cpiWords := rfl
@[simp] theorem State.modChan_hbmUe (s : State) (c : Nat) (f : Chan → Chan) : (s.modChan c f).hbmUe = s.hbmUe := rfl
@[simp] theorem State.modChan_lowTests (s : State) (c : Nat) (f : Chan → Chan) : (s.modChan c f).lowTests = s.lowTests := rfl
@[simp] theorem State.modChan_undervolts (s : State) (c : Nat) (f : Chan → Chan) : (s.modChan c f).undervolts = s.undervolts := rfl
@[simp] theorem State.modChan_retiring (s : State) (c : Nat) (f : Chan → Chan) : (s.modChan c f).retiring = s.retiring := rfl

@[simp] theorem State.modPart_powered (s : State) (p : Nat) (f : Part → Part) : (s.modPart p f).powered = s.powered := rfl
@[simp] theorem State.modPart_tick (s : State) (p : Nat) (f : Part → Part) : (s.modPart p f).tick = s.tick := rfl
@[simp] theorem State.modPart_sub (s : State) (p : Nat) (f : Part → Part) : (s.modPart p f).sub = s.sub := rfl
@[simp] theorem State.modPart_todo (s : State) (p : Nat) (f : Part → Part) : (s.modPart p f).todo = s.todo := rfl
@[simp] theorem State.modPart_ctx (s : State) (p : Nat) (f : Part → Part) : (s.modPart p f).ctx = s.ctx := rfl
@[simp] theorem State.modPart_nonce (s : State) (p : Nat) (f : Part → Part) : (s.modPart p f).nonce = s.nonce := rfl
@[simp] theorem State.modPart_inbox (s : State) (p : Nat) (f : Part → Part) : (s.modPart p f).inbox = s.inbox := rfl
@[simp] theorem State.modPart_agenda (s : State) (p : Nat) (f : Part → Part) : (s.modPart p f).agenda = s.agenda := rfl
@[simp] theorem State.modPart_pend (s : State) (p : Nat) (f : Part → Part) : (s.modPart p f).pend = s.pend := rfl
@[simp] theorem State.modPart_wrote (s : State) (p : Nat) (f : Part → Part) : (s.modPart p f).wrote = s.wrote := rfl
@[simp] theorem State.modPart_pendMark (s : State) (p : Nat) (f : Part → Part) : (s.modPart p f).pendMark = s.pendMark := rfl
@[simp] theorem State.modPart_cores (s : State) (p : Nat) (f : Part → Part) : (s.modPart p f).cores = s.cores := rfl
@[simp] theorem State.modPart_pool (s : State) (p : Nat) (f : Part → Part) : (s.modPart p f).pool = s.pool := rfl
@[simp] theorem State.modPart_tags (s : State) (p : Nat) (f : Part → Part) : (s.modPart p f).tags = s.tags := rfl
@[simp] theorem State.modPart_imem (s : State) (p : Nat) (f : Part → Part) : (s.modPart p f).imem = s.imem := rfl
@[simp] theorem State.modPart_hbm (s : State) (p : Nat) (f : Part → Part) : (s.modPart p f).hbm = s.hbm := rfl
@[simp] theorem State.modPart_poisoned (s : State) (p : Nat) (f : Part → Part) : (s.modPart p f).poisoned = s.poisoned := rfl
@[simp] theorem State.modPart_host (s : State) (p : Nat) (f : Part → Part) : (s.modPart p f).host = s.host := rfl
@[simp] theorem State.modPart_runs (s : State) (p : Nat) (f : Part → Part) : (s.modPart p f).runs = s.runs := rfl
@[simp] theorem State.modPart_nextRun (s : State) (p : Nat) (f : Part → Part) : (s.modPart p f).nextRun = s.nextRun := rfl
@[simp] theorem State.modPart_nextOp (s : State) (p : Nat) (f : Part → Part) : (s.modPart p f).nextOp = s.nextOp := rfl
@[simp] theorem State.modPart_chans (s : State) (p : Nat) (f : Part → Part) : (s.modPart p f).chans = s.chans := rfl
@[simp] theorem State.modPart_deltas (s : State) (p : Nat) (f : Part → Part) : (s.modPart p f).deltas = s.deltas := rfl
@[simp] theorem State.modPart_stripe (s : State) (p : Nat) (f : Part → Part) : (s.modPart p f).stripe = s.stripe := rfl
@[simp] theorem State.modPart_counters (s : State) (p : Nat) (f : Part → Part) : (s.modPart p f).counters = s.counters := rfl
@[simp] theorem State.modPart_parts (s : State) (p : Nat) (f : Part → Part) : (s.modPart p f).parts = Table.put s.parts p (f (s.part p)) := rfl
@[simp] theorem State.modPart_vfs (s : State) (p : Nat) (f : Part → Part) : (s.modPart p f).vfs = s.vfs := rfl
@[simp] theorem State.modPart_fars (s : State) (p : Nat) (f : Part → Part) : (s.modPart p f).fars = s.fars := rfl
@[simp] theorem State.modPart_nextFar (s : State) (p : Nat) (f : Part → Part) : (s.modPart p f).nextFar = s.nextFar := rfl
@[simp] theorem State.modPart_tlbs (s : State) (p : Nat) (f : Part → Part) : (s.modPart p f).tlbs = s.tlbs := rfl
@[simp] theorem State.modPart_cobFree (s : State) (p : Nat) (f : Part → Part) : (s.modPart p f).cobFree = s.cobFree := rfl
@[simp] theorem State.modPart_cob (s : State) (p : Nat) (f : Part → Part) : (s.modPart p f).cob = s.cob := rfl
@[simp] theorem State.modPart_lanes (s : State) (p : Nat) (f : Part → Part) : (s.modPart p f).lanes = s.lanes := rfl
@[simp] theorem State.modPart_rxs (s : State) (p : Nat) (f : Part → Part) : (s.modPart p f).rxs = s.rxs := rfl
@[simp] theorem State.modPart_ports (s : State) (p : Nat) (f : Part → Part) : (s.modPart p f).ports = s.ports := rfl
@[simp] theorem State.modPart_laneSets (s : State) (p : Nat) (f : Part → Part) : (s.modPart p f).laneSets = s.laneSets := rfl
@[simp] theorem State.modPart_racks (s : State) (p : Nat) (f : Part → Part) : (s.modPart p f).racks = s.racks := rfl
@[simp] theorem State.modPart_planes (s : State) (p : Nat) (f : Part → Part) : (s.modPart p f).planes = s.planes := rfl
@[simp] theorem State.modPart_lightOut (s : State) (p : Nat) (f : Part → Part) : (s.modPart p f).lightOut = s.lightOut := rfl
@[simp] theorem State.modPart_wireOut (s : State) (p : Nat) (f : Part → Part) : (s.modPart p f).wireOut = s.wireOut := rfl
@[simp] theorem State.modPart_wireLast (s : State) (p : Nat) (f : Part → Part) : (s.modPart p f).wireLast = s.wireLast := rfl
@[simp] theorem State.modPart_arms (s : State) (p : Nat) (f : Part → Part) : (s.modPart p f).arms = s.arms := rfl
@[simp] theorem State.modPart_linkDiscards (s : State) (p : Nat) (f : Part → Part) : (s.modPart p f).linkDiscards = s.linkDiscards := rfl
@[simp] theorem State.modPart_podoff (s : State) (p : Nat) (f : Part → Part) : (s.modPart p f).podoff = s.podoff := rfl
@[simp] theorem State.modPart_missed (s : State) (p : Nat) (f : Part → Part) : (s.modPart p f).missed = s.missed := rfl
@[simp] theorem State.modPart_beaconSlot (s : State) (p : Nat) (f : Part → Part) : (s.modPart p f).beaconSlot = s.beaconSlot := rfl
@[simp] theorem State.modPart_slotNow (s : State) (p : Nat) (f : Part → Part) : (s.modPart p f).slotNow = s.slotNow := rfl
@[simp] theorem State.modPart_timekeeper (s : State) (p : Nat) (f : Part → Part) : (s.modPart p f).timekeeper = s.timekeeper := rfl
@[simp] theorem State.modPart_slew (s : State) (p : Nat) (f : Part → Part) : (s.modPart p f).slew = s.slew := rfl
@[simp] theorem State.modPart_devIndex (s : State) (p : Nat) (f : Part → Part) : (s.modPart p f).devIndex = s.devIndex := rfl
@[simp] theorem State.modPart_podSize (s : State) (p : Nat) (f : Part → Part) : (s.modPart p f).podSize = s.podSize := rfl
@[simp] theorem State.modPart_flight (s : State) (p : Nat) (f : Part → Part) : (s.modPart p f).flight = s.flight := rfl
@[simp] theorem State.modPart_rails (s : State) (p : Nat) (f : Part → Part) : (s.modPart p f).rails = s.rails := rfl
@[simp] theorem State.modPart_floor (s : State) (p : Nat) (f : Part → Part) : (s.modPart p f).floor = s.floor := rfl
@[simp] theorem State.modPart_boot (s : State) (p : Nat) (f : Part → Part) : (s.modPart p f).boot = s.boot := rfl
@[simp] theorem State.modPart_flash (s : State) (p : Nat) (f : Part → Part) : (s.modPart p f).flash = s.flash := rfl
@[simp] theorem State.modPart_firmware (s : State) (p : Nat) (f : Part → Part) : (s.modPart p f).firmware = s.firmware := rfl
@[simp] theorem State.modPart_secret (s : State) (p : Nat) (f : Part → Part) : (s.modPart p f).secret = s.secret := rfl
@[simp] theorem State.modPart_identity (s : State) (p : Nat) (f : Part → Part) : (s.modPart p f).identity = s.identity := rfl
@[simp] theorem State.modPart_alias_ (s : State) (p : Nat) (f : Part → Part) : (s.modPart p f).alias_ = s.alias_ := rfl
@[simp] theorem State.modPart_measures (s : State) (p : Nat) (f : Part → Part) : (s.modPart p f).measures = s.measures := rfl
@[simp] theorem State.modPart_sessions (s : State) (p : Nat) (f : Part → Part) : (s.modPart p f).sessions = s.sessions := rfl
@[simp] theorem State.modPart_spdm (s : State) (p : Nat) (f : Part → Part) : (s.modPart p f).spdm = s.spdm := rfl
@[simp] theorem State.modPart_transcripts (s : State) (p : Nat) (f : Part → Part) : (s.modPart p f).transcripts = s.transcripts := rfl
@[simp] theorem State.modPart_peerSessions (s : State) (p : Nat) (f : Part → Part) : (s.modPart p f).peerSessions = s.peerSessions := rfl
@[simp] theorem State.modPart_peers (s : State) (p : Nat) (f : Part → Part) : (s.modPart p f).peers = s.peers := rfl
@[simp] theorem State.modPart_ide (s : State) (p : Nat) (f : Part → Part) : (s.modPart p f).ide = s.ide := rfl
@[simp] theorem State.modPart_sealLog (s : State) (p : Nat) (f : Part → Part) : (s.modPart p f).sealLog = s.sealLog := rfl
@[simp] theorem State.modPart_answers (s : State) (p : Nat) (f : Part → Part) : (s.modPart p f).answers = s.answers := rfl
@[simp] theorem State.modPart_msi (s : State) (p : Nat) (f : Part → Part) : (s.modPart p f).msi = s.msi := rfl
@[simp] theorem State.modPart_caps (s : State) (p : Nat) (f : Part → Part) : (s.modPart p f).caps = s.caps := rfl
@[simp] theorem State.modPart_errors (s : State) (p : Nat) (f : Part → Part) : (s.modPart p f).errors = s.errors := rfl
@[simp] theorem State.modPart_testing (s : State) (p : Nat) (f : Part → Part) : (s.modPart p f).testing = s.testing := rfl
@[simp] theorem State.modPart_badWords (s : State) (p : Nat) (f : Part → Part) : (s.modPart p f).badWords = s.badWords := rfl
@[simp] theorem State.modPart_cpiWords (s : State) (p : Nat) (f : Part → Part) : (s.modPart p f).cpiWords = s.cpiWords := rfl
@[simp] theorem State.modPart_hbmUe (s : State) (p : Nat) (f : Part → Part) : (s.modPart p f).hbmUe = s.hbmUe := rfl
@[simp] theorem State.modPart_lowTests (s : State) (p : Nat) (f : Part → Part) : (s.modPart p f).lowTests = s.lowTests := rfl
@[simp] theorem State.modPart_undervolts (s : State) (p : Nat) (f : Part → Part) : (s.modPart p f).undervolts = s.undervolts := rfl
@[simp] theorem State.modPart_retiring (s : State) (p : Nat) (f : Part → Part) : (s.modPart p f).retiring = s.retiring := rfl

@[simp] theorem State.modVf_powered (s : State) (v : Nat) (f : Vf → Vf) : (s.modVf v f).powered = s.powered := rfl
@[simp] theorem State.modVf_tick (s : State) (v : Nat) (f : Vf → Vf) : (s.modVf v f).tick = s.tick := rfl
@[simp] theorem State.modVf_sub (s : State) (v : Nat) (f : Vf → Vf) : (s.modVf v f).sub = s.sub := rfl
@[simp] theorem State.modVf_todo (s : State) (v : Nat) (f : Vf → Vf) : (s.modVf v f).todo = s.todo := rfl
@[simp] theorem State.modVf_ctx (s : State) (v : Nat) (f : Vf → Vf) : (s.modVf v f).ctx = s.ctx := rfl
@[simp] theorem State.modVf_nonce (s : State) (v : Nat) (f : Vf → Vf) : (s.modVf v f).nonce = s.nonce := rfl
@[simp] theorem State.modVf_inbox (s : State) (v : Nat) (f : Vf → Vf) : (s.modVf v f).inbox = s.inbox := rfl
@[simp] theorem State.modVf_agenda (s : State) (v : Nat) (f : Vf → Vf) : (s.modVf v f).agenda = s.agenda := rfl
@[simp] theorem State.modVf_pend (s : State) (v : Nat) (f : Vf → Vf) : (s.modVf v f).pend = s.pend := rfl
@[simp] theorem State.modVf_wrote (s : State) (v : Nat) (f : Vf → Vf) : (s.modVf v f).wrote = s.wrote := rfl
@[simp] theorem State.modVf_pendMark (s : State) (v : Nat) (f : Vf → Vf) : (s.modVf v f).pendMark = s.pendMark := rfl
@[simp] theorem State.modVf_cores (s : State) (v : Nat) (f : Vf → Vf) : (s.modVf v f).cores = s.cores := rfl
@[simp] theorem State.modVf_pool (s : State) (v : Nat) (f : Vf → Vf) : (s.modVf v f).pool = s.pool := rfl
@[simp] theorem State.modVf_tags (s : State) (v : Nat) (f : Vf → Vf) : (s.modVf v f).tags = s.tags := rfl
@[simp] theorem State.modVf_imem (s : State) (v : Nat) (f : Vf → Vf) : (s.modVf v f).imem = s.imem := rfl
@[simp] theorem State.modVf_hbm (s : State) (v : Nat) (f : Vf → Vf) : (s.modVf v f).hbm = s.hbm := rfl
@[simp] theorem State.modVf_poisoned (s : State) (v : Nat) (f : Vf → Vf) : (s.modVf v f).poisoned = s.poisoned := rfl
@[simp] theorem State.modVf_host (s : State) (v : Nat) (f : Vf → Vf) : (s.modVf v f).host = s.host := rfl
@[simp] theorem State.modVf_runs (s : State) (v : Nat) (f : Vf → Vf) : (s.modVf v f).runs = s.runs := rfl
@[simp] theorem State.modVf_nextRun (s : State) (v : Nat) (f : Vf → Vf) : (s.modVf v f).nextRun = s.nextRun := rfl
@[simp] theorem State.modVf_nextOp (s : State) (v : Nat) (f : Vf → Vf) : (s.modVf v f).nextOp = s.nextOp := rfl
@[simp] theorem State.modVf_chans (s : State) (v : Nat) (f : Vf → Vf) : (s.modVf v f).chans = s.chans := rfl
@[simp] theorem State.modVf_deltas (s : State) (v : Nat) (f : Vf → Vf) : (s.modVf v f).deltas = s.deltas := rfl
@[simp] theorem State.modVf_stripe (s : State) (v : Nat) (f : Vf → Vf) : (s.modVf v f).stripe = s.stripe := rfl
@[simp] theorem State.modVf_counters (s : State) (v : Nat) (f : Vf → Vf) : (s.modVf v f).counters = s.counters := rfl
@[simp] theorem State.modVf_parts (s : State) (v : Nat) (f : Vf → Vf) : (s.modVf v f).parts = s.parts := rfl
@[simp] theorem State.modVf_vfs (s : State) (v : Nat) (f : Vf → Vf) : (s.modVf v f).vfs = Table.put s.vfs v (f (s.vf v)) := rfl
@[simp] theorem State.modVf_fars (s : State) (v : Nat) (f : Vf → Vf) : (s.modVf v f).fars = s.fars := rfl
@[simp] theorem State.modVf_nextFar (s : State) (v : Nat) (f : Vf → Vf) : (s.modVf v f).nextFar = s.nextFar := rfl
@[simp] theorem State.modVf_tlbs (s : State) (v : Nat) (f : Vf → Vf) : (s.modVf v f).tlbs = s.tlbs := rfl
@[simp] theorem State.modVf_cobFree (s : State) (v : Nat) (f : Vf → Vf) : (s.modVf v f).cobFree = s.cobFree := rfl
@[simp] theorem State.modVf_cob (s : State) (v : Nat) (f : Vf → Vf) : (s.modVf v f).cob = s.cob := rfl
@[simp] theorem State.modVf_lanes (s : State) (v : Nat) (f : Vf → Vf) : (s.modVf v f).lanes = s.lanes := rfl
@[simp] theorem State.modVf_rxs (s : State) (v : Nat) (f : Vf → Vf) : (s.modVf v f).rxs = s.rxs := rfl
@[simp] theorem State.modVf_ports (s : State) (v : Nat) (f : Vf → Vf) : (s.modVf v f).ports = s.ports := rfl
@[simp] theorem State.modVf_laneSets (s : State) (v : Nat) (f : Vf → Vf) : (s.modVf v f).laneSets = s.laneSets := rfl
@[simp] theorem State.modVf_racks (s : State) (v : Nat) (f : Vf → Vf) : (s.modVf v f).racks = s.racks := rfl
@[simp] theorem State.modVf_planes (s : State) (v : Nat) (f : Vf → Vf) : (s.modVf v f).planes = s.planes := rfl
@[simp] theorem State.modVf_lightOut (s : State) (v : Nat) (f : Vf → Vf) : (s.modVf v f).lightOut = s.lightOut := rfl
@[simp] theorem State.modVf_wireOut (s : State) (v : Nat) (f : Vf → Vf) : (s.modVf v f).wireOut = s.wireOut := rfl
@[simp] theorem State.modVf_wireLast (s : State) (v : Nat) (f : Vf → Vf) : (s.modVf v f).wireLast = s.wireLast := rfl
@[simp] theorem State.modVf_arms (s : State) (v : Nat) (f : Vf → Vf) : (s.modVf v f).arms = s.arms := rfl
@[simp] theorem State.modVf_linkDiscards (s : State) (v : Nat) (f : Vf → Vf) : (s.modVf v f).linkDiscards = s.linkDiscards := rfl
@[simp] theorem State.modVf_podoff (s : State) (v : Nat) (f : Vf → Vf) : (s.modVf v f).podoff = s.podoff := rfl
@[simp] theorem State.modVf_missed (s : State) (v : Nat) (f : Vf → Vf) : (s.modVf v f).missed = s.missed := rfl
@[simp] theorem State.modVf_beaconSlot (s : State) (v : Nat) (f : Vf → Vf) : (s.modVf v f).beaconSlot = s.beaconSlot := rfl
@[simp] theorem State.modVf_slotNow (s : State) (v : Nat) (f : Vf → Vf) : (s.modVf v f).slotNow = s.slotNow := rfl
@[simp] theorem State.modVf_timekeeper (s : State) (v : Nat) (f : Vf → Vf) : (s.modVf v f).timekeeper = s.timekeeper := rfl
@[simp] theorem State.modVf_slew (s : State) (v : Nat) (f : Vf → Vf) : (s.modVf v f).slew = s.slew := rfl
@[simp] theorem State.modVf_devIndex (s : State) (v : Nat) (f : Vf → Vf) : (s.modVf v f).devIndex = s.devIndex := rfl
@[simp] theorem State.modVf_podSize (s : State) (v : Nat) (f : Vf → Vf) : (s.modVf v f).podSize = s.podSize := rfl
@[simp] theorem State.modVf_flight (s : State) (v : Nat) (f : Vf → Vf) : (s.modVf v f).flight = s.flight := rfl
@[simp] theorem State.modVf_rails (s : State) (v : Nat) (f : Vf → Vf) : (s.modVf v f).rails = s.rails := rfl
@[simp] theorem State.modVf_floor (s : State) (v : Nat) (f : Vf → Vf) : (s.modVf v f).floor = s.floor := rfl
@[simp] theorem State.modVf_boot (s : State) (v : Nat) (f : Vf → Vf) : (s.modVf v f).boot = s.boot := rfl
@[simp] theorem State.modVf_flash (s : State) (v : Nat) (f : Vf → Vf) : (s.modVf v f).flash = s.flash := rfl
@[simp] theorem State.modVf_firmware (s : State) (v : Nat) (f : Vf → Vf) : (s.modVf v f).firmware = s.firmware := rfl
@[simp] theorem State.modVf_secret (s : State) (v : Nat) (f : Vf → Vf) : (s.modVf v f).secret = s.secret := rfl
@[simp] theorem State.modVf_identity (s : State) (v : Nat) (f : Vf → Vf) : (s.modVf v f).identity = s.identity := rfl
@[simp] theorem State.modVf_alias_ (s : State) (v : Nat) (f : Vf → Vf) : (s.modVf v f).alias_ = s.alias_ := rfl
@[simp] theorem State.modVf_measures (s : State) (v : Nat) (f : Vf → Vf) : (s.modVf v f).measures = s.measures := rfl
@[simp] theorem State.modVf_sessions (s : State) (v : Nat) (f : Vf → Vf) : (s.modVf v f).sessions = s.sessions := rfl
@[simp] theorem State.modVf_spdm (s : State) (v : Nat) (f : Vf → Vf) : (s.modVf v f).spdm = s.spdm := rfl
@[simp] theorem State.modVf_transcripts (s : State) (v : Nat) (f : Vf → Vf) : (s.modVf v f).transcripts = s.transcripts := rfl
@[simp] theorem State.modVf_peerSessions (s : State) (v : Nat) (f : Vf → Vf) : (s.modVf v f).peerSessions = s.peerSessions := rfl
@[simp] theorem State.modVf_peers (s : State) (v : Nat) (f : Vf → Vf) : (s.modVf v f).peers = s.peers := rfl
@[simp] theorem State.modVf_ide (s : State) (v : Nat) (f : Vf → Vf) : (s.modVf v f).ide = s.ide := rfl
@[simp] theorem State.modVf_sealLog (s : State) (v : Nat) (f : Vf → Vf) : (s.modVf v f).sealLog = s.sealLog := rfl
@[simp] theorem State.modVf_answers (s : State) (v : Nat) (f : Vf → Vf) : (s.modVf v f).answers = s.answers := rfl
@[simp] theorem State.modVf_msi (s : State) (v : Nat) (f : Vf → Vf) : (s.modVf v f).msi = s.msi := rfl
@[simp] theorem State.modVf_caps (s : State) (v : Nat) (f : Vf → Vf) : (s.modVf v f).caps = s.caps := rfl
@[simp] theorem State.modVf_errors (s : State) (v : Nat) (f : Vf → Vf) : (s.modVf v f).errors = s.errors := rfl
@[simp] theorem State.modVf_testing (s : State) (v : Nat) (f : Vf → Vf) : (s.modVf v f).testing = s.testing := rfl
@[simp] theorem State.modVf_badWords (s : State) (v : Nat) (f : Vf → Vf) : (s.modVf v f).badWords = s.badWords := rfl
@[simp] theorem State.modVf_cpiWords (s : State) (v : Nat) (f : Vf → Vf) : (s.modVf v f).cpiWords = s.cpiWords := rfl
@[simp] theorem State.modVf_hbmUe (s : State) (v : Nat) (f : Vf → Vf) : (s.modVf v f).hbmUe = s.hbmUe := rfl
@[simp] theorem State.modVf_lowTests (s : State) (v : Nat) (f : Vf → Vf) : (s.modVf v f).lowTests = s.lowTests := rfl
@[simp] theorem State.modVf_undervolts (s : State) (v : Nat) (f : Vf → Vf) : (s.modVf v f).undervolts = s.undervolts := rfl
@[simp] theorem State.modVf_retiring (s : State) (v : Nat) (f : Vf → Vf) : (s.modVf v f).retiring = s.retiring := rfl

@[simp] theorem State.modLane_powered (s : State) (l : Nat) (f : Lane → Lane) : (s.modLane l f).powered = s.powered := rfl
@[simp] theorem State.modLane_tick (s : State) (l : Nat) (f : Lane → Lane) : (s.modLane l f).tick = s.tick := rfl
@[simp] theorem State.modLane_sub (s : State) (l : Nat) (f : Lane → Lane) : (s.modLane l f).sub = s.sub := rfl
@[simp] theorem State.modLane_todo (s : State) (l : Nat) (f : Lane → Lane) : (s.modLane l f).todo = s.todo := rfl
@[simp] theorem State.modLane_ctx (s : State) (l : Nat) (f : Lane → Lane) : (s.modLane l f).ctx = s.ctx := rfl
@[simp] theorem State.modLane_nonce (s : State) (l : Nat) (f : Lane → Lane) : (s.modLane l f).nonce = s.nonce := rfl
@[simp] theorem State.modLane_inbox (s : State) (l : Nat) (f : Lane → Lane) : (s.modLane l f).inbox = s.inbox := rfl
@[simp] theorem State.modLane_agenda (s : State) (l : Nat) (f : Lane → Lane) : (s.modLane l f).agenda = s.agenda := rfl
@[simp] theorem State.modLane_pend (s : State) (l : Nat) (f : Lane → Lane) : (s.modLane l f).pend = s.pend := rfl
@[simp] theorem State.modLane_wrote (s : State) (l : Nat) (f : Lane → Lane) : (s.modLane l f).wrote = s.wrote := rfl
@[simp] theorem State.modLane_pendMark (s : State) (l : Nat) (f : Lane → Lane) : (s.modLane l f).pendMark = s.pendMark := rfl
@[simp] theorem State.modLane_cores (s : State) (l : Nat) (f : Lane → Lane) : (s.modLane l f).cores = s.cores := rfl
@[simp] theorem State.modLane_pool (s : State) (l : Nat) (f : Lane → Lane) : (s.modLane l f).pool = s.pool := rfl
@[simp] theorem State.modLane_tags (s : State) (l : Nat) (f : Lane → Lane) : (s.modLane l f).tags = s.tags := rfl
@[simp] theorem State.modLane_imem (s : State) (l : Nat) (f : Lane → Lane) : (s.modLane l f).imem = s.imem := rfl
@[simp] theorem State.modLane_hbm (s : State) (l : Nat) (f : Lane → Lane) : (s.modLane l f).hbm = s.hbm := rfl
@[simp] theorem State.modLane_poisoned (s : State) (l : Nat) (f : Lane → Lane) : (s.modLane l f).poisoned = s.poisoned := rfl
@[simp] theorem State.modLane_host (s : State) (l : Nat) (f : Lane → Lane) : (s.modLane l f).host = s.host := rfl
@[simp] theorem State.modLane_runs (s : State) (l : Nat) (f : Lane → Lane) : (s.modLane l f).runs = s.runs := rfl
@[simp] theorem State.modLane_nextRun (s : State) (l : Nat) (f : Lane → Lane) : (s.modLane l f).nextRun = s.nextRun := rfl
@[simp] theorem State.modLane_nextOp (s : State) (l : Nat) (f : Lane → Lane) : (s.modLane l f).nextOp = s.nextOp := rfl
@[simp] theorem State.modLane_chans (s : State) (l : Nat) (f : Lane → Lane) : (s.modLane l f).chans = s.chans := rfl
@[simp] theorem State.modLane_deltas (s : State) (l : Nat) (f : Lane → Lane) : (s.modLane l f).deltas = s.deltas := rfl
@[simp] theorem State.modLane_stripe (s : State) (l : Nat) (f : Lane → Lane) : (s.modLane l f).stripe = s.stripe := rfl
@[simp] theorem State.modLane_counters (s : State) (l : Nat) (f : Lane → Lane) : (s.modLane l f).counters = s.counters := rfl
@[simp] theorem State.modLane_parts (s : State) (l : Nat) (f : Lane → Lane) : (s.modLane l f).parts = s.parts := rfl
@[simp] theorem State.modLane_vfs (s : State) (l : Nat) (f : Lane → Lane) : (s.modLane l f).vfs = s.vfs := rfl
@[simp] theorem State.modLane_fars (s : State) (l : Nat) (f : Lane → Lane) : (s.modLane l f).fars = s.fars := rfl
@[simp] theorem State.modLane_nextFar (s : State) (l : Nat) (f : Lane → Lane) : (s.modLane l f).nextFar = s.nextFar := rfl
@[simp] theorem State.modLane_tlbs (s : State) (l : Nat) (f : Lane → Lane) : (s.modLane l f).tlbs = s.tlbs := rfl
@[simp] theorem State.modLane_cobFree (s : State) (l : Nat) (f : Lane → Lane) : (s.modLane l f).cobFree = s.cobFree := rfl
@[simp] theorem State.modLane_cob (s : State) (l : Nat) (f : Lane → Lane) : (s.modLane l f).cob = s.cob := rfl
@[simp] theorem State.modLane_lanes (s : State) (l : Nat) (f : Lane → Lane) : (s.modLane l f).lanes = Table.put s.lanes l (f (s.lane l)) := rfl
@[simp] theorem State.modLane_rxs (s : State) (l : Nat) (f : Lane → Lane) : (s.modLane l f).rxs = s.rxs := rfl
@[simp] theorem State.modLane_ports (s : State) (l : Nat) (f : Lane → Lane) : (s.modLane l f).ports = s.ports := rfl
@[simp] theorem State.modLane_laneSets (s : State) (l : Nat) (f : Lane → Lane) : (s.modLane l f).laneSets = s.laneSets := rfl
@[simp] theorem State.modLane_racks (s : State) (l : Nat) (f : Lane → Lane) : (s.modLane l f).racks = s.racks := rfl
@[simp] theorem State.modLane_planes (s : State) (l : Nat) (f : Lane → Lane) : (s.modLane l f).planes = s.planes := rfl
@[simp] theorem State.modLane_lightOut (s : State) (l : Nat) (f : Lane → Lane) : (s.modLane l f).lightOut = s.lightOut := rfl
@[simp] theorem State.modLane_wireOut (s : State) (l : Nat) (f : Lane → Lane) : (s.modLane l f).wireOut = s.wireOut := rfl
@[simp] theorem State.modLane_wireLast (s : State) (l : Nat) (f : Lane → Lane) : (s.modLane l f).wireLast = s.wireLast := rfl
@[simp] theorem State.modLane_arms (s : State) (l : Nat) (f : Lane → Lane) : (s.modLane l f).arms = s.arms := rfl
@[simp] theorem State.modLane_linkDiscards (s : State) (l : Nat) (f : Lane → Lane) : (s.modLane l f).linkDiscards = s.linkDiscards := rfl
@[simp] theorem State.modLane_podoff (s : State) (l : Nat) (f : Lane → Lane) : (s.modLane l f).podoff = s.podoff := rfl
@[simp] theorem State.modLane_missed (s : State) (l : Nat) (f : Lane → Lane) : (s.modLane l f).missed = s.missed := rfl
@[simp] theorem State.modLane_beaconSlot (s : State) (l : Nat) (f : Lane → Lane) : (s.modLane l f).beaconSlot = s.beaconSlot := rfl
@[simp] theorem State.modLane_slotNow (s : State) (l : Nat) (f : Lane → Lane) : (s.modLane l f).slotNow = s.slotNow := rfl
@[simp] theorem State.modLane_timekeeper (s : State) (l : Nat) (f : Lane → Lane) : (s.modLane l f).timekeeper = s.timekeeper := rfl
@[simp] theorem State.modLane_slew (s : State) (l : Nat) (f : Lane → Lane) : (s.modLane l f).slew = s.slew := rfl
@[simp] theorem State.modLane_devIndex (s : State) (l : Nat) (f : Lane → Lane) : (s.modLane l f).devIndex = s.devIndex := rfl
@[simp] theorem State.modLane_podSize (s : State) (l : Nat) (f : Lane → Lane) : (s.modLane l f).podSize = s.podSize := rfl
@[simp] theorem State.modLane_flight (s : State) (l : Nat) (f : Lane → Lane) : (s.modLane l f).flight = s.flight := rfl
@[simp] theorem State.modLane_rails (s : State) (l : Nat) (f : Lane → Lane) : (s.modLane l f).rails = s.rails := rfl
@[simp] theorem State.modLane_floor (s : State) (l : Nat) (f : Lane → Lane) : (s.modLane l f).floor = s.floor := rfl
@[simp] theorem State.modLane_boot (s : State) (l : Nat) (f : Lane → Lane) : (s.modLane l f).boot = s.boot := rfl
@[simp] theorem State.modLane_flash (s : State) (l : Nat) (f : Lane → Lane) : (s.modLane l f).flash = s.flash := rfl
@[simp] theorem State.modLane_firmware (s : State) (l : Nat) (f : Lane → Lane) : (s.modLane l f).firmware = s.firmware := rfl
@[simp] theorem State.modLane_secret (s : State) (l : Nat) (f : Lane → Lane) : (s.modLane l f).secret = s.secret := rfl
@[simp] theorem State.modLane_identity (s : State) (l : Nat) (f : Lane → Lane) : (s.modLane l f).identity = s.identity := rfl
@[simp] theorem State.modLane_alias_ (s : State) (l : Nat) (f : Lane → Lane) : (s.modLane l f).alias_ = s.alias_ := rfl
@[simp] theorem State.modLane_measures (s : State) (l : Nat) (f : Lane → Lane) : (s.modLane l f).measures = s.measures := rfl
@[simp] theorem State.modLane_sessions (s : State) (l : Nat) (f : Lane → Lane) : (s.modLane l f).sessions = s.sessions := rfl
@[simp] theorem State.modLane_spdm (s : State) (l : Nat) (f : Lane → Lane) : (s.modLane l f).spdm = s.spdm := rfl
@[simp] theorem State.modLane_transcripts (s : State) (l : Nat) (f : Lane → Lane) : (s.modLane l f).transcripts = s.transcripts := rfl
@[simp] theorem State.modLane_peerSessions (s : State) (l : Nat) (f : Lane → Lane) : (s.modLane l f).peerSessions = s.peerSessions := rfl
@[simp] theorem State.modLane_peers (s : State) (l : Nat) (f : Lane → Lane) : (s.modLane l f).peers = s.peers := rfl
@[simp] theorem State.modLane_ide (s : State) (l : Nat) (f : Lane → Lane) : (s.modLane l f).ide = s.ide := rfl
@[simp] theorem State.modLane_sealLog (s : State) (l : Nat) (f : Lane → Lane) : (s.modLane l f).sealLog = s.sealLog := rfl
@[simp] theorem State.modLane_answers (s : State) (l : Nat) (f : Lane → Lane) : (s.modLane l f).answers = s.answers := rfl
@[simp] theorem State.modLane_msi (s : State) (l : Nat) (f : Lane → Lane) : (s.modLane l f).msi = s.msi := rfl
@[simp] theorem State.modLane_caps (s : State) (l : Nat) (f : Lane → Lane) : (s.modLane l f).caps = s.caps := rfl
@[simp] theorem State.modLane_errors (s : State) (l : Nat) (f : Lane → Lane) : (s.modLane l f).errors = s.errors := rfl
@[simp] theorem State.modLane_testing (s : State) (l : Nat) (f : Lane → Lane) : (s.modLane l f).testing = s.testing := rfl
@[simp] theorem State.modLane_badWords (s : State) (l : Nat) (f : Lane → Lane) : (s.modLane l f).badWords = s.badWords := rfl
@[simp] theorem State.modLane_cpiWords (s : State) (l : Nat) (f : Lane → Lane) : (s.modLane l f).cpiWords = s.cpiWords := rfl
@[simp] theorem State.modLane_hbmUe (s : State) (l : Nat) (f : Lane → Lane) : (s.modLane l f).hbmUe = s.hbmUe := rfl
@[simp] theorem State.modLane_lowTests (s : State) (l : Nat) (f : Lane → Lane) : (s.modLane l f).lowTests = s.lowTests := rfl
@[simp] theorem State.modLane_undervolts (s : State) (l : Nat) (f : Lane → Lane) : (s.modLane l f).undervolts = s.undervolts := rfl
@[simp] theorem State.modLane_retiring (s : State) (l : Nat) (f : Lane → Lane) : (s.modLane l f).retiring = s.retiring := rfl

@[simp] theorem State.modLaneSet_powered (s : State) (j : Nat) (f : LaneSet → LaneSet) : (s.modLaneSet j f).powered = s.powered := rfl
@[simp] theorem State.modLaneSet_tick (s : State) (j : Nat) (f : LaneSet → LaneSet) : (s.modLaneSet j f).tick = s.tick := rfl
@[simp] theorem State.modLaneSet_sub (s : State) (j : Nat) (f : LaneSet → LaneSet) : (s.modLaneSet j f).sub = s.sub := rfl
@[simp] theorem State.modLaneSet_todo (s : State) (j : Nat) (f : LaneSet → LaneSet) : (s.modLaneSet j f).todo = s.todo := rfl
@[simp] theorem State.modLaneSet_ctx (s : State) (j : Nat) (f : LaneSet → LaneSet) : (s.modLaneSet j f).ctx = s.ctx := rfl
@[simp] theorem State.modLaneSet_nonce (s : State) (j : Nat) (f : LaneSet → LaneSet) : (s.modLaneSet j f).nonce = s.nonce := rfl
@[simp] theorem State.modLaneSet_inbox (s : State) (j : Nat) (f : LaneSet → LaneSet) : (s.modLaneSet j f).inbox = s.inbox := rfl
@[simp] theorem State.modLaneSet_agenda (s : State) (j : Nat) (f : LaneSet → LaneSet) : (s.modLaneSet j f).agenda = s.agenda := rfl
@[simp] theorem State.modLaneSet_pend (s : State) (j : Nat) (f : LaneSet → LaneSet) : (s.modLaneSet j f).pend = s.pend := rfl
@[simp] theorem State.modLaneSet_wrote (s : State) (j : Nat) (f : LaneSet → LaneSet) : (s.modLaneSet j f).wrote = s.wrote := rfl
@[simp] theorem State.modLaneSet_pendMark (s : State) (j : Nat) (f : LaneSet → LaneSet) : (s.modLaneSet j f).pendMark = s.pendMark := rfl
@[simp] theorem State.modLaneSet_cores (s : State) (j : Nat) (f : LaneSet → LaneSet) : (s.modLaneSet j f).cores = s.cores := rfl
@[simp] theorem State.modLaneSet_pool (s : State) (j : Nat) (f : LaneSet → LaneSet) : (s.modLaneSet j f).pool = s.pool := rfl
@[simp] theorem State.modLaneSet_tags (s : State) (j : Nat) (f : LaneSet → LaneSet) : (s.modLaneSet j f).tags = s.tags := rfl
@[simp] theorem State.modLaneSet_imem (s : State) (j : Nat) (f : LaneSet → LaneSet) : (s.modLaneSet j f).imem = s.imem := rfl
@[simp] theorem State.modLaneSet_hbm (s : State) (j : Nat) (f : LaneSet → LaneSet) : (s.modLaneSet j f).hbm = s.hbm := rfl
@[simp] theorem State.modLaneSet_poisoned (s : State) (j : Nat) (f : LaneSet → LaneSet) : (s.modLaneSet j f).poisoned = s.poisoned := rfl
@[simp] theorem State.modLaneSet_host (s : State) (j : Nat) (f : LaneSet → LaneSet) : (s.modLaneSet j f).host = s.host := rfl
@[simp] theorem State.modLaneSet_runs (s : State) (j : Nat) (f : LaneSet → LaneSet) : (s.modLaneSet j f).runs = s.runs := rfl
@[simp] theorem State.modLaneSet_nextRun (s : State) (j : Nat) (f : LaneSet → LaneSet) : (s.modLaneSet j f).nextRun = s.nextRun := rfl
@[simp] theorem State.modLaneSet_nextOp (s : State) (j : Nat) (f : LaneSet → LaneSet) : (s.modLaneSet j f).nextOp = s.nextOp := rfl
@[simp] theorem State.modLaneSet_chans (s : State) (j : Nat) (f : LaneSet → LaneSet) : (s.modLaneSet j f).chans = s.chans := rfl
@[simp] theorem State.modLaneSet_deltas (s : State) (j : Nat) (f : LaneSet → LaneSet) : (s.modLaneSet j f).deltas = s.deltas := rfl
@[simp] theorem State.modLaneSet_stripe (s : State) (j : Nat) (f : LaneSet → LaneSet) : (s.modLaneSet j f).stripe = s.stripe := rfl
@[simp] theorem State.modLaneSet_counters (s : State) (j : Nat) (f : LaneSet → LaneSet) : (s.modLaneSet j f).counters = s.counters := rfl
@[simp] theorem State.modLaneSet_parts (s : State) (j : Nat) (f : LaneSet → LaneSet) : (s.modLaneSet j f).parts = s.parts := rfl
@[simp] theorem State.modLaneSet_vfs (s : State) (j : Nat) (f : LaneSet → LaneSet) : (s.modLaneSet j f).vfs = s.vfs := rfl
@[simp] theorem State.modLaneSet_fars (s : State) (j : Nat) (f : LaneSet → LaneSet) : (s.modLaneSet j f).fars = s.fars := rfl
@[simp] theorem State.modLaneSet_nextFar (s : State) (j : Nat) (f : LaneSet → LaneSet) : (s.modLaneSet j f).nextFar = s.nextFar := rfl
@[simp] theorem State.modLaneSet_tlbs (s : State) (j : Nat) (f : LaneSet → LaneSet) : (s.modLaneSet j f).tlbs = s.tlbs := rfl
@[simp] theorem State.modLaneSet_cobFree (s : State) (j : Nat) (f : LaneSet → LaneSet) : (s.modLaneSet j f).cobFree = s.cobFree := rfl
@[simp] theorem State.modLaneSet_cob (s : State) (j : Nat) (f : LaneSet → LaneSet) : (s.modLaneSet j f).cob = s.cob := rfl
@[simp] theorem State.modLaneSet_lanes (s : State) (j : Nat) (f : LaneSet → LaneSet) : (s.modLaneSet j f).lanes = s.lanes := rfl
@[simp] theorem State.modLaneSet_rxs (s : State) (j : Nat) (f : LaneSet → LaneSet) : (s.modLaneSet j f).rxs = s.rxs := rfl
@[simp] theorem State.modLaneSet_ports (s : State) (j : Nat) (f : LaneSet → LaneSet) : (s.modLaneSet j f).ports = s.ports := rfl
@[simp] theorem State.modLaneSet_laneSets (s : State) (j : Nat) (f : LaneSet → LaneSet) : (s.modLaneSet j f).laneSets = Table.put s.laneSets j (f (s.laneSet j)) := rfl
@[simp] theorem State.modLaneSet_racks (s : State) (j : Nat) (f : LaneSet → LaneSet) : (s.modLaneSet j f).racks = s.racks := rfl
@[simp] theorem State.modLaneSet_planes (s : State) (j : Nat) (f : LaneSet → LaneSet) : (s.modLaneSet j f).planes = s.planes := rfl
@[simp] theorem State.modLaneSet_lightOut (s : State) (j : Nat) (f : LaneSet → LaneSet) : (s.modLaneSet j f).lightOut = s.lightOut := rfl
@[simp] theorem State.modLaneSet_wireOut (s : State) (j : Nat) (f : LaneSet → LaneSet) : (s.modLaneSet j f).wireOut = s.wireOut := rfl
@[simp] theorem State.modLaneSet_wireLast (s : State) (j : Nat) (f : LaneSet → LaneSet) : (s.modLaneSet j f).wireLast = s.wireLast := rfl
@[simp] theorem State.modLaneSet_arms (s : State) (j : Nat) (f : LaneSet → LaneSet) : (s.modLaneSet j f).arms = s.arms := rfl
@[simp] theorem State.modLaneSet_linkDiscards (s : State) (j : Nat) (f : LaneSet → LaneSet) : (s.modLaneSet j f).linkDiscards = s.linkDiscards := rfl
@[simp] theorem State.modLaneSet_podoff (s : State) (j : Nat) (f : LaneSet → LaneSet) : (s.modLaneSet j f).podoff = s.podoff := rfl
@[simp] theorem State.modLaneSet_missed (s : State) (j : Nat) (f : LaneSet → LaneSet) : (s.modLaneSet j f).missed = s.missed := rfl
@[simp] theorem State.modLaneSet_beaconSlot (s : State) (j : Nat) (f : LaneSet → LaneSet) : (s.modLaneSet j f).beaconSlot = s.beaconSlot := rfl
@[simp] theorem State.modLaneSet_slotNow (s : State) (j : Nat) (f : LaneSet → LaneSet) : (s.modLaneSet j f).slotNow = s.slotNow := rfl
@[simp] theorem State.modLaneSet_timekeeper (s : State) (j : Nat) (f : LaneSet → LaneSet) : (s.modLaneSet j f).timekeeper = s.timekeeper := rfl
@[simp] theorem State.modLaneSet_slew (s : State) (j : Nat) (f : LaneSet → LaneSet) : (s.modLaneSet j f).slew = s.slew := rfl
@[simp] theorem State.modLaneSet_devIndex (s : State) (j : Nat) (f : LaneSet → LaneSet) : (s.modLaneSet j f).devIndex = s.devIndex := rfl
@[simp] theorem State.modLaneSet_podSize (s : State) (j : Nat) (f : LaneSet → LaneSet) : (s.modLaneSet j f).podSize = s.podSize := rfl
@[simp] theorem State.modLaneSet_flight (s : State) (j : Nat) (f : LaneSet → LaneSet) : (s.modLaneSet j f).flight = s.flight := rfl
@[simp] theorem State.modLaneSet_rails (s : State) (j : Nat) (f : LaneSet → LaneSet) : (s.modLaneSet j f).rails = s.rails := rfl
@[simp] theorem State.modLaneSet_floor (s : State) (j : Nat) (f : LaneSet → LaneSet) : (s.modLaneSet j f).floor = s.floor := rfl
@[simp] theorem State.modLaneSet_boot (s : State) (j : Nat) (f : LaneSet → LaneSet) : (s.modLaneSet j f).boot = s.boot := rfl
@[simp] theorem State.modLaneSet_flash (s : State) (j : Nat) (f : LaneSet → LaneSet) : (s.modLaneSet j f).flash = s.flash := rfl
@[simp] theorem State.modLaneSet_firmware (s : State) (j : Nat) (f : LaneSet → LaneSet) : (s.modLaneSet j f).firmware = s.firmware := rfl
@[simp] theorem State.modLaneSet_secret (s : State) (j : Nat) (f : LaneSet → LaneSet) : (s.modLaneSet j f).secret = s.secret := rfl
@[simp] theorem State.modLaneSet_identity (s : State) (j : Nat) (f : LaneSet → LaneSet) : (s.modLaneSet j f).identity = s.identity := rfl
@[simp] theorem State.modLaneSet_alias_ (s : State) (j : Nat) (f : LaneSet → LaneSet) : (s.modLaneSet j f).alias_ = s.alias_ := rfl
@[simp] theorem State.modLaneSet_measures (s : State) (j : Nat) (f : LaneSet → LaneSet) : (s.modLaneSet j f).measures = s.measures := rfl
@[simp] theorem State.modLaneSet_sessions (s : State) (j : Nat) (f : LaneSet → LaneSet) : (s.modLaneSet j f).sessions = s.sessions := rfl
@[simp] theorem State.modLaneSet_spdm (s : State) (j : Nat) (f : LaneSet → LaneSet) : (s.modLaneSet j f).spdm = s.spdm := rfl
@[simp] theorem State.modLaneSet_transcripts (s : State) (j : Nat) (f : LaneSet → LaneSet) : (s.modLaneSet j f).transcripts = s.transcripts := rfl
@[simp] theorem State.modLaneSet_peerSessions (s : State) (j : Nat) (f : LaneSet → LaneSet) : (s.modLaneSet j f).peerSessions = s.peerSessions := rfl
@[simp] theorem State.modLaneSet_peers (s : State) (j : Nat) (f : LaneSet → LaneSet) : (s.modLaneSet j f).peers = s.peers := rfl
@[simp] theorem State.modLaneSet_ide (s : State) (j : Nat) (f : LaneSet → LaneSet) : (s.modLaneSet j f).ide = s.ide := rfl
@[simp] theorem State.modLaneSet_sealLog (s : State) (j : Nat) (f : LaneSet → LaneSet) : (s.modLaneSet j f).sealLog = s.sealLog := rfl
@[simp] theorem State.modLaneSet_answers (s : State) (j : Nat) (f : LaneSet → LaneSet) : (s.modLaneSet j f).answers = s.answers := rfl
@[simp] theorem State.modLaneSet_msi (s : State) (j : Nat) (f : LaneSet → LaneSet) : (s.modLaneSet j f).msi = s.msi := rfl
@[simp] theorem State.modLaneSet_caps (s : State) (j : Nat) (f : LaneSet → LaneSet) : (s.modLaneSet j f).caps = s.caps := rfl
@[simp] theorem State.modLaneSet_errors (s : State) (j : Nat) (f : LaneSet → LaneSet) : (s.modLaneSet j f).errors = s.errors := rfl
@[simp] theorem State.modLaneSet_testing (s : State) (j : Nat) (f : LaneSet → LaneSet) : (s.modLaneSet j f).testing = s.testing := rfl
@[simp] theorem State.modLaneSet_badWords (s : State) (j : Nat) (f : LaneSet → LaneSet) : (s.modLaneSet j f).badWords = s.badWords := rfl
@[simp] theorem State.modLaneSet_cpiWords (s : State) (j : Nat) (f : LaneSet → LaneSet) : (s.modLaneSet j f).cpiWords = s.cpiWords := rfl
@[simp] theorem State.modLaneSet_hbmUe (s : State) (j : Nat) (f : LaneSet → LaneSet) : (s.modLaneSet j f).hbmUe = s.hbmUe := rfl
@[simp] theorem State.modLaneSet_lowTests (s : State) (j : Nat) (f : LaneSet → LaneSet) : (s.modLaneSet j f).lowTests = s.lowTests := rfl
@[simp] theorem State.modLaneSet_undervolts (s : State) (j : Nat) (f : LaneSet → LaneSet) : (s.modLaneSet j f).undervolts = s.undervolts := rfl
@[simp] theorem State.modLaneSet_retiring (s : State) (j : Nat) (f : LaneSet → LaneSet) : (s.modLaneSet j f).retiring = s.retiring := rfl

@[simp] theorem State.modPort_powered (s : State) (c : Nat) (f : Port → Port) : (s.modPort c f).powered = s.powered := rfl
@[simp] theorem State.modPort_tick (s : State) (c : Nat) (f : Port → Port) : (s.modPort c f).tick = s.tick := rfl
@[simp] theorem State.modPort_sub (s : State) (c : Nat) (f : Port → Port) : (s.modPort c f).sub = s.sub := rfl
@[simp] theorem State.modPort_todo (s : State) (c : Nat) (f : Port → Port) : (s.modPort c f).todo = s.todo := rfl
@[simp] theorem State.modPort_ctx (s : State) (c : Nat) (f : Port → Port) : (s.modPort c f).ctx = s.ctx := rfl
@[simp] theorem State.modPort_nonce (s : State) (c : Nat) (f : Port → Port) : (s.modPort c f).nonce = s.nonce := rfl
@[simp] theorem State.modPort_inbox (s : State) (c : Nat) (f : Port → Port) : (s.modPort c f).inbox = s.inbox := rfl
@[simp] theorem State.modPort_agenda (s : State) (c : Nat) (f : Port → Port) : (s.modPort c f).agenda = s.agenda := rfl
@[simp] theorem State.modPort_pend (s : State) (c : Nat) (f : Port → Port) : (s.modPort c f).pend = s.pend := rfl
@[simp] theorem State.modPort_wrote (s : State) (c : Nat) (f : Port → Port) : (s.modPort c f).wrote = s.wrote := rfl
@[simp] theorem State.modPort_pendMark (s : State) (c : Nat) (f : Port → Port) : (s.modPort c f).pendMark = s.pendMark := rfl
@[simp] theorem State.modPort_cores (s : State) (c : Nat) (f : Port → Port) : (s.modPort c f).cores = s.cores := rfl
@[simp] theorem State.modPort_pool (s : State) (c : Nat) (f : Port → Port) : (s.modPort c f).pool = s.pool := rfl
@[simp] theorem State.modPort_tags (s : State) (c : Nat) (f : Port → Port) : (s.modPort c f).tags = s.tags := rfl
@[simp] theorem State.modPort_imem (s : State) (c : Nat) (f : Port → Port) : (s.modPort c f).imem = s.imem := rfl
@[simp] theorem State.modPort_hbm (s : State) (c : Nat) (f : Port → Port) : (s.modPort c f).hbm = s.hbm := rfl
@[simp] theorem State.modPort_poisoned (s : State) (c : Nat) (f : Port → Port) : (s.modPort c f).poisoned = s.poisoned := rfl
@[simp] theorem State.modPort_host (s : State) (c : Nat) (f : Port → Port) : (s.modPort c f).host = s.host := rfl
@[simp] theorem State.modPort_runs (s : State) (c : Nat) (f : Port → Port) : (s.modPort c f).runs = s.runs := rfl
@[simp] theorem State.modPort_nextRun (s : State) (c : Nat) (f : Port → Port) : (s.modPort c f).nextRun = s.nextRun := rfl
@[simp] theorem State.modPort_nextOp (s : State) (c : Nat) (f : Port → Port) : (s.modPort c f).nextOp = s.nextOp := rfl
@[simp] theorem State.modPort_chans (s : State) (c : Nat) (f : Port → Port) : (s.modPort c f).chans = s.chans := rfl
@[simp] theorem State.modPort_deltas (s : State) (c : Nat) (f : Port → Port) : (s.modPort c f).deltas = s.deltas := rfl
@[simp] theorem State.modPort_stripe (s : State) (c : Nat) (f : Port → Port) : (s.modPort c f).stripe = s.stripe := rfl
@[simp] theorem State.modPort_counters (s : State) (c : Nat) (f : Port → Port) : (s.modPort c f).counters = s.counters := rfl
@[simp] theorem State.modPort_parts (s : State) (c : Nat) (f : Port → Port) : (s.modPort c f).parts = s.parts := rfl
@[simp] theorem State.modPort_vfs (s : State) (c : Nat) (f : Port → Port) : (s.modPort c f).vfs = s.vfs := rfl
@[simp] theorem State.modPort_fars (s : State) (c : Nat) (f : Port → Port) : (s.modPort c f).fars = s.fars := rfl
@[simp] theorem State.modPort_nextFar (s : State) (c : Nat) (f : Port → Port) : (s.modPort c f).nextFar = s.nextFar := rfl
@[simp] theorem State.modPort_tlbs (s : State) (c : Nat) (f : Port → Port) : (s.modPort c f).tlbs = s.tlbs := rfl
@[simp] theorem State.modPort_cobFree (s : State) (c : Nat) (f : Port → Port) : (s.modPort c f).cobFree = s.cobFree := rfl
@[simp] theorem State.modPort_cob (s : State) (c : Nat) (f : Port → Port) : (s.modPort c f).cob = s.cob := rfl
@[simp] theorem State.modPort_lanes (s : State) (c : Nat) (f : Port → Port) : (s.modPort c f).lanes = s.lanes := rfl
@[simp] theorem State.modPort_rxs (s : State) (c : Nat) (f : Port → Port) : (s.modPort c f).rxs = s.rxs := rfl
@[simp] theorem State.modPort_ports (s : State) (c : Nat) (f : Port → Port) : (s.modPort c f).ports = Table.put s.ports c (f (s.port c)) := rfl
@[simp] theorem State.modPort_laneSets (s : State) (c : Nat) (f : Port → Port) : (s.modPort c f).laneSets = s.laneSets := rfl
@[simp] theorem State.modPort_racks (s : State) (c : Nat) (f : Port → Port) : (s.modPort c f).racks = s.racks := rfl
@[simp] theorem State.modPort_planes (s : State) (c : Nat) (f : Port → Port) : (s.modPort c f).planes = s.planes := rfl
@[simp] theorem State.modPort_lightOut (s : State) (c : Nat) (f : Port → Port) : (s.modPort c f).lightOut = s.lightOut := rfl
@[simp] theorem State.modPort_wireOut (s : State) (c : Nat) (f : Port → Port) : (s.modPort c f).wireOut = s.wireOut := rfl
@[simp] theorem State.modPort_wireLast (s : State) (c : Nat) (f : Port → Port) : (s.modPort c f).wireLast = s.wireLast := rfl
@[simp] theorem State.modPort_arms (s : State) (c : Nat) (f : Port → Port) : (s.modPort c f).arms = s.arms := rfl
@[simp] theorem State.modPort_linkDiscards (s : State) (c : Nat) (f : Port → Port) : (s.modPort c f).linkDiscards = s.linkDiscards := rfl
@[simp] theorem State.modPort_podoff (s : State) (c : Nat) (f : Port → Port) : (s.modPort c f).podoff = s.podoff := rfl
@[simp] theorem State.modPort_missed (s : State) (c : Nat) (f : Port → Port) : (s.modPort c f).missed = s.missed := rfl
@[simp] theorem State.modPort_beaconSlot (s : State) (c : Nat) (f : Port → Port) : (s.modPort c f).beaconSlot = s.beaconSlot := rfl
@[simp] theorem State.modPort_slotNow (s : State) (c : Nat) (f : Port → Port) : (s.modPort c f).slotNow = s.slotNow := rfl
@[simp] theorem State.modPort_timekeeper (s : State) (c : Nat) (f : Port → Port) : (s.modPort c f).timekeeper = s.timekeeper := rfl
@[simp] theorem State.modPort_slew (s : State) (c : Nat) (f : Port → Port) : (s.modPort c f).slew = s.slew := rfl
@[simp] theorem State.modPort_devIndex (s : State) (c : Nat) (f : Port → Port) : (s.modPort c f).devIndex = s.devIndex := rfl
@[simp] theorem State.modPort_podSize (s : State) (c : Nat) (f : Port → Port) : (s.modPort c f).podSize = s.podSize := rfl
@[simp] theorem State.modPort_flight (s : State) (c : Nat) (f : Port → Port) : (s.modPort c f).flight = s.flight := rfl
@[simp] theorem State.modPort_rails (s : State) (c : Nat) (f : Port → Port) : (s.modPort c f).rails = s.rails := rfl
@[simp] theorem State.modPort_floor (s : State) (c : Nat) (f : Port → Port) : (s.modPort c f).floor = s.floor := rfl
@[simp] theorem State.modPort_boot (s : State) (c : Nat) (f : Port → Port) : (s.modPort c f).boot = s.boot := rfl
@[simp] theorem State.modPort_flash (s : State) (c : Nat) (f : Port → Port) : (s.modPort c f).flash = s.flash := rfl
@[simp] theorem State.modPort_firmware (s : State) (c : Nat) (f : Port → Port) : (s.modPort c f).firmware = s.firmware := rfl
@[simp] theorem State.modPort_secret (s : State) (c : Nat) (f : Port → Port) : (s.modPort c f).secret = s.secret := rfl
@[simp] theorem State.modPort_identity (s : State) (c : Nat) (f : Port → Port) : (s.modPort c f).identity = s.identity := rfl
@[simp] theorem State.modPort_alias_ (s : State) (c : Nat) (f : Port → Port) : (s.modPort c f).alias_ = s.alias_ := rfl
@[simp] theorem State.modPort_measures (s : State) (c : Nat) (f : Port → Port) : (s.modPort c f).measures = s.measures := rfl
@[simp] theorem State.modPort_sessions (s : State) (c : Nat) (f : Port → Port) : (s.modPort c f).sessions = s.sessions := rfl
@[simp] theorem State.modPort_spdm (s : State) (c : Nat) (f : Port → Port) : (s.modPort c f).spdm = s.spdm := rfl
@[simp] theorem State.modPort_transcripts (s : State) (c : Nat) (f : Port → Port) : (s.modPort c f).transcripts = s.transcripts := rfl
@[simp] theorem State.modPort_peerSessions (s : State) (c : Nat) (f : Port → Port) : (s.modPort c f).peerSessions = s.peerSessions := rfl
@[simp] theorem State.modPort_peers (s : State) (c : Nat) (f : Port → Port) : (s.modPort c f).peers = s.peers := rfl
@[simp] theorem State.modPort_ide (s : State) (c : Nat) (f : Port → Port) : (s.modPort c f).ide = s.ide := rfl
@[simp] theorem State.modPort_sealLog (s : State) (c : Nat) (f : Port → Port) : (s.modPort c f).sealLog = s.sealLog := rfl
@[simp] theorem State.modPort_answers (s : State) (c : Nat) (f : Port → Port) : (s.modPort c f).answers = s.answers := rfl
@[simp] theorem State.modPort_msi (s : State) (c : Nat) (f : Port → Port) : (s.modPort c f).msi = s.msi := rfl
@[simp] theorem State.modPort_caps (s : State) (c : Nat) (f : Port → Port) : (s.modPort c f).caps = s.caps := rfl
@[simp] theorem State.modPort_errors (s : State) (c : Nat) (f : Port → Port) : (s.modPort c f).errors = s.errors := rfl
@[simp] theorem State.modPort_testing (s : State) (c : Nat) (f : Port → Port) : (s.modPort c f).testing = s.testing := rfl
@[simp] theorem State.modPort_badWords (s : State) (c : Nat) (f : Port → Port) : (s.modPort c f).badWords = s.badWords := rfl
@[simp] theorem State.modPort_cpiWords (s : State) (c : Nat) (f : Port → Port) : (s.modPort c f).cpiWords = s.cpiWords := rfl
@[simp] theorem State.modPort_hbmUe (s : State) (c : Nat) (f : Port → Port) : (s.modPort c f).hbmUe = s.hbmUe := rfl
@[simp] theorem State.modPort_lowTests (s : State) (c : Nat) (f : Port → Port) : (s.modPort c f).lowTests = s.lowTests := rfl
@[simp] theorem State.modPort_undervolts (s : State) (c : Nat) (f : Port → Port) : (s.modPort c f).undervolts = s.undervolts := rfl
@[simp] theorem State.modPort_retiring (s : State) (c : Nat) (f : Port → Port) : (s.modPort c f).retiring = s.retiring := rfl

@[simp] theorem State.setFar_powered (s : State) (r : Nat) (f : Option Far) : (s.setFar r f).powered = s.powered := rfl
@[simp] theorem State.setFar_tick (s : State) (r : Nat) (f : Option Far) : (s.setFar r f).tick = s.tick := rfl
@[simp] theorem State.setFar_sub (s : State) (r : Nat) (f : Option Far) : (s.setFar r f).sub = s.sub := rfl
@[simp] theorem State.setFar_todo (s : State) (r : Nat) (f : Option Far) : (s.setFar r f).todo = s.todo := rfl
@[simp] theorem State.setFar_ctx (s : State) (r : Nat) (f : Option Far) : (s.setFar r f).ctx = s.ctx := rfl
@[simp] theorem State.setFar_nonce (s : State) (r : Nat) (f : Option Far) : (s.setFar r f).nonce = s.nonce := rfl
@[simp] theorem State.setFar_inbox (s : State) (r : Nat) (f : Option Far) : (s.setFar r f).inbox = s.inbox := rfl
@[simp] theorem State.setFar_agenda (s : State) (r : Nat) (f : Option Far) : (s.setFar r f).agenda = s.agenda := rfl
@[simp] theorem State.setFar_pend (s : State) (r : Nat) (f : Option Far) : (s.setFar r f).pend = s.pend := rfl
@[simp] theorem State.setFar_wrote (s : State) (r : Nat) (f : Option Far) : (s.setFar r f).wrote = s.wrote := rfl
@[simp] theorem State.setFar_pendMark (s : State) (r : Nat) (f : Option Far) : (s.setFar r f).pendMark = s.pendMark := rfl
@[simp] theorem State.setFar_cores (s : State) (r : Nat) (f : Option Far) : (s.setFar r f).cores = s.cores := rfl
@[simp] theorem State.setFar_pool (s : State) (r : Nat) (f : Option Far) : (s.setFar r f).pool = s.pool := rfl
@[simp] theorem State.setFar_tags (s : State) (r : Nat) (f : Option Far) : (s.setFar r f).tags = s.tags := rfl
@[simp] theorem State.setFar_imem (s : State) (r : Nat) (f : Option Far) : (s.setFar r f).imem = s.imem := rfl
@[simp] theorem State.setFar_hbm (s : State) (r : Nat) (f : Option Far) : (s.setFar r f).hbm = s.hbm := rfl
@[simp] theorem State.setFar_poisoned (s : State) (r : Nat) (f : Option Far) : (s.setFar r f).poisoned = s.poisoned := rfl
@[simp] theorem State.setFar_host (s : State) (r : Nat) (f : Option Far) : (s.setFar r f).host = s.host := rfl
@[simp] theorem State.setFar_runs (s : State) (r : Nat) (f : Option Far) : (s.setFar r f).runs = s.runs := rfl
@[simp] theorem State.setFar_nextRun (s : State) (r : Nat) (f : Option Far) : (s.setFar r f).nextRun = s.nextRun := rfl
@[simp] theorem State.setFar_nextOp (s : State) (r : Nat) (f : Option Far) : (s.setFar r f).nextOp = s.nextOp := rfl
@[simp] theorem State.setFar_chans (s : State) (r : Nat) (f : Option Far) : (s.setFar r f).chans = s.chans := rfl
@[simp] theorem State.setFar_deltas (s : State) (r : Nat) (f : Option Far) : (s.setFar r f).deltas = s.deltas := rfl
@[simp] theorem State.setFar_stripe (s : State) (r : Nat) (f : Option Far) : (s.setFar r f).stripe = s.stripe := rfl
@[simp] theorem State.setFar_counters (s : State) (r : Nat) (f : Option Far) : (s.setFar r f).counters = s.counters := rfl
@[simp] theorem State.setFar_parts (s : State) (r : Nat) (f : Option Far) : (s.setFar r f).parts = s.parts := rfl
@[simp] theorem State.setFar_vfs (s : State) (r : Nat) (f : Option Far) : (s.setFar r f).vfs = s.vfs := rfl
@[simp] theorem State.setFar_fars (s : State) (r : Nat) (f : Option Far) : (s.setFar r f).fars = Table.put s.fars r f := rfl
@[simp] theorem State.setFar_nextFar (s : State) (r : Nat) (f : Option Far) : (s.setFar r f).nextFar = s.nextFar := rfl
@[simp] theorem State.setFar_tlbs (s : State) (r : Nat) (f : Option Far) : (s.setFar r f).tlbs = s.tlbs := rfl
@[simp] theorem State.setFar_cobFree (s : State) (r : Nat) (f : Option Far) : (s.setFar r f).cobFree = s.cobFree := rfl
@[simp] theorem State.setFar_cob (s : State) (r : Nat) (f : Option Far) : (s.setFar r f).cob = s.cob := rfl
@[simp] theorem State.setFar_lanes (s : State) (r : Nat) (f : Option Far) : (s.setFar r f).lanes = s.lanes := rfl
@[simp] theorem State.setFar_rxs (s : State) (r : Nat) (f : Option Far) : (s.setFar r f).rxs = s.rxs := rfl
@[simp] theorem State.setFar_ports (s : State) (r : Nat) (f : Option Far) : (s.setFar r f).ports = s.ports := rfl
@[simp] theorem State.setFar_laneSets (s : State) (r : Nat) (f : Option Far) : (s.setFar r f).laneSets = s.laneSets := rfl
@[simp] theorem State.setFar_racks (s : State) (r : Nat) (f : Option Far) : (s.setFar r f).racks = s.racks := rfl
@[simp] theorem State.setFar_planes (s : State) (r : Nat) (f : Option Far) : (s.setFar r f).planes = s.planes := rfl
@[simp] theorem State.setFar_lightOut (s : State) (r : Nat) (f : Option Far) : (s.setFar r f).lightOut = s.lightOut := rfl
@[simp] theorem State.setFar_wireOut (s : State) (r : Nat) (f : Option Far) : (s.setFar r f).wireOut = s.wireOut := rfl
@[simp] theorem State.setFar_wireLast (s : State) (r : Nat) (f : Option Far) : (s.setFar r f).wireLast = s.wireLast := rfl
@[simp] theorem State.setFar_arms (s : State) (r : Nat) (f : Option Far) : (s.setFar r f).arms = s.arms := rfl
@[simp] theorem State.setFar_linkDiscards (s : State) (r : Nat) (f : Option Far) : (s.setFar r f).linkDiscards = s.linkDiscards := rfl
@[simp] theorem State.setFar_podoff (s : State) (r : Nat) (f : Option Far) : (s.setFar r f).podoff = s.podoff := rfl
@[simp] theorem State.setFar_missed (s : State) (r : Nat) (f : Option Far) : (s.setFar r f).missed = s.missed := rfl
@[simp] theorem State.setFar_beaconSlot (s : State) (r : Nat) (f : Option Far) : (s.setFar r f).beaconSlot = s.beaconSlot := rfl
@[simp] theorem State.setFar_slotNow (s : State) (r : Nat) (f : Option Far) : (s.setFar r f).slotNow = s.slotNow := rfl
@[simp] theorem State.setFar_timekeeper (s : State) (r : Nat) (f : Option Far) : (s.setFar r f).timekeeper = s.timekeeper := rfl
@[simp] theorem State.setFar_slew (s : State) (r : Nat) (f : Option Far) : (s.setFar r f).slew = s.slew := rfl
@[simp] theorem State.setFar_devIndex (s : State) (r : Nat) (f : Option Far) : (s.setFar r f).devIndex = s.devIndex := rfl
@[simp] theorem State.setFar_podSize (s : State) (r : Nat) (f : Option Far) : (s.setFar r f).podSize = s.podSize := rfl
@[simp] theorem State.setFar_flight (s : State) (r : Nat) (f : Option Far) : (s.setFar r f).flight = s.flight := rfl
@[simp] theorem State.setFar_rails (s : State) (r : Nat) (f : Option Far) : (s.setFar r f).rails = s.rails := rfl
@[simp] theorem State.setFar_floor (s : State) (r : Nat) (f : Option Far) : (s.setFar r f).floor = s.floor := rfl
@[simp] theorem State.setFar_boot (s : State) (r : Nat) (f : Option Far) : (s.setFar r f).boot = s.boot := rfl
@[simp] theorem State.setFar_flash (s : State) (r : Nat) (f : Option Far) : (s.setFar r f).flash = s.flash := rfl
@[simp] theorem State.setFar_firmware (s : State) (r : Nat) (f : Option Far) : (s.setFar r f).firmware = s.firmware := rfl
@[simp] theorem State.setFar_secret (s : State) (r : Nat) (f : Option Far) : (s.setFar r f).secret = s.secret := rfl
@[simp] theorem State.setFar_identity (s : State) (r : Nat) (f : Option Far) : (s.setFar r f).identity = s.identity := rfl
@[simp] theorem State.setFar_alias_ (s : State) (r : Nat) (f : Option Far) : (s.setFar r f).alias_ = s.alias_ := rfl
@[simp] theorem State.setFar_measures (s : State) (r : Nat) (f : Option Far) : (s.setFar r f).measures = s.measures := rfl
@[simp] theorem State.setFar_sessions (s : State) (r : Nat) (f : Option Far) : (s.setFar r f).sessions = s.sessions := rfl
@[simp] theorem State.setFar_spdm (s : State) (r : Nat) (f : Option Far) : (s.setFar r f).spdm = s.spdm := rfl
@[simp] theorem State.setFar_transcripts (s : State) (r : Nat) (f : Option Far) : (s.setFar r f).transcripts = s.transcripts := rfl
@[simp] theorem State.setFar_peerSessions (s : State) (r : Nat) (f : Option Far) : (s.setFar r f).peerSessions = s.peerSessions := rfl
@[simp] theorem State.setFar_peers (s : State) (r : Nat) (f : Option Far) : (s.setFar r f).peers = s.peers := rfl
@[simp] theorem State.setFar_ide (s : State) (r : Nat) (f : Option Far) : (s.setFar r f).ide = s.ide := rfl
@[simp] theorem State.setFar_sealLog (s : State) (r : Nat) (f : Option Far) : (s.setFar r f).sealLog = s.sealLog := rfl
@[simp] theorem State.setFar_answers (s : State) (r : Nat) (f : Option Far) : (s.setFar r f).answers = s.answers := rfl
@[simp] theorem State.setFar_msi (s : State) (r : Nat) (f : Option Far) : (s.setFar r f).msi = s.msi := rfl
@[simp] theorem State.setFar_caps (s : State) (r : Nat) (f : Option Far) : (s.setFar r f).caps = s.caps := rfl
@[simp] theorem State.setFar_errors (s : State) (r : Nat) (f : Option Far) : (s.setFar r f).errors = s.errors := rfl
@[simp] theorem State.setFar_testing (s : State) (r : Nat) (f : Option Far) : (s.setFar r f).testing = s.testing := rfl
@[simp] theorem State.setFar_badWords (s : State) (r : Nat) (f : Option Far) : (s.setFar r f).badWords = s.badWords := rfl
@[simp] theorem State.setFar_cpiWords (s : State) (r : Nat) (f : Option Far) : (s.setFar r f).cpiWords = s.cpiWords := rfl
@[simp] theorem State.setFar_hbmUe (s : State) (r : Nat) (f : Option Far) : (s.setFar r f).hbmUe = s.hbmUe := rfl
@[simp] theorem State.setFar_lowTests (s : State) (r : Nat) (f : Option Far) : (s.setFar r f).lowTests = s.lowTests := rfl
@[simp] theorem State.setFar_undervolts (s : State) (r : Nat) (f : Option Far) : (s.setFar r f).undervolts = s.undervolts := rfl
@[simp] theorem State.setFar_retiring (s : State) (r : Nat) (f : Option Far) : (s.setFar r f).retiring = s.retiring := rfl

@[simp] theorem State.push_powered (s : State) (w : PWrite) : (s.push w).powered = s.powered := rfl
@[simp] theorem State.push_tick (s : State) (w : PWrite) : (s.push w).tick = s.tick := rfl
@[simp] theorem State.push_sub (s : State) (w : PWrite) : (s.push w).sub = s.sub := rfl
@[simp] theorem State.push_todo (s : State) (w : PWrite) : (s.push w).todo = s.todo := rfl
@[simp] theorem State.push_ctx (s : State) (w : PWrite) : (s.push w).ctx = s.ctx := rfl
@[simp] theorem State.push_nonce (s : State) (w : PWrite) : (s.push w).nonce = s.nonce := rfl
@[simp] theorem State.push_inbox (s : State) (w : PWrite) : (s.push w).inbox = s.inbox := rfl
@[simp] theorem State.push_agenda (s : State) (w : PWrite) : (s.push w).agenda = s.agenda := rfl
@[simp] theorem State.push_pend (s : State) (w : PWrite) : (s.push w).pend = s.pend ++ [w] := rfl
@[simp] theorem State.push_wrote (s : State) (w : PWrite) : (s.push w).wrote = s.wrote := rfl
@[simp] theorem State.push_pendMark (s : State) (w : PWrite) : (s.push w).pendMark = s.pendMark := rfl
@[simp] theorem State.push_cores (s : State) (w : PWrite) : (s.push w).cores = s.cores := rfl
@[simp] theorem State.push_pool (s : State) (w : PWrite) : (s.push w).pool = s.pool := rfl
@[simp] theorem State.push_tags (s : State) (w : PWrite) : (s.push w).tags = s.tags := rfl
@[simp] theorem State.push_imem (s : State) (w : PWrite) : (s.push w).imem = s.imem := rfl
@[simp] theorem State.push_hbm (s : State) (w : PWrite) : (s.push w).hbm = s.hbm := rfl
@[simp] theorem State.push_poisoned (s : State) (w : PWrite) : (s.push w).poisoned = s.poisoned := rfl
@[simp] theorem State.push_host (s : State) (w : PWrite) : (s.push w).host = s.host := rfl
@[simp] theorem State.push_runs (s : State) (w : PWrite) : (s.push w).runs = s.runs := rfl
@[simp] theorem State.push_nextRun (s : State) (w : PWrite) : (s.push w).nextRun = s.nextRun := rfl
@[simp] theorem State.push_nextOp (s : State) (w : PWrite) : (s.push w).nextOp = s.nextOp := rfl
@[simp] theorem State.push_chans (s : State) (w : PWrite) : (s.push w).chans = s.chans := rfl
@[simp] theorem State.push_deltas (s : State) (w : PWrite) : (s.push w).deltas = s.deltas := rfl
@[simp] theorem State.push_stripe (s : State) (w : PWrite) : (s.push w).stripe = s.stripe := rfl
@[simp] theorem State.push_counters (s : State) (w : PWrite) : (s.push w).counters = s.counters := rfl
@[simp] theorem State.push_parts (s : State) (w : PWrite) : (s.push w).parts = s.parts := rfl
@[simp] theorem State.push_vfs (s : State) (w : PWrite) : (s.push w).vfs = s.vfs := rfl
@[simp] theorem State.push_fars (s : State) (w : PWrite) : (s.push w).fars = s.fars := rfl
@[simp] theorem State.push_nextFar (s : State) (w : PWrite) : (s.push w).nextFar = s.nextFar := rfl
@[simp] theorem State.push_tlbs (s : State) (w : PWrite) : (s.push w).tlbs = s.tlbs := rfl
@[simp] theorem State.push_cobFree (s : State) (w : PWrite) : (s.push w).cobFree = s.cobFree := rfl
@[simp] theorem State.push_cob (s : State) (w : PWrite) : (s.push w).cob = s.cob := rfl
@[simp] theorem State.push_lanes (s : State) (w : PWrite) : (s.push w).lanes = s.lanes := rfl
@[simp] theorem State.push_rxs (s : State) (w : PWrite) : (s.push w).rxs = s.rxs := rfl
@[simp] theorem State.push_ports (s : State) (w : PWrite) : (s.push w).ports = s.ports := rfl
@[simp] theorem State.push_laneSets (s : State) (w : PWrite) : (s.push w).laneSets = s.laneSets := rfl
@[simp] theorem State.push_racks (s : State) (w : PWrite) : (s.push w).racks = s.racks := rfl
@[simp] theorem State.push_planes (s : State) (w : PWrite) : (s.push w).planes = s.planes := rfl
@[simp] theorem State.push_lightOut (s : State) (w : PWrite) : (s.push w).lightOut = s.lightOut := rfl
@[simp] theorem State.push_wireOut (s : State) (w : PWrite) : (s.push w).wireOut = s.wireOut := rfl
@[simp] theorem State.push_wireLast (s : State) (w : PWrite) : (s.push w).wireLast = s.wireLast := rfl
@[simp] theorem State.push_arms (s : State) (w : PWrite) : (s.push w).arms = s.arms := rfl
@[simp] theorem State.push_linkDiscards (s : State) (w : PWrite) : (s.push w).linkDiscards = s.linkDiscards := rfl
@[simp] theorem State.push_podoff (s : State) (w : PWrite) : (s.push w).podoff = s.podoff := rfl
@[simp] theorem State.push_missed (s : State) (w : PWrite) : (s.push w).missed = s.missed := rfl
@[simp] theorem State.push_beaconSlot (s : State) (w : PWrite) : (s.push w).beaconSlot = s.beaconSlot := rfl
@[simp] theorem State.push_slotNow (s : State) (w : PWrite) : (s.push w).slotNow = s.slotNow := rfl
@[simp] theorem State.push_timekeeper (s : State) (w : PWrite) : (s.push w).timekeeper = s.timekeeper := rfl
@[simp] theorem State.push_slew (s : State) (w : PWrite) : (s.push w).slew = s.slew := rfl
@[simp] theorem State.push_devIndex (s : State) (w : PWrite) : (s.push w).devIndex = s.devIndex := rfl
@[simp] theorem State.push_podSize (s : State) (w : PWrite) : (s.push w).podSize = s.podSize := rfl
@[simp] theorem State.push_flight (s : State) (w : PWrite) : (s.push w).flight = s.flight := rfl
@[simp] theorem State.push_rails (s : State) (w : PWrite) : (s.push w).rails = s.rails := rfl
@[simp] theorem State.push_floor (s : State) (w : PWrite) : (s.push w).floor = s.floor := rfl
@[simp] theorem State.push_boot (s : State) (w : PWrite) : (s.push w).boot = s.boot := rfl
@[simp] theorem State.push_flash (s : State) (w : PWrite) : (s.push w).flash = s.flash := rfl
@[simp] theorem State.push_firmware (s : State) (w : PWrite) : (s.push w).firmware = s.firmware := rfl
@[simp] theorem State.push_secret (s : State) (w : PWrite) : (s.push w).secret = s.secret := rfl
@[simp] theorem State.push_identity (s : State) (w : PWrite) : (s.push w).identity = s.identity := rfl
@[simp] theorem State.push_alias_ (s : State) (w : PWrite) : (s.push w).alias_ = s.alias_ := rfl
@[simp] theorem State.push_measures (s : State) (w : PWrite) : (s.push w).measures = s.measures := rfl
@[simp] theorem State.push_sessions (s : State) (w : PWrite) : (s.push w).sessions = s.sessions := rfl
@[simp] theorem State.push_spdm (s : State) (w : PWrite) : (s.push w).spdm = s.spdm := rfl
@[simp] theorem State.push_transcripts (s : State) (w : PWrite) : (s.push w).transcripts = s.transcripts := rfl
@[simp] theorem State.push_peerSessions (s : State) (w : PWrite) : (s.push w).peerSessions = s.peerSessions := rfl
@[simp] theorem State.push_peers (s : State) (w : PWrite) : (s.push w).peers = s.peers := rfl
@[simp] theorem State.push_ide (s : State) (w : PWrite) : (s.push w).ide = s.ide := rfl
@[simp] theorem State.push_sealLog (s : State) (w : PWrite) : (s.push w).sealLog = s.sealLog := rfl
@[simp] theorem State.push_answers (s : State) (w : PWrite) : (s.push w).answers = s.answers := rfl
@[simp] theorem State.push_msi (s : State) (w : PWrite) : (s.push w).msi = s.msi := rfl
@[simp] theorem State.push_caps (s : State) (w : PWrite) : (s.push w).caps = s.caps := rfl
@[simp] theorem State.push_errors (s : State) (w : PWrite) : (s.push w).errors = s.errors := rfl
@[simp] theorem State.push_testing (s : State) (w : PWrite) : (s.push w).testing = s.testing := rfl
@[simp] theorem State.push_badWords (s : State) (w : PWrite) : (s.push w).badWords = s.badWords := rfl
@[simp] theorem State.push_cpiWords (s : State) (w : PWrite) : (s.push w).cpiWords = s.cpiWords := rfl
@[simp] theorem State.push_hbmUe (s : State) (w : PWrite) : (s.push w).hbmUe = s.hbmUe := rfl
@[simp] theorem State.push_lowTests (s : State) (w : PWrite) : (s.push w).lowTests = s.lowTests := rfl
@[simp] theorem State.push_undervolts (s : State) (w : PWrite) : (s.push w).undervolts = s.undervolts := rfl
@[simp] theorem State.push_retiring (s : State) (w : PWrite) : (s.push w).retiring = s.retiring := rfl

@[simp] theorem State.atTick_powered (s : State) (t : Nat) (w : Work) : (s.atTick t w).powered = s.powered := rfl
@[simp] theorem State.atTick_tick (s : State) (t : Nat) (w : Work) : (s.atTick t w).tick = s.tick := rfl
@[simp] theorem State.atTick_sub (s : State) (t : Nat) (w : Work) : (s.atTick t w).sub = s.sub := rfl
@[simp] theorem State.atTick_todo (s : State) (t : Nat) (w : Work) : (s.atTick t w).todo = s.todo := rfl
@[simp] theorem State.atTick_ctx (s : State) (t : Nat) (w : Work) : (s.atTick t w).ctx = s.ctx := rfl
@[simp] theorem State.atTick_nonce (s : State) (t : Nat) (w : Work) : (s.atTick t w).nonce = s.nonce := rfl
@[simp] theorem State.atTick_inbox (s : State) (t : Nat) (w : Work) : (s.atTick t w).inbox = s.inbox := rfl
@[simp] theorem State.atTick_agenda (s : State) (t : Nat) (w : Work) : (s.atTick t w).agenda = s.agenda ++ [{ due := t, work := w }] := rfl
@[simp] theorem State.atTick_pend (s : State) (t : Nat) (w : Work) : (s.atTick t w).pend = s.pend := rfl
@[simp] theorem State.atTick_wrote (s : State) (t : Nat) (w : Work) : (s.atTick t w).wrote = s.wrote := rfl
@[simp] theorem State.atTick_pendMark (s : State) (t : Nat) (w : Work) : (s.atTick t w).pendMark = s.pendMark := rfl
@[simp] theorem State.atTick_cores (s : State) (t : Nat) (w : Work) : (s.atTick t w).cores = s.cores := rfl
@[simp] theorem State.atTick_pool (s : State) (t : Nat) (w : Work) : (s.atTick t w).pool = s.pool := rfl
@[simp] theorem State.atTick_tags (s : State) (t : Nat) (w : Work) : (s.atTick t w).tags = s.tags := rfl
@[simp] theorem State.atTick_imem (s : State) (t : Nat) (w : Work) : (s.atTick t w).imem = s.imem := rfl
@[simp] theorem State.atTick_hbm (s : State) (t : Nat) (w : Work) : (s.atTick t w).hbm = s.hbm := rfl
@[simp] theorem State.atTick_poisoned (s : State) (t : Nat) (w : Work) : (s.atTick t w).poisoned = s.poisoned := rfl
@[simp] theorem State.atTick_host (s : State) (t : Nat) (w : Work) : (s.atTick t w).host = s.host := rfl
@[simp] theorem State.atTick_runs (s : State) (t : Nat) (w : Work) : (s.atTick t w).runs = s.runs := rfl
@[simp] theorem State.atTick_nextRun (s : State) (t : Nat) (w : Work) : (s.atTick t w).nextRun = s.nextRun := rfl
@[simp] theorem State.atTick_nextOp (s : State) (t : Nat) (w : Work) : (s.atTick t w).nextOp = s.nextOp := rfl
@[simp] theorem State.atTick_chans (s : State) (t : Nat) (w : Work) : (s.atTick t w).chans = s.chans := rfl
@[simp] theorem State.atTick_deltas (s : State) (t : Nat) (w : Work) : (s.atTick t w).deltas = s.deltas := rfl
@[simp] theorem State.atTick_stripe (s : State) (t : Nat) (w : Work) : (s.atTick t w).stripe = s.stripe := rfl
@[simp] theorem State.atTick_counters (s : State) (t : Nat) (w : Work) : (s.atTick t w).counters = s.counters := rfl
@[simp] theorem State.atTick_parts (s : State) (t : Nat) (w : Work) : (s.atTick t w).parts = s.parts := rfl
@[simp] theorem State.atTick_vfs (s : State) (t : Nat) (w : Work) : (s.atTick t w).vfs = s.vfs := rfl
@[simp] theorem State.atTick_fars (s : State) (t : Nat) (w : Work) : (s.atTick t w).fars = s.fars := rfl
@[simp] theorem State.atTick_nextFar (s : State) (t : Nat) (w : Work) : (s.atTick t w).nextFar = s.nextFar := rfl
@[simp] theorem State.atTick_tlbs (s : State) (t : Nat) (w : Work) : (s.atTick t w).tlbs = s.tlbs := rfl
@[simp] theorem State.atTick_cobFree (s : State) (t : Nat) (w : Work) : (s.atTick t w).cobFree = s.cobFree := rfl
@[simp] theorem State.atTick_cob (s : State) (t : Nat) (w : Work) : (s.atTick t w).cob = s.cob := rfl
@[simp] theorem State.atTick_lanes (s : State) (t : Nat) (w : Work) : (s.atTick t w).lanes = s.lanes := rfl
@[simp] theorem State.atTick_rxs (s : State) (t : Nat) (w : Work) : (s.atTick t w).rxs = s.rxs := rfl
@[simp] theorem State.atTick_ports (s : State) (t : Nat) (w : Work) : (s.atTick t w).ports = s.ports := rfl
@[simp] theorem State.atTick_laneSets (s : State) (t : Nat) (w : Work) : (s.atTick t w).laneSets = s.laneSets := rfl
@[simp] theorem State.atTick_racks (s : State) (t : Nat) (w : Work) : (s.atTick t w).racks = s.racks := rfl
@[simp] theorem State.atTick_planes (s : State) (t : Nat) (w : Work) : (s.atTick t w).planes = s.planes := rfl
@[simp] theorem State.atTick_lightOut (s : State) (t : Nat) (w : Work) : (s.atTick t w).lightOut = s.lightOut := rfl
@[simp] theorem State.atTick_wireOut (s : State) (t : Nat) (w : Work) : (s.atTick t w).wireOut = s.wireOut := rfl
@[simp] theorem State.atTick_wireLast (s : State) (t : Nat) (w : Work) : (s.atTick t w).wireLast = s.wireLast := rfl
@[simp] theorem State.atTick_arms (s : State) (t : Nat) (w : Work) : (s.atTick t w).arms = s.arms := rfl
@[simp] theorem State.atTick_linkDiscards (s : State) (t : Nat) (w : Work) : (s.atTick t w).linkDiscards = s.linkDiscards := rfl
@[simp] theorem State.atTick_podoff (s : State) (t : Nat) (w : Work) : (s.atTick t w).podoff = s.podoff := rfl
@[simp] theorem State.atTick_missed (s : State) (t : Nat) (w : Work) : (s.atTick t w).missed = s.missed := rfl
@[simp] theorem State.atTick_beaconSlot (s : State) (t : Nat) (w : Work) : (s.atTick t w).beaconSlot = s.beaconSlot := rfl
@[simp] theorem State.atTick_slotNow (s : State) (t : Nat) (w : Work) : (s.atTick t w).slotNow = s.slotNow := rfl
@[simp] theorem State.atTick_timekeeper (s : State) (t : Nat) (w : Work) : (s.atTick t w).timekeeper = s.timekeeper := rfl
@[simp] theorem State.atTick_slew (s : State) (t : Nat) (w : Work) : (s.atTick t w).slew = s.slew := rfl
@[simp] theorem State.atTick_devIndex (s : State) (t : Nat) (w : Work) : (s.atTick t w).devIndex = s.devIndex := rfl
@[simp] theorem State.atTick_podSize (s : State) (t : Nat) (w : Work) : (s.atTick t w).podSize = s.podSize := rfl
@[simp] theorem State.atTick_flight (s : State) (t : Nat) (w : Work) : (s.atTick t w).flight = s.flight := rfl
@[simp] theorem State.atTick_rails (s : State) (t : Nat) (w : Work) : (s.atTick t w).rails = s.rails := rfl
@[simp] theorem State.atTick_floor (s : State) (t : Nat) (w : Work) : (s.atTick t w).floor = s.floor := rfl
@[simp] theorem State.atTick_boot (s : State) (t : Nat) (w : Work) : (s.atTick t w).boot = s.boot := rfl
@[simp] theorem State.atTick_flash (s : State) (t : Nat) (w : Work) : (s.atTick t w).flash = s.flash := rfl
@[simp] theorem State.atTick_firmware (s : State) (t : Nat) (w : Work) : (s.atTick t w).firmware = s.firmware := rfl
@[simp] theorem State.atTick_secret (s : State) (t : Nat) (w : Work) : (s.atTick t w).secret = s.secret := rfl
@[simp] theorem State.atTick_identity (s : State) (t : Nat) (w : Work) : (s.atTick t w).identity = s.identity := rfl
@[simp] theorem State.atTick_alias_ (s : State) (t : Nat) (w : Work) : (s.atTick t w).alias_ = s.alias_ := rfl
@[simp] theorem State.atTick_measures (s : State) (t : Nat) (w : Work) : (s.atTick t w).measures = s.measures := rfl
@[simp] theorem State.atTick_sessions (s : State) (t : Nat) (w : Work) : (s.atTick t w).sessions = s.sessions := rfl
@[simp] theorem State.atTick_spdm (s : State) (t : Nat) (w : Work) : (s.atTick t w).spdm = s.spdm := rfl
@[simp] theorem State.atTick_transcripts (s : State) (t : Nat) (w : Work) : (s.atTick t w).transcripts = s.transcripts := rfl
@[simp] theorem State.atTick_peerSessions (s : State) (t : Nat) (w : Work) : (s.atTick t w).peerSessions = s.peerSessions := rfl
@[simp] theorem State.atTick_peers (s : State) (t : Nat) (w : Work) : (s.atTick t w).peers = s.peers := rfl
@[simp] theorem State.atTick_ide (s : State) (t : Nat) (w : Work) : (s.atTick t w).ide = s.ide := rfl
@[simp] theorem State.atTick_sealLog (s : State) (t : Nat) (w : Work) : (s.atTick t w).sealLog = s.sealLog := rfl
@[simp] theorem State.atTick_answers (s : State) (t : Nat) (w : Work) : (s.atTick t w).answers = s.answers := rfl
@[simp] theorem State.atTick_msi (s : State) (t : Nat) (w : Work) : (s.atTick t w).msi = s.msi := rfl
@[simp] theorem State.atTick_caps (s : State) (t : Nat) (w : Work) : (s.atTick t w).caps = s.caps := rfl
@[simp] theorem State.atTick_errors (s : State) (t : Nat) (w : Work) : (s.atTick t w).errors = s.errors := rfl
@[simp] theorem State.atTick_testing (s : State) (t : Nat) (w : Work) : (s.atTick t w).testing = s.testing := rfl
@[simp] theorem State.atTick_badWords (s : State) (t : Nat) (w : Work) : (s.atTick t w).badWords = s.badWords := rfl
@[simp] theorem State.atTick_cpiWords (s : State) (t : Nat) (w : Work) : (s.atTick t w).cpiWords = s.cpiWords := rfl
@[simp] theorem State.atTick_hbmUe (s : State) (t : Nat) (w : Work) : (s.atTick t w).hbmUe = s.hbmUe := rfl
@[simp] theorem State.atTick_lowTests (s : State) (t : Nat) (w : Work) : (s.atTick t w).lowTests = s.lowTests := rfl
@[simp] theorem State.atTick_undervolts (s : State) (t : Nat) (w : Work) : (s.atTick t w).undervolts = s.undervolts := rfl
@[simp] theorem State.atTick_retiring (s : State) (t : Nat) (w : Work) : (s.atTick t w).retiring = s.retiring := rfl

@[simp] theorem State.msiTo_powered (s : State) (v n : Nat) : (s.msiTo v n).powered = s.powered := rfl
@[simp] theorem State.msiTo_tick (s : State) (v n : Nat) : (s.msiTo v n).tick = s.tick := rfl
@[simp] theorem State.msiTo_sub (s : State) (v n : Nat) : (s.msiTo v n).sub = s.sub := rfl
@[simp] theorem State.msiTo_todo (s : State) (v n : Nat) : (s.msiTo v n).todo = s.todo := rfl
@[simp] theorem State.msiTo_ctx (s : State) (v n : Nat) : (s.msiTo v n).ctx = s.ctx := rfl
@[simp] theorem State.msiTo_nonce (s : State) (v n : Nat) : (s.msiTo v n).nonce = s.nonce := rfl
@[simp] theorem State.msiTo_inbox (s : State) (v n : Nat) : (s.msiTo v n).inbox = s.inbox := rfl
@[simp] theorem State.msiTo_agenda (s : State) (v n : Nat) : (s.msiTo v n).agenda = s.agenda := rfl
@[simp] theorem State.msiTo_pend (s : State) (v n : Nat) : (s.msiTo v n).pend = s.pend := rfl
@[simp] theorem State.msiTo_wrote (s : State) (v n : Nat) : (s.msiTo v n).wrote = s.wrote := rfl
@[simp] theorem State.msiTo_pendMark (s : State) (v n : Nat) : (s.msiTo v n).pendMark = s.pendMark := rfl
@[simp] theorem State.msiTo_cores (s : State) (v n : Nat) : (s.msiTo v n).cores = s.cores := rfl
@[simp] theorem State.msiTo_pool (s : State) (v n : Nat) : (s.msiTo v n).pool = s.pool := rfl
@[simp] theorem State.msiTo_tags (s : State) (v n : Nat) : (s.msiTo v n).tags = s.tags := rfl
@[simp] theorem State.msiTo_imem (s : State) (v n : Nat) : (s.msiTo v n).imem = s.imem := rfl
@[simp] theorem State.msiTo_hbm (s : State) (v n : Nat) : (s.msiTo v n).hbm = s.hbm := rfl
@[simp] theorem State.msiTo_poisoned (s : State) (v n : Nat) : (s.msiTo v n).poisoned = s.poisoned := rfl
@[simp] theorem State.msiTo_host (s : State) (v n : Nat) : (s.msiTo v n).host = s.host := rfl
@[simp] theorem State.msiTo_runs (s : State) (v n : Nat) : (s.msiTo v n).runs = s.runs := rfl
@[simp] theorem State.msiTo_nextRun (s : State) (v n : Nat) : (s.msiTo v n).nextRun = s.nextRun := rfl
@[simp] theorem State.msiTo_nextOp (s : State) (v n : Nat) : (s.msiTo v n).nextOp = s.nextOp := rfl
@[simp] theorem State.msiTo_chans (s : State) (v n : Nat) : (s.msiTo v n).chans = s.chans := rfl
@[simp] theorem State.msiTo_deltas (s : State) (v n : Nat) : (s.msiTo v n).deltas = s.deltas := rfl
@[simp] theorem State.msiTo_stripe (s : State) (v n : Nat) : (s.msiTo v n).stripe = s.stripe := rfl
@[simp] theorem State.msiTo_counters (s : State) (v n : Nat) : (s.msiTo v n).counters = s.counters := rfl
@[simp] theorem State.msiTo_parts (s : State) (v n : Nat) : (s.msiTo v n).parts = s.parts := rfl
@[simp] theorem State.msiTo_vfs (s : State) (v n : Nat) : (s.msiTo v n).vfs = s.vfs := rfl
@[simp] theorem State.msiTo_fars (s : State) (v n : Nat) : (s.msiTo v n).fars = s.fars := rfl
@[simp] theorem State.msiTo_nextFar (s : State) (v n : Nat) : (s.msiTo v n).nextFar = s.nextFar := rfl
@[simp] theorem State.msiTo_tlbs (s : State) (v n : Nat) : (s.msiTo v n).tlbs = s.tlbs := rfl
@[simp] theorem State.msiTo_cobFree (s : State) (v n : Nat) : (s.msiTo v n).cobFree = s.cobFree := rfl
@[simp] theorem State.msiTo_cob (s : State) (v n : Nat) : (s.msiTo v n).cob = s.cob := rfl
@[simp] theorem State.msiTo_lanes (s : State) (v n : Nat) : (s.msiTo v n).lanes = s.lanes := rfl
@[simp] theorem State.msiTo_rxs (s : State) (v n : Nat) : (s.msiTo v n).rxs = s.rxs := rfl
@[simp] theorem State.msiTo_ports (s : State) (v n : Nat) : (s.msiTo v n).ports = s.ports := rfl
@[simp] theorem State.msiTo_laneSets (s : State) (v n : Nat) : (s.msiTo v n).laneSets = s.laneSets := rfl
@[simp] theorem State.msiTo_racks (s : State) (v n : Nat) : (s.msiTo v n).racks = s.racks := rfl
@[simp] theorem State.msiTo_planes (s : State) (v n : Nat) : (s.msiTo v n).planes = s.planes := rfl
@[simp] theorem State.msiTo_lightOut (s : State) (v n : Nat) : (s.msiTo v n).lightOut = s.lightOut := rfl
@[simp] theorem State.msiTo_wireOut (s : State) (v n : Nat) : (s.msiTo v n).wireOut = s.wireOut := rfl
@[simp] theorem State.msiTo_wireLast (s : State) (v n : Nat) : (s.msiTo v n).wireLast = s.wireLast := rfl
@[simp] theorem State.msiTo_arms (s : State) (v n : Nat) : (s.msiTo v n).arms = s.arms := rfl
@[simp] theorem State.msiTo_linkDiscards (s : State) (v n : Nat) : (s.msiTo v n).linkDiscards = s.linkDiscards := rfl
@[simp] theorem State.msiTo_podoff (s : State) (v n : Nat) : (s.msiTo v n).podoff = s.podoff := rfl
@[simp] theorem State.msiTo_missed (s : State) (v n : Nat) : (s.msiTo v n).missed = s.missed := rfl
@[simp] theorem State.msiTo_beaconSlot (s : State) (v n : Nat) : (s.msiTo v n).beaconSlot = s.beaconSlot := rfl
@[simp] theorem State.msiTo_slotNow (s : State) (v n : Nat) : (s.msiTo v n).slotNow = s.slotNow := rfl
@[simp] theorem State.msiTo_timekeeper (s : State) (v n : Nat) : (s.msiTo v n).timekeeper = s.timekeeper := rfl
@[simp] theorem State.msiTo_slew (s : State) (v n : Nat) : (s.msiTo v n).slew = s.slew := rfl
@[simp] theorem State.msiTo_devIndex (s : State) (v n : Nat) : (s.msiTo v n).devIndex = s.devIndex := rfl
@[simp] theorem State.msiTo_podSize (s : State) (v n : Nat) : (s.msiTo v n).podSize = s.podSize := rfl
@[simp] theorem State.msiTo_flight (s : State) (v n : Nat) : (s.msiTo v n).flight = s.flight := rfl
@[simp] theorem State.msiTo_rails (s : State) (v n : Nat) : (s.msiTo v n).rails = s.rails := rfl
@[simp] theorem State.msiTo_floor (s : State) (v n : Nat) : (s.msiTo v n).floor = s.floor := rfl
@[simp] theorem State.msiTo_boot (s : State) (v n : Nat) : (s.msiTo v n).boot = s.boot := rfl
@[simp] theorem State.msiTo_flash (s : State) (v n : Nat) : (s.msiTo v n).flash = s.flash := rfl
@[simp] theorem State.msiTo_firmware (s : State) (v n : Nat) : (s.msiTo v n).firmware = s.firmware := rfl
@[simp] theorem State.msiTo_secret (s : State) (v n : Nat) : (s.msiTo v n).secret = s.secret := rfl
@[simp] theorem State.msiTo_identity (s : State) (v n : Nat) : (s.msiTo v n).identity = s.identity := rfl
@[simp] theorem State.msiTo_alias_ (s : State) (v n : Nat) : (s.msiTo v n).alias_ = s.alias_ := rfl
@[simp] theorem State.msiTo_measures (s : State) (v n : Nat) : (s.msiTo v n).measures = s.measures := rfl
@[simp] theorem State.msiTo_sessions (s : State) (v n : Nat) : (s.msiTo v n).sessions = s.sessions := rfl
@[simp] theorem State.msiTo_spdm (s : State) (v n : Nat) : (s.msiTo v n).spdm = s.spdm := rfl
@[simp] theorem State.msiTo_transcripts (s : State) (v n : Nat) : (s.msiTo v n).transcripts = s.transcripts := rfl
@[simp] theorem State.msiTo_peerSessions (s : State) (v n : Nat) : (s.msiTo v n).peerSessions = s.peerSessions := rfl
@[simp] theorem State.msiTo_peers (s : State) (v n : Nat) : (s.msiTo v n).peers = s.peers := rfl
@[simp] theorem State.msiTo_ide (s : State) (v n : Nat) : (s.msiTo v n).ide = s.ide := rfl
@[simp] theorem State.msiTo_sealLog (s : State) (v n : Nat) : (s.msiTo v n).sealLog = s.sealLog := rfl
@[simp] theorem State.msiTo_answers (s : State) (v n : Nat) : (s.msiTo v n).answers = s.answers := rfl
@[simp] theorem State.msiTo_msi (s : State) (v n : Nat) : (s.msiTo v n).msi = (v, n) :: s.msi := rfl
@[simp] theorem State.msiTo_caps (s : State) (v n : Nat) : (s.msiTo v n).caps = s.caps := rfl
@[simp] theorem State.msiTo_errors (s : State) (v n : Nat) : (s.msiTo v n).errors = s.errors := rfl
@[simp] theorem State.msiTo_testing (s : State) (v n : Nat) : (s.msiTo v n).testing = s.testing := rfl
@[simp] theorem State.msiTo_badWords (s : State) (v n : Nat) : (s.msiTo v n).badWords = s.badWords := rfl
@[simp] theorem State.msiTo_cpiWords (s : State) (v n : Nat) : (s.msiTo v n).cpiWords = s.cpiWords := rfl
@[simp] theorem State.msiTo_hbmUe (s : State) (v n : Nat) : (s.msiTo v n).hbmUe = s.hbmUe := rfl
@[simp] theorem State.msiTo_lowTests (s : State) (v n : Nat) : (s.msiTo v n).lowTests = s.lowTests := rfl
@[simp] theorem State.msiTo_undervolts (s : State) (v n : Nat) : (s.msiTo v n).undervolts = s.undervolts := rfl
@[simp] theorem State.msiTo_retiring (s : State) (v n : Nat) : (s.msiTo v n).retiring = s.retiring := rfl

@[simp] theorem State.putBurst_powered (s : State) (k : Nat) (d : List Byte) : (s.putBurst k d).powered = s.powered := rfl
@[simp] theorem State.putBurst_tick (s : State) (k : Nat) (d : List Byte) : (s.putBurst k d).tick = s.tick := rfl
@[simp] theorem State.putBurst_sub (s : State) (k : Nat) (d : List Byte) : (s.putBurst k d).sub = s.sub := rfl
@[simp] theorem State.putBurst_todo (s : State) (k : Nat) (d : List Byte) : (s.putBurst k d).todo = s.todo := rfl
@[simp] theorem State.putBurst_ctx (s : State) (k : Nat) (d : List Byte) : (s.putBurst k d).ctx = s.ctx := rfl
@[simp] theorem State.putBurst_nonce (s : State) (k : Nat) (d : List Byte) : (s.putBurst k d).nonce = s.nonce := rfl
@[simp] theorem State.putBurst_inbox (s : State) (k : Nat) (d : List Byte) : (s.putBurst k d).inbox = s.inbox := rfl
@[simp] theorem State.putBurst_agenda (s : State) (k : Nat) (d : List Byte) : (s.putBurst k d).agenda = s.agenda := rfl
@[simp] theorem State.putBurst_pend (s : State) (k : Nat) (d : List Byte) : (s.putBurst k d).pend = s.pend := rfl
@[simp] theorem State.putBurst_wrote (s : State) (k : Nat) (d : List Byte) : (s.putBurst k d).wrote = s.wrote := rfl
@[simp] theorem State.putBurst_pendMark (s : State) (k : Nat) (d : List Byte) : (s.putBurst k d).pendMark = s.pendMark := rfl
@[simp] theorem State.putBurst_cores (s : State) (k : Nat) (d : List Byte) : (s.putBurst k d).cores = s.cores := rfl
@[simp] theorem State.putBurst_pool (s : State) (k : Nat) (d : List Byte) : (s.putBurst k d).pool = s.pool := rfl
@[simp] theorem State.putBurst_tags (s : State) (k : Nat) (d : List Byte) : (s.putBurst k d).tags = s.tags := rfl
@[simp] theorem State.putBurst_imem (s : State) (k : Nat) (d : List Byte) : (s.putBurst k d).imem = s.imem := rfl
@[simp] theorem State.putBurst_hbm (s : State) (k : Nat) (d : List Byte) : (s.putBurst k d).hbm = s.hbm.write (32 * k) (someBytes d) := rfl
@[simp] theorem State.putBurst_poisoned (s : State) (k : Nat) (d : List Byte) : (s.putBurst k d).poisoned = s.poisoned := rfl
@[simp] theorem State.putBurst_host (s : State) (k : Nat) (d : List Byte) : (s.putBurst k d).host = s.host := rfl
@[simp] theorem State.putBurst_runs (s : State) (k : Nat) (d : List Byte) : (s.putBurst k d).runs = s.runs := rfl
@[simp] theorem State.putBurst_nextRun (s : State) (k : Nat) (d : List Byte) : (s.putBurst k d).nextRun = s.nextRun := rfl
@[simp] theorem State.putBurst_nextOp (s : State) (k : Nat) (d : List Byte) : (s.putBurst k d).nextOp = s.nextOp := rfl
@[simp] theorem State.putBurst_chans (s : State) (k : Nat) (d : List Byte) : (s.putBurst k d).chans = s.chans := rfl
@[simp] theorem State.putBurst_deltas (s : State) (k : Nat) (d : List Byte) : (s.putBurst k d).deltas = s.deltas := rfl
@[simp] theorem State.putBurst_stripe (s : State) (k : Nat) (d : List Byte) : (s.putBurst k d).stripe = s.stripe := rfl
@[simp] theorem State.putBurst_counters (s : State) (k : Nat) (d : List Byte) : (s.putBurst k d).counters = s.counters := rfl
@[simp] theorem State.putBurst_parts (s : State) (k : Nat) (d : List Byte) : (s.putBurst k d).parts = s.parts := rfl
@[simp] theorem State.putBurst_vfs (s : State) (k : Nat) (d : List Byte) : (s.putBurst k d).vfs = s.vfs := rfl
@[simp] theorem State.putBurst_fars (s : State) (k : Nat) (d : List Byte) : (s.putBurst k d).fars = s.fars := rfl
@[simp] theorem State.putBurst_nextFar (s : State) (k : Nat) (d : List Byte) : (s.putBurst k d).nextFar = s.nextFar := rfl
@[simp] theorem State.putBurst_tlbs (s : State) (k : Nat) (d : List Byte) : (s.putBurst k d).tlbs = s.tlbs := rfl
@[simp] theorem State.putBurst_cobFree (s : State) (k : Nat) (d : List Byte) : (s.putBurst k d).cobFree = s.cobFree := rfl
@[simp] theorem State.putBurst_cob (s : State) (k : Nat) (d : List Byte) : (s.putBurst k d).cob = s.cob := rfl
@[simp] theorem State.putBurst_lanes (s : State) (k : Nat) (d : List Byte) : (s.putBurst k d).lanes = s.lanes := rfl
@[simp] theorem State.putBurst_rxs (s : State) (k : Nat) (d : List Byte) : (s.putBurst k d).rxs = s.rxs := rfl
@[simp] theorem State.putBurst_ports (s : State) (k : Nat) (d : List Byte) : (s.putBurst k d).ports = s.ports := rfl
@[simp] theorem State.putBurst_laneSets (s : State) (k : Nat) (d : List Byte) : (s.putBurst k d).laneSets = s.laneSets := rfl
@[simp] theorem State.putBurst_racks (s : State) (k : Nat) (d : List Byte) : (s.putBurst k d).racks = s.racks := rfl
@[simp] theorem State.putBurst_planes (s : State) (k : Nat) (d : List Byte) : (s.putBurst k d).planes = s.planes := rfl
@[simp] theorem State.putBurst_lightOut (s : State) (k : Nat) (d : List Byte) : (s.putBurst k d).lightOut = s.lightOut := rfl
@[simp] theorem State.putBurst_wireOut (s : State) (k : Nat) (d : List Byte) : (s.putBurst k d).wireOut = s.wireOut := rfl
@[simp] theorem State.putBurst_wireLast (s : State) (k : Nat) (d : List Byte) : (s.putBurst k d).wireLast = s.wireLast := rfl
@[simp] theorem State.putBurst_arms (s : State) (k : Nat) (d : List Byte) : (s.putBurst k d).arms = s.arms := rfl
@[simp] theorem State.putBurst_linkDiscards (s : State) (k : Nat) (d : List Byte) : (s.putBurst k d).linkDiscards = s.linkDiscards := rfl
@[simp] theorem State.putBurst_podoff (s : State) (k : Nat) (d : List Byte) : (s.putBurst k d).podoff = s.podoff := rfl
@[simp] theorem State.putBurst_missed (s : State) (k : Nat) (d : List Byte) : (s.putBurst k d).missed = s.missed := rfl
@[simp] theorem State.putBurst_beaconSlot (s : State) (k : Nat) (d : List Byte) : (s.putBurst k d).beaconSlot = s.beaconSlot := rfl
@[simp] theorem State.putBurst_slotNow (s : State) (k : Nat) (d : List Byte) : (s.putBurst k d).slotNow = s.slotNow := rfl
@[simp] theorem State.putBurst_timekeeper (s : State) (k : Nat) (d : List Byte) : (s.putBurst k d).timekeeper = s.timekeeper := rfl
@[simp] theorem State.putBurst_slew (s : State) (k : Nat) (d : List Byte) : (s.putBurst k d).slew = s.slew := rfl
@[simp] theorem State.putBurst_devIndex (s : State) (k : Nat) (d : List Byte) : (s.putBurst k d).devIndex = s.devIndex := rfl
@[simp] theorem State.putBurst_podSize (s : State) (k : Nat) (d : List Byte) : (s.putBurst k d).podSize = s.podSize := rfl
@[simp] theorem State.putBurst_flight (s : State) (k : Nat) (d : List Byte) : (s.putBurst k d).flight = s.flight := rfl
@[simp] theorem State.putBurst_rails (s : State) (k : Nat) (d : List Byte) : (s.putBurst k d).rails = s.rails := rfl
@[simp] theorem State.putBurst_floor (s : State) (k : Nat) (d : List Byte) : (s.putBurst k d).floor = s.floor := rfl
@[simp] theorem State.putBurst_boot (s : State) (k : Nat) (d : List Byte) : (s.putBurst k d).boot = s.boot := rfl
@[simp] theorem State.putBurst_flash (s : State) (k : Nat) (d : List Byte) : (s.putBurst k d).flash = s.flash := rfl
@[simp] theorem State.putBurst_firmware (s : State) (k : Nat) (d : List Byte) : (s.putBurst k d).firmware = s.firmware := rfl
@[simp] theorem State.putBurst_secret (s : State) (k : Nat) (d : List Byte) : (s.putBurst k d).secret = s.secret := rfl
@[simp] theorem State.putBurst_identity (s : State) (k : Nat) (d : List Byte) : (s.putBurst k d).identity = s.identity := rfl
@[simp] theorem State.putBurst_alias_ (s : State) (k : Nat) (d : List Byte) : (s.putBurst k d).alias_ = s.alias_ := rfl
@[simp] theorem State.putBurst_measures (s : State) (k : Nat) (d : List Byte) : (s.putBurst k d).measures = s.measures := rfl
@[simp] theorem State.putBurst_sessions (s : State) (k : Nat) (d : List Byte) : (s.putBurst k d).sessions = s.sessions := rfl
@[simp] theorem State.putBurst_spdm (s : State) (k : Nat) (d : List Byte) : (s.putBurst k d).spdm = s.spdm := rfl
@[simp] theorem State.putBurst_transcripts (s : State) (k : Nat) (d : List Byte) : (s.putBurst k d).transcripts = s.transcripts := rfl
@[simp] theorem State.putBurst_peerSessions (s : State) (k : Nat) (d : List Byte) : (s.putBurst k d).peerSessions = s.peerSessions := rfl
@[simp] theorem State.putBurst_peers (s : State) (k : Nat) (d : List Byte) : (s.putBurst k d).peers = s.peers := rfl
@[simp] theorem State.putBurst_ide (s : State) (k : Nat) (d : List Byte) : (s.putBurst k d).ide = s.ide := rfl
@[simp] theorem State.putBurst_sealLog (s : State) (k : Nat) (d : List Byte) : (s.putBurst k d).sealLog = s.sealLog := rfl
@[simp] theorem State.putBurst_answers (s : State) (k : Nat) (d : List Byte) : (s.putBurst k d).answers = s.answers := rfl
@[simp] theorem State.putBurst_msi (s : State) (k : Nat) (d : List Byte) : (s.putBurst k d).msi = s.msi := rfl
@[simp] theorem State.putBurst_caps (s : State) (k : Nat) (d : List Byte) : (s.putBurst k d).caps = s.caps := rfl
@[simp] theorem State.putBurst_errors (s : State) (k : Nat) (d : List Byte) : (s.putBurst k d).errors = s.errors := rfl
@[simp] theorem State.putBurst_testing (s : State) (k : Nat) (d : List Byte) : (s.putBurst k d).testing = s.testing := rfl
@[simp] theorem State.putBurst_badWords (s : State) (k : Nat) (d : List Byte) : (s.putBurst k d).badWords = s.badWords := rfl
@[simp] theorem State.putBurst_cpiWords (s : State) (k : Nat) (d : List Byte) : (s.putBurst k d).cpiWords = s.cpiWords := rfl
@[simp] theorem State.putBurst_hbmUe (s : State) (k : Nat) (d : List Byte) : (s.putBurst k d).hbmUe = s.hbmUe := rfl
@[simp] theorem State.putBurst_lowTests (s : State) (k : Nat) (d : List Byte) : (s.putBurst k d).lowTests = s.lowTests := rfl
@[simp] theorem State.putBurst_undervolts (s : State) (k : Nat) (d : List Byte) : (s.putBurst k d).undervolts = s.undervolts := rfl
@[simp] theorem State.putBurst_retiring (s : State) (k : Nat) (d : List Byte) : (s.putBurst k d).retiring = s.retiring := rfl

@[simp] theorem State.modCore_tick (s : State) (c : Nat) (f : Core → Core) : (s.modCore c f).tick = s.tick := rfl
@[simp] theorem State.modCore_powered (s : State) (c : Nat) (f : Core → Core) : (s.modCore c f).powered = s.powered := rfl
@[simp] theorem State.modCore_cob (s : State) (c : Nat) (f : Core → Core) : (s.modCore c f).cob = s.cob := rfl
@[simp] theorem State.modCore_todo (s : State) (c : Nat) (f : Core → Core) : (s.modCore c f).todo = s.todo := rfl
@[simp] theorem State.modCore_ctx (s : State) (c : Nat) (f : Core → Core) : (s.modCore c f).ctx = s.ctx := rfl
@[simp] theorem State.modCore_pool (s : State) (c : Nat) (f : Core → Core) : (s.modCore c f).pool = s.pool := rfl
@[simp] theorem State.modCore_hbm (s : State) (c : Nat) (f : Core → Core) : (s.modCore c f).hbm = s.hbm := rfl
@[simp] theorem State.modCore_host (s : State) (c : Nat) (f : Core → Core) : (s.modCore c f).host = s.host := rfl
@[simp] theorem State.modCore_tags (s : State) (c : Nat) (f : Core → Core) : (s.modCore c f).tags = s.tags := rfl
@[simp] theorem State.modCore_imem (s : State) (c : Nat) (f : Core → Core) : (s.modCore c f).imem = s.imem := rfl
@[simp] theorem State.modCore_pend (s : State) (c : Nat) (f : Core → Core) : (s.modCore c f).pend = s.pend := rfl
@[simp] theorem State.modCore_cores (s : State) (c : Nat) (f : Core → Core) : (s.modCore c f).cores = Table.put s.cores c (f (s.core c)) := rfl
@[simp] theorem State.modCore_runs (s : State) (c : Nat) (f : Core → Core) : (s.modCore c f).runs = s.runs := rfl
@[simp] theorem State.modCore_chans (s : State) (c : Nat) (f : Core → Core) : (s.modCore c f).chans = s.chans := rfl
@[simp] theorem State.modCore_parts (s : State) (c : Nat) (f : Core → Core) : (s.modCore c f).parts = s.parts := rfl
@[simp] theorem State.modCore_nonce (s : State) (c : Nat) (f : Core → Core) : (s.modCore c f).nonce = s.nonce := rfl
@[simp] theorem State.modCore_agenda (s : State) (c : Nat) (f : Core → Core) : (s.modCore c f).agenda = s.agenda := rfl
@[simp] theorem State.modCore_nextOp (s : State) (c : Nat) (f : Core → Core) : (s.modCore c f).nextOp = s.nextOp := rfl

@[simp] theorem State.modMe_tick (s : State) (f : Core → Core) : (s.modMe f).tick = s.tick := rfl
@[simp] theorem State.modMe_powered (s : State) (f : Core → Core) : (s.modMe f).powered = s.powered := rfl
@[simp] theorem State.modMe_cob (s : State) (f : Core → Core) : (s.modMe f).cob = s.cob := rfl
@[simp] theorem State.modMe_todo (s : State) (f : Core → Core) : (s.modMe f).todo = s.todo := rfl
@[simp] theorem State.modMe_ctx (s : State) (f : Core → Core) : (s.modMe f).ctx = s.ctx := rfl
@[simp] theorem State.modMe_pool (s : State) (f : Core → Core) : (s.modMe f).pool = s.pool := rfl
@[simp] theorem State.modMe_hbm (s : State) (f : Core → Core) : (s.modMe f).hbm = s.hbm := rfl
@[simp] theorem State.modMe_host (s : State) (f : Core → Core) : (s.modMe f).host = s.host := rfl
@[simp] theorem State.modMe_tags (s : State) (f : Core → Core) : (s.modMe f).tags = s.tags := rfl
@[simp] theorem State.modMe_imem (s : State) (f : Core → Core) : (s.modMe f).imem = s.imem := rfl
@[simp] theorem State.modMe_pend (s : State) (f : Core → Core) : (s.modMe f).pend = s.pend := rfl
@[simp] theorem State.modMe_cores (s : State) (f : Core → Core) : (s.modMe f).cores = Table.put s.cores s.ctx.core (f s.me) := rfl
@[simp] theorem State.modMe_runs (s : State) (f : Core → Core) : (s.modMe f).runs = s.runs := rfl
@[simp] theorem State.modMe_chans (s : State) (f : Core → Core) : (s.modMe f).chans = s.chans := rfl
@[simp] theorem State.modMe_parts (s : State) (f : Core → Core) : (s.modMe f).parts = s.parts := rfl
@[simp] theorem State.modMe_nonce (s : State) (f : Core → Core) : (s.modMe f).nonce = s.nonce := rfl
@[simp] theorem State.modMe_agenda (s : State) (f : Core → Core) : (s.modMe f).agenda = s.agenda := rfl
@[simp] theorem State.modMe_nextOp (s : State) (f : Core → Core) : (s.modMe f).nextOp = s.nextOp := rfl

@[simp] theorem State.defer_tick (s : State) (d : Nat) (u : Upd) : (s.defer d u).tick = s.tick := rfl
@[simp] theorem State.defer_powered (s : State) (d : Nat) (u : Upd) : (s.defer d u).powered = s.powered := rfl
@[simp] theorem State.defer_cob (s : State) (d : Nat) (u : Upd) : (s.defer d u).cob = s.cob := rfl
@[simp] theorem State.defer_todo (s : State) (d : Nat) (u : Upd) : (s.defer d u).todo = s.todo := rfl
@[simp] theorem State.defer_ctx (s : State) (d : Nat) (u : Upd) : (s.defer d u).ctx = s.ctx := rfl
@[simp] theorem State.defer_pool (s : State) (d : Nat) (u : Upd) : (s.defer d u).pool = s.pool := rfl
@[simp] theorem State.defer_hbm (s : State) (d : Nat) (u : Upd) : (s.defer d u).hbm = s.hbm := rfl
@[simp] theorem State.defer_host (s : State) (d : Nat) (u : Upd) : (s.defer d u).host = s.host := rfl
@[simp] theorem State.defer_tags (s : State) (d : Nat) (u : Upd) : (s.defer d u).tags = s.tags := rfl
@[simp] theorem State.defer_imem (s : State) (d : Nat) (u : Upd) : (s.defer d u).imem = s.imem := rfl
@[simp] theorem State.defer_pend (s : State) (d : Nat) (u : Upd) : (s.defer d u).pend = s.pend ++ [{ clk := s.clkOf s.ctx.core, due := s.me.cyc + d, upd := u, src := s.src }] := rfl
@[simp] theorem State.defer_cores (s : State) (d : Nat) (u : Upd) : (s.defer d u).cores = s.cores := rfl
@[simp] theorem State.defer_runs (s : State) (d : Nat) (u : Upd) : (s.defer d u).runs = s.runs := rfl
@[simp] theorem State.defer_chans (s : State) (d : Nat) (u : Upd) : (s.defer d u).chans = s.chans := rfl
@[simp] theorem State.defer_parts (s : State) (d : Nat) (u : Upd) : (s.defer d u).parts = s.parts := rfl
@[simp] theorem State.defer_nonce (s : State) (d : Nat) (u : Upd) : (s.defer d u).nonce = s.nonce := rfl
@[simp] theorem State.defer_agenda (s : State) (d : Nat) (u : Upd) : (s.defer d u).agenda = s.agenda := rfl
@[simp] theorem State.defer_nextOp (s : State) (d : Nat) (u : Upd) : (s.defer d u).nextOp = s.nextOp := rfl

@[simp] theorem State.deferX_tick (s : State) (d : Nat) (r : XReg) (v : X) : (s.deferX d r v).tick = s.tick := rfl
@[simp] theorem State.deferX_powered (s : State) (d : Nat) (r : XReg) (v : X) : (s.deferX d r v).powered = s.powered := rfl
@[simp] theorem State.deferX_cob (s : State) (d : Nat) (r : XReg) (v : X) : (s.deferX d r v).cob = s.cob := rfl
@[simp] theorem State.deferX_todo (s : State) (d : Nat) (r : XReg) (v : X) : (s.deferX d r v).todo = s.todo := rfl
@[simp] theorem State.deferX_ctx (s : State) (d : Nat) (r : XReg) (v : X) : (s.deferX d r v).ctx = s.ctx := rfl
@[simp] theorem State.deferX_pool (s : State) (d : Nat) (r : XReg) (v : X) : (s.deferX d r v).pool = s.pool := rfl
@[simp] theorem State.deferX_hbm (s : State) (d : Nat) (r : XReg) (v : X) : (s.deferX d r v).hbm = s.hbm := rfl
@[simp] theorem State.deferX_host (s : State) (d : Nat) (r : XReg) (v : X) : (s.deferX d r v).host = s.host := rfl
@[simp] theorem State.deferX_tags (s : State) (d : Nat) (r : XReg) (v : X) : (s.deferX d r v).tags = s.tags := rfl
@[simp] theorem State.deferX_imem (s : State) (d : Nat) (r : XReg) (v : X) : (s.deferX d r v).imem = s.imem := rfl
@[simp] theorem State.deferX_pend (s : State) (d : Nat) (r : XReg) (v : X) : (s.deferX d r v).pend = s.pend ++ [{ clk := s.clkOf s.ctx.core, due := s.me.cyc + d, upd := .x s.ctx.core r v, src := s.src }] := rfl
@[simp] theorem State.deferX_cores (s : State) (d : Nat) (r : XReg) (v : X) : (s.deferX d r v).cores = s.cores := rfl
@[simp] theorem State.deferX_runs (s : State) (d : Nat) (r : XReg) (v : X) : (s.deferX d r v).runs = s.runs := rfl
@[simp] theorem State.deferX_chans (s : State) (d : Nat) (r : XReg) (v : X) : (s.deferX d r v).chans = s.chans := rfl
@[simp] theorem State.deferX_parts (s : State) (d : Nat) (r : XReg) (v : X) : (s.deferX d r v).parts = s.parts := rfl
@[simp] theorem State.deferX_nonce (s : State) (d : Nat) (r : XReg) (v : X) : (s.deferX d r v).nonce = s.nonce := rfl
@[simp] theorem State.deferX_agenda (s : State) (d : Nat) (r : XReg) (v : X) : (s.deferX d r v).agenda = s.agenda := rfl
@[simp] theorem State.deferX_nextOp (s : State) (d : Nat) (r : XReg) (v : X) : (s.deferX d r v).nextOp = s.nextOp := rfl

@[simp] theorem State.deferTick_tick (s : State) (p : Src) (t : Nat) (u : Upd) : (s.deferTick p t u).tick = s.tick := rfl
@[simp] theorem State.deferTick_powered (s : State) (p : Src) (t : Nat) (u : Upd) : (s.deferTick p t u).powered = s.powered := rfl
@[simp] theorem State.deferTick_cob (s : State) (p : Src) (t : Nat) (u : Upd) : (s.deferTick p t u).cob = s.cob := rfl
@[simp] theorem State.deferTick_todo (s : State) (p : Src) (t : Nat) (u : Upd) : (s.deferTick p t u).todo = s.todo := rfl
@[simp] theorem State.deferTick_ctx (s : State) (p : Src) (t : Nat) (u : Upd) : (s.deferTick p t u).ctx = s.ctx := rfl
@[simp] theorem State.deferTick_pool (s : State) (p : Src) (t : Nat) (u : Upd) : (s.deferTick p t u).pool = s.pool := rfl
@[simp] theorem State.deferTick_hbm (s : State) (p : Src) (t : Nat) (u : Upd) : (s.deferTick p t u).hbm = s.hbm := rfl
@[simp] theorem State.deferTick_host (s : State) (p : Src) (t : Nat) (u : Upd) : (s.deferTick p t u).host = s.host := rfl
@[simp] theorem State.deferTick_tags (s : State) (p : Src) (t : Nat) (u : Upd) : (s.deferTick p t u).tags = s.tags := rfl
@[simp] theorem State.deferTick_imem (s : State) (p : Src) (t : Nat) (u : Upd) : (s.deferTick p t u).imem = s.imem := rfl
@[simp] theorem State.deferTick_pend (s : State) (p : Src) (t : Nat) (u : Upd) : (s.deferTick p t u).pend = s.pend ++ [{ clk := .tick, due := t, upd := u, src := p }] := rfl
@[simp] theorem State.deferTick_cores (s : State) (p : Src) (t : Nat) (u : Upd) : (s.deferTick p t u).cores = s.cores := rfl
@[simp] theorem State.deferTick_runs (s : State) (p : Src) (t : Nat) (u : Upd) : (s.deferTick p t u).runs = s.runs := rfl
@[simp] theorem State.deferTick_chans (s : State) (p : Src) (t : Nat) (u : Upd) : (s.deferTick p t u).chans = s.chans := rfl
@[simp] theorem State.deferTick_parts (s : State) (p : Src) (t : Nat) (u : Upd) : (s.deferTick p t u).parts = s.parts := rfl
@[simp] theorem State.deferTick_nonce (s : State) (p : Src) (t : Nat) (u : Upd) : (s.deferTick p t u).nonce = s.nonce := rfl
@[simp] theorem State.deferTick_agenda (s : State) (p : Src) (t : Nat) (u : Upd) : (s.deferTick p t u).agenda = s.agenda := rfl
@[simp] theorem State.deferTick_nextOp (s : State) (p : Src) (t : Nat) (u : Upd) : (s.deferTick p t u).nextOp = s.nextOp := rfl

@[simp] theorem State.deferOp_tick (s : State) (p : Src) (d : Nat) (u : Upd) : (s.deferOp p d u).tick = s.tick := rfl
@[simp] theorem State.deferOp_powered (s : State) (p : Src) (d : Nat) (u : Upd) : (s.deferOp p d u).powered = s.powered := rfl
@[simp] theorem State.deferOp_cob (s : State) (p : Src) (d : Nat) (u : Upd) : (s.deferOp p d u).cob = s.cob := rfl
@[simp] theorem State.deferOp_todo (s : State) (p : Src) (d : Nat) (u : Upd) : (s.deferOp p d u).todo = s.todo := rfl
@[simp] theorem State.deferOp_ctx (s : State) (p : Src) (d : Nat) (u : Upd) : (s.deferOp p d u).ctx = s.ctx := rfl
@[simp] theorem State.deferOp_pool (s : State) (p : Src) (d : Nat) (u : Upd) : (s.deferOp p d u).pool = s.pool := rfl
@[simp] theorem State.deferOp_hbm (s : State) (p : Src) (d : Nat) (u : Upd) : (s.deferOp p d u).hbm = s.hbm := rfl
@[simp] theorem State.deferOp_host (s : State) (p : Src) (d : Nat) (u : Upd) : (s.deferOp p d u).host = s.host := rfl
@[simp] theorem State.deferOp_tags (s : State) (p : Src) (d : Nat) (u : Upd) : (s.deferOp p d u).tags = s.tags := rfl
@[simp] theorem State.deferOp_imem (s : State) (p : Src) (d : Nat) (u : Upd) : (s.deferOp p d u).imem = s.imem := rfl
@[simp] theorem State.deferOp_cores (s : State) (p : Src) (d : Nat) (u : Upd) : (s.deferOp p d u).cores = s.cores := rfl
@[simp] theorem State.deferOp_runs (s : State) (p : Src) (d : Nat) (u : Upd) : (s.deferOp p d u).runs = s.runs := rfl
@[simp] theorem State.deferOp_chans (s : State) (p : Src) (d : Nat) (u : Upd) : (s.deferOp p d u).chans = s.chans := rfl
@[simp] theorem State.deferOp_parts (s : State) (p : Src) (d : Nat) (u : Upd) : (s.deferOp p d u).parts = s.parts := rfl
@[simp] theorem State.deferOp_nonce (s : State) (p : Src) (d : Nat) (u : Upd) : (s.deferOp p d u).nonce = s.nonce := rfl
@[simp] theorem State.deferOp_agenda (s : State) (p : Src) (d : Nat) (u : Upd) : (s.deferOp p d u).agenda = s.agenda := rfl
@[simp] theorem State.deferOp_nextOp (s : State) (p : Src) (d : Nat) (u : Upd) : (s.deferOp p d u).nextOp = s.nextOp := rfl

@[simp] theorem State.hold_tick (s : State) (w : WaitFor) (x : Option XReg) (i : Option Instr) : (s.hold w x i).tick = s.tick := rfl
@[simp] theorem State.hold_powered (s : State) (w : WaitFor) (x : Option XReg) (i : Option Instr) : (s.hold w x i).powered = s.powered := rfl
@[simp] theorem State.hold_cob (s : State) (w : WaitFor) (x : Option XReg) (i : Option Instr) : (s.hold w x i).cob = s.cob := rfl
@[simp] theorem State.hold_todo (s : State) (w : WaitFor) (x : Option XReg) (i : Option Instr) : (s.hold w x i).todo = s.todo := rfl
@[simp] theorem State.hold_ctx (s : State) (w : WaitFor) (x : Option XReg) (i : Option Instr) : (s.hold w x i).ctx = s.ctx := rfl
@[simp] theorem State.hold_pool (s : State) (w : WaitFor) (x : Option XReg) (i : Option Instr) : (s.hold w x i).pool = s.pool := rfl
@[simp] theorem State.hold_hbm (s : State) (w : WaitFor) (x : Option XReg) (i : Option Instr) : (s.hold w x i).hbm = s.hbm := rfl
@[simp] theorem State.hold_host (s : State) (w : WaitFor) (x : Option XReg) (i : Option Instr) : (s.hold w x i).host = s.host := rfl
@[simp] theorem State.hold_tags (s : State) (w : WaitFor) (x : Option XReg) (i : Option Instr) : (s.hold w x i).tags = s.tags := rfl
@[simp] theorem State.hold_imem (s : State) (w : WaitFor) (x : Option XReg) (i : Option Instr) : (s.hold w x i).imem = s.imem := rfl
@[simp] theorem State.hold_pend (s : State) (w : WaitFor) (x : Option XReg) (i : Option Instr) : (s.hold w x i).pend = s.pend := rfl
@[simp] theorem State.hold_runs (s : State) (w : WaitFor) (x : Option XReg) (i : Option Instr) : (s.hold w x i).runs = s.runs := rfl
@[simp] theorem State.hold_chans (s : State) (w : WaitFor) (x : Option XReg) (i : Option Instr) : (s.hold w x i).chans = s.chans := rfl
@[simp] theorem State.hold_parts (s : State) (w : WaitFor) (x : Option XReg) (i : Option Instr) : (s.hold w x i).parts = s.parts := rfl
@[simp] theorem State.hold_nonce (s : State) (w : WaitFor) (x : Option XReg) (i : Option Instr) : (s.hold w x i).nonce = s.nonce := rfl
@[simp] theorem State.hold_agenda (s : State) (w : WaitFor) (x : Option XReg) (i : Option Instr) : (s.hold w x i).agenda = s.agenda := rfl
@[simp] theorem State.hold_nextOp (s : State) (w : WaitFor) (x : Option XReg) (i : Option Instr) : (s.hold w x i).nextOp = s.nextOp := rfl

@[simp] theorem State.setOp_tick (s : State) (c o : Nat) (v : Option Op) : (s.setOp c o v).tick = s.tick := rfl
@[simp] theorem State.setOp_powered (s : State) (c o : Nat) (v : Option Op) : (s.setOp c o v).powered = s.powered := rfl
@[simp] theorem State.setOp_cob (s : State) (c o : Nat) (v : Option Op) : (s.setOp c o v).cob = s.cob := rfl
@[simp] theorem State.setOp_todo (s : State) (c o : Nat) (v : Option Op) : (s.setOp c o v).todo = s.todo := rfl
@[simp] theorem State.setOp_ctx (s : State) (c o : Nat) (v : Option Op) : (s.setOp c o v).ctx = s.ctx := rfl
@[simp] theorem State.setOp_pool (s : State) (c o : Nat) (v : Option Op) : (s.setOp c o v).pool = s.pool := rfl
@[simp] theorem State.setOp_hbm (s : State) (c o : Nat) (v : Option Op) : (s.setOp c o v).hbm = s.hbm := rfl
@[simp] theorem State.setOp_host (s : State) (c o : Nat) (v : Option Op) : (s.setOp c o v).host = s.host := rfl
@[simp] theorem State.setOp_tags (s : State) (c o : Nat) (v : Option Op) : (s.setOp c o v).tags = s.tags := rfl
@[simp] theorem State.setOp_imem (s : State) (c o : Nat) (v : Option Op) : (s.setOp c o v).imem = s.imem := rfl
@[simp] theorem State.setOp_pend (s : State) (c o : Nat) (v : Option Op) : (s.setOp c o v).pend = s.pend := rfl
@[simp] theorem State.setOp_runs (s : State) (c o : Nat) (v : Option Op) : (s.setOp c o v).runs = s.runs := rfl
@[simp] theorem State.setOp_chans (s : State) (c o : Nat) (v : Option Op) : (s.setOp c o v).chans = s.chans := rfl
@[simp] theorem State.setOp_parts (s : State) (c o : Nat) (v : Option Op) : (s.setOp c o v).parts = s.parts := rfl
@[simp] theorem State.setOp_nonce (s : State) (c o : Nat) (v : Option Op) : (s.setOp c o v).nonce = s.nonce := rfl
@[simp] theorem State.setOp_agenda (s : State) (c o : Nat) (v : Option Op) : (s.setOp c o v).agenda = s.agenda := rfl
@[simp] theorem State.setOp_nextOp (s : State) (c o : Nat) (v : Option Op) : (s.setOp c o v).nextOp = s.nextOp := rfl

@[simp] theorem State.draw_powered (s : State) : s.draw.2.powered = s.powered := rfl
@[simp] theorem State.draw_tick (s : State) : s.draw.2.tick = s.tick := rfl
@[simp] theorem State.draw_sub (s : State) : s.draw.2.sub = s.sub := rfl
@[simp] theorem State.draw_todo (s : State) : s.draw.2.todo = s.todo := rfl
@[simp] theorem State.draw_ctx (s : State) : s.draw.2.ctx = s.ctx := rfl
@[simp] theorem State.draw_inbox (s : State) : s.draw.2.inbox = s.inbox := rfl
@[simp] theorem State.draw_agenda (s : State) : s.draw.2.agenda = s.agenda := rfl
@[simp] theorem State.draw_pend (s : State) : s.draw.2.pend = s.pend := rfl
@[simp] theorem State.draw_wrote (s : State) : s.draw.2.wrote = s.wrote := rfl
@[simp] theorem State.draw_pendMark (s : State) : s.draw.2.pendMark = s.pendMark := rfl
@[simp] theorem State.draw_cores (s : State) : s.draw.2.cores = s.cores := rfl
@[simp] theorem State.draw_pool (s : State) : s.draw.2.pool = s.pool := rfl
@[simp] theorem State.draw_tags (s : State) : s.draw.2.tags = s.tags := rfl
@[simp] theorem State.draw_imem (s : State) : s.draw.2.imem = s.imem := rfl
@[simp] theorem State.draw_hbm (s : State) : s.draw.2.hbm = s.hbm := rfl
@[simp] theorem State.draw_poisoned (s : State) : s.draw.2.poisoned = s.poisoned := rfl
@[simp] theorem State.draw_host (s : State) : s.draw.2.host = s.host := rfl
@[simp] theorem State.draw_runs (s : State) : s.draw.2.runs = s.runs := rfl
@[simp] theorem State.draw_nextRun (s : State) : s.draw.2.nextRun = s.nextRun := rfl
@[simp] theorem State.draw_nextOp (s : State) : s.draw.2.nextOp = s.nextOp := rfl
@[simp] theorem State.draw_chans (s : State) : s.draw.2.chans = s.chans := rfl
@[simp] theorem State.draw_deltas (s : State) : s.draw.2.deltas = s.deltas := rfl
@[simp] theorem State.draw_stripe (s : State) : s.draw.2.stripe = s.stripe := rfl
@[simp] theorem State.draw_counters (s : State) : s.draw.2.counters = s.counters := rfl
@[simp] theorem State.draw_parts (s : State) : s.draw.2.parts = s.parts := rfl
@[simp] theorem State.draw_vfs (s : State) : s.draw.2.vfs = s.vfs := rfl
@[simp] theorem State.draw_fars (s : State) : s.draw.2.fars = s.fars := rfl
@[simp] theorem State.draw_nextFar (s : State) : s.draw.2.nextFar = s.nextFar := rfl
@[simp] theorem State.draw_tlbs (s : State) : s.draw.2.tlbs = s.tlbs := rfl
@[simp] theorem State.draw_cobFree (s : State) : s.draw.2.cobFree = s.cobFree := rfl
@[simp] theorem State.draw_cob (s : State) : s.draw.2.cob = s.cob := rfl
@[simp] theorem State.draw_lanes (s : State) : s.draw.2.lanes = s.lanes := rfl
@[simp] theorem State.draw_rxs (s : State) : s.draw.2.rxs = s.rxs := rfl
@[simp] theorem State.draw_ports (s : State) : s.draw.2.ports = s.ports := rfl
@[simp] theorem State.draw_laneSets (s : State) : s.draw.2.laneSets = s.laneSets := rfl
@[simp] theorem State.draw_racks (s : State) : s.draw.2.racks = s.racks := rfl
@[simp] theorem State.draw_planes (s : State) : s.draw.2.planes = s.planes := rfl
@[simp] theorem State.draw_lightOut (s : State) : s.draw.2.lightOut = s.lightOut := rfl
@[simp] theorem State.draw_wireOut (s : State) : s.draw.2.wireOut = s.wireOut := rfl
@[simp] theorem State.draw_wireLast (s : State) : s.draw.2.wireLast = s.wireLast := rfl
@[simp] theorem State.draw_arms (s : State) : s.draw.2.arms = s.arms := rfl
@[simp] theorem State.draw_linkDiscards (s : State) : s.draw.2.linkDiscards = s.linkDiscards := rfl
@[simp] theorem State.draw_podoff (s : State) : s.draw.2.podoff = s.podoff := rfl
@[simp] theorem State.draw_missed (s : State) : s.draw.2.missed = s.missed := rfl
@[simp] theorem State.draw_beaconSlot (s : State) : s.draw.2.beaconSlot = s.beaconSlot := rfl
@[simp] theorem State.draw_slotNow (s : State) : s.draw.2.slotNow = s.slotNow := rfl
@[simp] theorem State.draw_timekeeper (s : State) : s.draw.2.timekeeper = s.timekeeper := rfl
@[simp] theorem State.draw_slew (s : State) : s.draw.2.slew = s.slew := rfl
@[simp] theorem State.draw_devIndex (s : State) : s.draw.2.devIndex = s.devIndex := rfl
@[simp] theorem State.draw_podSize (s : State) : s.draw.2.podSize = s.podSize := rfl
@[simp] theorem State.draw_flight (s : State) : s.draw.2.flight = s.flight := rfl
@[simp] theorem State.draw_rails (s : State) : s.draw.2.rails = s.rails := rfl
@[simp] theorem State.draw_floor (s : State) : s.draw.2.floor = s.floor := rfl
@[simp] theorem State.draw_boot (s : State) : s.draw.2.boot = s.boot := rfl
@[simp] theorem State.draw_flash (s : State) : s.draw.2.flash = s.flash := rfl
@[simp] theorem State.draw_firmware (s : State) : s.draw.2.firmware = s.firmware := rfl
@[simp] theorem State.draw_secret (s : State) : s.draw.2.secret = s.secret := rfl
@[simp] theorem State.draw_identity (s : State) : s.draw.2.identity = s.identity := rfl
@[simp] theorem State.draw_alias_ (s : State) : s.draw.2.alias_ = s.alias_ := rfl
@[simp] theorem State.draw_measures (s : State) : s.draw.2.measures = s.measures := rfl
@[simp] theorem State.draw_sessions (s : State) : s.draw.2.sessions = s.sessions := rfl
@[simp] theorem State.draw_spdm (s : State) : s.draw.2.spdm = s.spdm := rfl
@[simp] theorem State.draw_transcripts (s : State) : s.draw.2.transcripts = s.transcripts := rfl
@[simp] theorem State.draw_peerSessions (s : State) : s.draw.2.peerSessions = s.peerSessions := rfl
@[simp] theorem State.draw_peers (s : State) : s.draw.2.peers = s.peers := rfl
@[simp] theorem State.draw_ide (s : State) : s.draw.2.ide = s.ide := rfl
@[simp] theorem State.draw_sealLog (s : State) : s.draw.2.sealLog = s.sealLog := rfl
@[simp] theorem State.draw_answers (s : State) : s.draw.2.answers = s.answers := rfl
@[simp] theorem State.draw_msi (s : State) : s.draw.2.msi = s.msi := rfl
@[simp] theorem State.draw_caps (s : State) : s.draw.2.caps = s.caps := rfl
@[simp] theorem State.draw_errors (s : State) : s.draw.2.errors = s.errors := rfl
@[simp] theorem State.draw_testing (s : State) : s.draw.2.testing = s.testing := rfl
@[simp] theorem State.draw_badWords (s : State) : s.draw.2.badWords = s.badWords := rfl
@[simp] theorem State.draw_cpiWords (s : State) : s.draw.2.cpiWords = s.cpiWords := rfl
@[simp] theorem State.draw_hbmUe (s : State) : s.draw.2.hbmUe = s.hbmUe := rfl
@[simp] theorem State.draw_lowTests (s : State) : s.draw.2.lowTests = s.lowTests := rfl
@[simp] theorem State.draw_undervolts (s : State) : s.draw.2.undervolts = s.undervolts := rfl
@[simp] theorem State.draw_retiring (s : State) : s.draw.2.retiring = s.retiring := rfl
@[simp] theorem State.draw_fst (s : State) : s.draw.1 = s.nonce := rfl
@[simp] theorem State.draw_nonce (s : State) : s.draw.2.nonce = s.nonce + 1 := rfl

/-! ## A unit after a change of it -/

@[simp] theorem State.core_setCore_same (s : State) (c : Nat) (k : Core) : (s.setCore c k).core c = k := by
  simp [State.core]
theorem State.core_setCore_ne (s : State) {c d : Nat} (k : Core) (h : d ≠ c) : (s.setCore c k).core d = s.core d := by
  simp [State.core, Table.get_put_ne _ _ _ h]
@[simp] theorem State.core_modCore_same (s : State) (c : Nat) (f : Core → Core) : (s.modCore c f).core c = f (s.core c) := by
  simp [State.core]
theorem State.core_modCore_ne (s : State) {c d : Nat} (f : Core → Core) (h : d ≠ c) : (s.modCore c f).core d = s.core d := by
  simp [State.core, Table.get_put_ne _ _ _ h]
@[simp] theorem State.me_modMe (s : State) (f : Core → Core) : (s.modMe f).me = f s.me := by
  simp [State.me, State.core]
@[simp] theorem State.run_modRun_same (s : State) (r : Nat) (f : Run → Run) : (s.modRun r f).run r = f (s.run r) := by
  simp [State.run]
theorem State.run_modRun_ne (s : State) {r q : Nat} (f : Run → Run) (h : q ≠ r) : (s.modRun r f).run q = s.run q := by
  simp [State.run, Table.get_put_ne _ _ _ h]
@[simp] theorem State.chan_modChan_same (s : State) (c : Nat) (f : Chan → Chan) : (s.modChan c f).chan c = f (s.chan c) := by
  simp [State.chan]
theorem State.chan_modChan_ne (s : State) {c d : Nat} (f : Chan → Chan) (h : d ≠ c) : (s.modChan c f).chan d = s.chan d := by
  simp [State.chan, Table.get_put_ne _ _ _ h]
@[simp] theorem State.part_modPart_same (s : State) (p : Nat) (f : Part → Part) : (s.modPart p f).part p = f (s.part p) := by
  simp [State.part]
theorem State.part_modPart_ne (s : State) {p q : Nat} (f : Part → Part) (h : q ≠ p) : (s.modPart p f).part q = s.part q := by
  simp [State.part, Table.get_put_ne _ _ _ h]
@[simp] theorem State.vf_modVf_same (s : State) (v : Nat) (f : Vf → Vf) : (s.modVf v f).vf v = f (s.vf v) := by
  simp [State.vf]
@[simp] theorem State.lane_modLane_same (s : State) (l : Nat) (f : Lane → Lane) : (s.modLane l f).lane l = f (s.lane l) := by
  simp [State.lane]
@[simp] theorem State.port_modPort_same (s : State) (c : Nat) (f : Port → Port) : (s.modPort c f).port c = f (s.port c) := by
  simp [State.port]
@[simp] theorem State.core_push (s : State) (w : PWrite) (c : Nat) : (s.push w).core c = s.core c := rfl
@[simp] theorem State.core_defer (s : State) (d : Nat) (u : Upd) (c : Nat) : (s.defer d u).core c = s.core c := rfl
@[simp] theorem State.core_modRun (s : State) (r : Nat) (f : Run → Run) (c : Nat) : (s.modRun r f).core c = s.core c := rfl
@[simp] theorem State.run_modCore (s : State) (c : Nat) (f : Core → Core) (r : Nat) : (s.modCore c f).run r = s.run r := rfl
@[simp] theorem State.me_defer (s : State) (d : Nat) (u : Upd) : (s.defer d u).me = s.me := rfl
@[simp] theorem State.src_defer (s : State) (d : Nat) (u : Upd) : (s.defer d u).src = s.src := rfl

end Sys2Proof.Machine
end

