-- ==== Sys2Proof/Safety.lean ====
section
/-! DEFINITION. What a sound state of the model is, and what a run without stop and without fault is: the terms the
statements use. -/

namespace Sys2Proof.Machine

/-- The memories hold their canonical form (`Memory.wf`): pools, HBM, host memory, and the pools that saved contexts hold. -/
def State.memWf (s : State) : Bool :=
  s.pool.wf && s.hbm.wf && s.host.wf && s.runs.all fun e => e.2.context.all fun x => x.pool.wf

/-- The tables of the state hold their canonical form, so that no unit has two records: of what the cores and channels are, of what
the partitions, functions and far requests are, of the light and the power, and of the controller's sessions and keys. -/
def State.tabWf (s : State) : Bool :=
  Table.wf s.cores && Table.wf s.tags && Table.wf s.imem && Table.wf s.runs && Table.wf s.chans && Table.wf s.deltas &&
  Table.wf s.counters && Table.wf s.parts && Table.wf s.vfs && Table.wf s.fars && Table.wf s.tlbs && Table.wf s.cobFree &&
  Table.wf s.lanes && Table.wf s.rxs && Table.wf s.ports && Table.wf s.laneSets && Table.wf s.racks && Table.wf s.planes &&
  Table.wf s.rails && Table.wf s.measures && Table.wf s.sessions && Table.wf s.peers && Table.wf s.ide &&
  s.runs.all fun e => e.2.context.all fun x => Table.wf x.tags && Table.wf x.imem

/-- x0 of every core is hard-wired: nothing is stored for it (05_registers.md R132). -/
def State.zeroWf (s : State) : Bool := s.cores.all fun e => !e.2.x.any fun r => r.1 == 0

/-- A step answers a next state. -/
def Goes (o : Out) : Prop := ∃ t, o = .next t

/-- `n` steps from `s` reach `t` with no stop between. -/
def Runs (n : Nat) (s t : State) : Prop := Sys2Proof.core.run n s = .next t

/-- No fault has been raised on run `r` (16_faults.md R361). -/
def State.clean (s : State) (r : Nat) : Bool := (s.run r).cause.isNone

/-- Operand B can be read: a window it names is bound (05_registers.md R147). -/
def State.boundB (s : State) : OpB → Prop
  | .win w i => (s.window w.toNat i.toNat).isSome = true
  | _ => True

/-- `t` differs from `s` at most in its pending writes. -/
def State.onlyPends (s t : State) : Prop := t = { s with pend := t.pend }

/-- The write that the syllable in hand leaves for the end of cycle c0 + `d`, 04_cycles.md R98. -/
def State.writeOf (s : State) (d : Nat) (u : Upd) : PWrite :=
  { clk := s.clkOf s.ctx.core, due := s.me.cyc + d, upd := u, src := s.src }

/-- The write that an operation of producer `p` leaves for the end of the present cycle + `d` of its core. -/
def State.opWrite (s : State) (p : Src) (d : Nat) (u : Upd) : PWrite :=
  { clk := s.clkOf p.core, due := (s.core p.core).cyc + d, upd := u, src := { p with eng := true } }

end Sys2Proof.Machine
end

