-- ==== Sys2Proof/Certificates/Slice0/Obligations.lean ====
section
/-! DEFINITION. The statements for the provers. -/

open Sys2Proof Sys2Proof.Machine

/-! ## Scalar instructions -/

/-- The arithmetic of 05_registers.md R140 but for DIV and REM: each instruction's next state is the old one with one more pending write,
of xd at the end of c0 or c0 + 2. Nothing else changes.
The logic and the shifts of 05_registers.md R140, by numbers: the right shifts as division, the left one as
multiplication, the rotation to the left. -/
def Obligations.ScalarArithmeticResults : Prop :=
  (∀ (s : State) (d a b : XReg) (imm : BitVec 32),
     exec (.add d a b) s = .next (s.deferX 0 d (s.xr a + s.xr b)) ∧
     exec (.addi d a imm) s = .next (s.deferX 0 d (s.xr a + imm.signExtend 64)) ∧
     exec (.sub d a b) s = .next (s.deferX 0 d (s.xr a - s.xr b)) ∧
     exec (.subi d a imm) s = .next (s.deferX 0 d (s.xr a - imm.signExtend 64)) ∧
     exec (.mul d a b) s = .next (s.deferX 2 d (BitVec.ofNat 64 ((s.xr a).toNat * (s.xr b).toNat))) ∧
     exec (.muli d a imm) s = .next (s.deferX 2 d (s.xr a * imm.signExtend 64)) ∧
     exec (.mulh d a b true) s = .next (s.deferX 2 d (BitVec.ofNat 64 ((s.xr a).toNat * (s.xr b).toNat / 2 ^ 64))) ∧
     exec (.mulh d a b false) s = .next (s.deferX 2 d (BitVec.ofInt 64 ((s.xr a).toInt * (s.xr b).toInt / 2 ^ 64)))) ∧
  (∀ (s : State) (d a b : XReg) (imm : BitVec 32) (n : BitVec 6),
     exec (.and d a b) s = .next (s.deferX 0 d (s.xr a &&& s.xr b)) ∧
     exec (.andi d a imm) s = .next (s.deferX 0 d (s.xr a &&& imm.signExtend 64)) ∧
     exec (.or d a b) s = .next (s.deferX 0 d (s.xr a ||| s.xr b)) ∧
     exec (.ori d a imm) s = .next (s.deferX 0 d (s.xr a ||| imm.signExtend 64)) ∧
     exec (.xor d a b) s = .next (s.deferX 0 d (s.xr a ^^^ s.xr b)) ∧
     exec (.xori d a imm) s = .next (s.deferX 0 d (s.xr a ^^^ imm.signExtend 64)) ∧
     exec (.andn d a b) s = .next (s.deferX 0 d (s.xr a &&& ~~~ s.xr b)) ∧
     exec (.shl d a b) s = .next (s.deferX 0 d (BitVec.ofNat 64 ((s.xr a).toNat * 2 ^ ((s.xr b).toNat % 64)))) ∧
     exec (.shli d a n) s = .next (s.deferX 0 d (BitVec.ofNat 64 ((s.xr a).toNat * 2 ^ n.toNat))) ∧
     exec (.shr d a b) s = .next (s.deferX 0 d (BitVec.ofNat 64 ((s.xr a).toNat / 2 ^ ((s.xr b).toNat % 64)))) ∧
     exec (.shri d a n) s = .next (s.deferX 0 d (BitVec.ofNat 64 ((s.xr a).toNat / 2 ^ n.toNat))) ∧
     exec (.sha d a b) s = .next (s.deferX 0 d (BitVec.ofInt 64 ((s.xr a).toInt / 2 ^ ((s.xr b).toNat % 64)))) ∧
     exec (.shai d a n) s = .next (s.deferX 0 d (BitVec.ofInt 64 ((s.xr a).toInt / 2 ^ n.toNat))) ∧
     exec (.rot d a b) s = .next (s.deferX 0 d
       ((s.xr a <<< ((s.xr b).toNat % 64)) ||| (s.xr a >>> (64 - (s.xr b).toNat % 64)))) ∧
     exec (.roti d a n) s = .next (s.deferX 0 d ((s.xr a <<< n.toNat) ||| (s.xr a >>> (64 - n.toNat)))))

/-- Least and greatest, counts, bit fields, constants and the select of 05_registers.md R140, R142, R143 and 04_cycles.md
R121: the counts by what they count. -/
def Obligations.ScalarCountFieldResults : Prop :=
  ∀ (s : State) (d a b : XReg) (imm : BitVec 32) (k : BitVec 3) (pos : BitVec 6) (len : BitVec 7) (p : PReg),
    exec (.min d a b false) s = .next (s.deferX 0 d (BitVec.ofInt 64 (min (s.xr a).toInt (s.xr b).toInt))) ∧
    exec (.max d a b false) s = .next (s.deferX 0 d (BitVec.ofInt 64 (max (s.xr a).toInt (s.xr b).toInt))) ∧
    exec (.min d a b true) s = .next (s.deferX 0 d (BitVec.ofNat 64 (min (s.xr a).toNat (s.xr b).toNat))) ∧
    exec (.max d a b true) s = .next (s.deferX 0 d (BitVec.ofNat 64 (max (s.xr a).toNat (s.xr b).toNat))) ∧
    (∃ n, exec (.clz d a) s = .next (s.deferX 0 d (BitVec.ofNat 64 n)) ∧ n ≤ 64 ∧ (s.xr a).toNat < 2 ^ (64 - n) ∧
      (n < 64 → 2 ^ (63 - n) ≤ (s.xr a).toNat)) ∧
    (∃ n, exec (.ctz d a) s = .next (s.deferX 0 d (BitVec.ofNat 64 n)) ∧ n ≤ 64 ∧
      (∀ i < n, (s.xr a).getLsbD i = false) ∧ (n < 64 → (s.xr a).getLsbD n = true)) ∧
    exec (.popc d a) s = .next (s.deferX 0 d (BitVec.ofNat 64 ((List.range 64).countP fun i => (s.xr a).getLsbD i))) ∧
    (len ≠ 0 → pos.toNat + len.toNat ≤ 64 →
      exec (.bfx d a false pos len) s = .next (s.deferX 0 d
        (BitVec.ofNat 64 ((s.xr a).toNat / 2 ^ pos.toNat % 2 ^ len.toNat))) ∧
      exec (.bfx d a true pos len) s = .next (s.deferX 0 d
        (if (s.xr a).getLsbD (pos.toNat + len.toNat - 1)
         then BitVec.ofInt 64 ((((s.xr a).toNat / 2 ^ pos.toNat % 2 ^ len.toNat : Nat) : Int) - 2 ^ len.toNat)
         else BitVec.ofNat 64 ((s.xr a).toNat / 2 ^ pos.toNat % 2 ^ len.toNat)))) ∧
    (∃ v : X, exec (.bfi d a pos len) s = .next (s.deferX 0 d v) ∧ ∀ i < 64,
      v.getLsbD i = if pos.toNat ≤ i ∧ i < pos.toNat + len.toNat then (s.xr a).getLsbD (i - pos.toNat) else (s.xr d).getLsbD i) ∧
    exec (.li d true imm) s = .next (s.deferX 0 d (imm.setWidth 64)) ∧
    exec (.li d false imm) s = .next (s.deferX 0 d (imm.signExtend 64)) ∧
    exec (.lih d imm) s = .next (s.deferX 0 d (BitVec.ofNat 64 (imm.toNat * 2 ^ 32 + (s.xr d).toNat % 2 ^ 32))) ∧
    exec (.lea d a b k imm) s = .next (s.deferX 0 d (s.xr a + (s.xr b <<< k.toNat) + imm.signExtend 64)) ∧
    exec (.sel d a b p) s = .next (s.deferX 0 d (if s.me.pr p then s.xr a else s.xr b))

/-- Compares and the predicate forms, 04_cycles.md R119, R120 with Table 4.4. A write of p0 is discarded: the state stays as
it is (02_bundles.md R48). -/
def Obligations.PredicateResults : Prop :=
  ∀ (s : State) (d p q : PReg) (a b xd : XReg) (imm : BitVec 32) (np nq : Bool),
    (∀ c, exec (.cmp c 0 a b) s = .next s ∧ exec (.cmpi c 0 a imm) s = .next s) ∧
    exec (.pand 0 p q np nq) s = .next s ∧ exec (.pmov 0 p) s = .next s ∧
    (d ≠ 0 →
      let w := fun (v : Bool) => Host.Outcome.next (φ := Fault) (ρ := Refusal) (s.defer 0 (.p s.ctx.core (s.me.pphys d) v))
      exec (.cmp .eq d a b) s = w (s.xr a == s.xr b) ∧ exec (.cmp .ne d a b) s = w (s.xr a != s.xr b) ∧
      exec (.cmp .lt d a b) s = w (decide ((s.xr a).toInt < (s.xr b).toInt)) ∧
      exec (.cmp .ge d a b) s = w (decide ((s.xr b).toInt ≤ (s.xr a).toInt)) ∧
      exec (.cmp .le d a b) s = w (decide ((s.xr a).toInt ≤ (s.xr b).toInt)) ∧
      exec (.cmp .gt d a b) s = w (decide ((s.xr b).toInt < (s.xr a).toInt)) ∧
      exec (.cmp .ltn d a b) s = w (decide ((s.xr a).toNat < (s.xr b).toNat)) ∧
      exec (.cmp .gen d a b) s = w (decide ((s.xr b).toNat ≤ (s.xr a).toNat)) ∧
      exec (.cmp .len d a b) s = w (decide ((s.xr a).toNat ≤ (s.xr b).toNat)) ∧
      exec (.cmp .gtn d a b) s = w (decide ((s.xr b).toNat < (s.xr a).toNat)) ∧
      exec (.cmp .tst d a b) s = w (s.xr a &&& s.xr b != 0) ∧ exec (.cmp .ntst d a b) s = w (s.xr a &&& s.xr b == 0) ∧
      exec (.cmpi .lt d a imm) s = w (decide ((s.xr a).toInt < imm.toInt)) ∧
      exec (.cmpi .eq d a imm) s = w (s.xr a == imm.signExtend 64) ∧
      exec (.pand d p q np nq) s = w (xor (s.me.pr p) np && xor (s.me.pr q) nq) ∧
      exec (.por d p q np nq) s = w (xor (s.me.pr p) np || xor (s.me.pr q) nq) ∧
      exec (.pxor d p q np nq) s = w (xor (xor (s.me.pr p) np) (xor (s.me.pr q) nq)) ∧
      exec (.pnot d p) s = w (!s.me.pr p) ∧ exec (.pmov d p) s = w (s.me.pr p)) ∧
    (∃ v : X, exec (.pmovGet xd) s = .next (s.deferX 0 xd v) ∧
      ∀ i : PReg, v.getLsbD i.toNat = s.me.pr i) ∧
    (∃ t, exec (.pmovPut a) s = .next t ∧ t.pool = s.pool ∧ t.cores = s.cores ∧
      t.pend = s.pend ++ (List.range 15).map fun i =>
        { clk := s.clkOf s.ctx.core, due := s.me.cyc, src := s.src,
          upd := .p s.ctx.core (s.me.pphys (BitVec.ofNat 4 (i + 1))) ((s.xr a).getLsbD (i + 1)) })

/-- BR, BRI, CALL and CALLI, 04_cycles.md R104, R117: two delay bundles are to issue, then the target; the link is the head
word after the second delay bundle. Registers and memory stay as they are.
LOOP and LOOPI arm their level at the end of c0 with the count, the active count and the bounds of the body (04_cycles.md
R109, R112, R118), when the body's end is a head word below 0x8000 and the level is not active.
Where LOOP and LOOPI stop short: a body end that is no head word raises BAD_TARGET, an active level or the level field 6 or 7
LOOP_WRITE (04_cycles.md R109, R115); neither arms.
Where the spec leaves the point open, the model's choice stands (log entry 25). -/
def Obligations.TransferAndLoopResults : Prop :=
  (∀ (s : State) (d a : XReg) (imm : BitVec 32), s.ctx.idx ≠ 2 →
     (∃ t, exec (.br a imm) s = .next t ∧ t.me.delayLeft = 2 ∧ t.me.target = some ((s.xr a + imm.signExtend 64).toNat : Int) ∧
       t.me.nextPc = s.ctx.head + s.ctx.len ∧ t.me.x = s.me.x ∧ t.pool = s.pool ∧ t.pend = s.pend) ∧
     (∃ t, exec (.bri imm) s = .next t ∧ t.me.delayLeft = 2 ∧ t.me.target = some ((s.ctx.head : Int) + imm.toInt) ∧
       t.me.nextPc = s.ctx.head + s.ctx.len ∧ t.me.x = s.me.x ∧ t.pool = s.pool ∧ t.pend = s.pend) ∧
     (∃ t, exec (.call d a imm) s = .next t ∧ t.me.delayLeft = 2 ∧ t.me.target = some ((s.xr a + imm.signExtend 64).toNat : Int) ∧
       t.me.x = s.me.x ∧ t.pool = s.pool ∧ t.pend = (s.deferX 0 d (BitVec.ofNat 64 s.linkOf)).pend) ∧
     (∃ t, exec (.calli d imm) s = .next t ∧ t.me.delayLeft = 2 ∧ t.me.target = some ((s.ctx.head : Int) + imm.toInt) ∧
       t.me.x = s.me.x ∧ t.pool = s.pool ∧ t.pend = (s.deferX 0 d (BitVec.ofNat 64 s.linkOf)).pend)) ∧
  (∀ (s : State) (lv : BitVec 3) (a b : XReg) (rot pad : Bool) (off : BitVec 32) (cnt o16 : BitVec 16),
     lv.toNat < 6 → (s.me.loopOf lv.toNat).active = false →
     (s.ctx.head + off.toNat < 32768 → (s.imemAt s.ctx.core (s.ctx.head + off.toNat)).2 = true →
       ∃ l : Loop, exec (.loop lv a b rot pad off) s = .next (s.defer 0 (.arm s.ctx.core lv.toNat l)) ∧
         l.lc.toNat = min (s.xr a).toNat 0xFFFFFFFF ∧ l.active = true ∧ l.rotate = rot ∧ l.iter = 0 ∧
         l.lb = BitVec.ofNat 15 (s.ctx.head + s.ctx.len) ∧ l.le = BitVec.ofNat 15 (s.ctx.head + off.toNat) ∧
         (s.ctx.inNull = false → l.lc ≠ 0 → l.padded = pad ∧ l.la.toNat = if pad then min (s.xr b).toNat 0xFFFFFFFF else l.lc.toNat) ∧
         (s.ctx.inNull = true ∨ l.lc = 0 → l.padded = true ∧ l.la = 0)) ∧
     (s.ctx.head + o16.toNat < 32768 → (s.imemAt s.ctx.core (s.ctx.head + o16.toNat)).2 = true →
       ∃ l : Loop, exec (.loopi lv b rot pad cnt o16) s = .next (s.defer 0 (.arm s.ctx.core lv.toNat l)) ∧
         l.lc.toNat = cnt.toNat ∧ l.active = true ∧ l.rotate = rot ∧ l.iter = 0 ∧
         l.lb = BitVec.ofNat 15 (s.ctx.head + s.ctx.len) ∧ l.le = BitVec.ofNat 15 (s.ctx.head + o16.toNat) ∧
         (s.ctx.inNull = false → cnt ≠ 0 → l.padded = pad ∧ l.la.toNat = if pad then min (s.xr b).toNat 0xFFFFFFFF else cnt.toNat) ∧
         (s.ctx.inNull = true ∨ cnt = 0 → l.padded = true ∧ l.la = 0))) ∧
  (∀ (s : State) (lv : BitVec 3) (a b : XReg) (rot pad : Bool) (off : BitVec 32) (cnt o16 : BitVec 16),
     let noHead := fun (e : Nat) => 32768 ≤ e ∨ (s.imemAt s.ctx.core e).2 = false
     let taken := 6 ≤ lv.toNat ∨ (s.me.loopOf lv.toNat).active = true
     (noHead (s.ctx.head + off.toNat) → exec (.loop lv a b rot pad off) s = .next (s.raise .badTarget 0 0)) ∧
     (¬ noHead (s.ctx.head + off.toNat) → taken → exec (.loop lv a b rot pad off) s = .next (s.raise .loopWrite 0 0)) ∧
     (noHead (s.ctx.head + o16.toNat) → exec (.loopi lv b rot pad cnt o16) s = .next (s.raise .badTarget 0 0)) ∧
     (¬ noHead (s.ctx.head + o16.toNat) → taken → exec (.loopi lv b rot pad cnt o16) s = .next (s.raise .loopWrite 0 0)))

/-- RDSR, WRSR and WFLD, 04_cycles.md R122 to R124: what is read is the register as it stands at the start of the cycle; what WRSR
writes, RDSR reads once the write has performed, filtered by the register's map (03_numbers.md Tables 3.1, 3.9, 05_registers.md
Tables 5.4, 5.5, 08_matrix.md Table 8.1, 04_cycles.md Table 4.2); a refused value raises ILLEGAL_ENC, and a write to LB or LE of an
active level LOOP_WRITE (04_cycles.md R115), and neither is written; WFLD gives its field of WID, sign-extended in the signed form,
an empty field 0. -/
def Obligations.SpecialRegisterResults : Prop :=
  (∀ (s : State) (d a : XReg) (i : BitVec 12) (sign : Bool) (f : BitVec 3),
    let ds := ((s.runOf s.ctx.core).map (·.last.wid)).getD []
    let o := ((ds.take f.toNat).map (·.1)).sum
    let w := (ds.getD f.toNat (0, 0)).1
    let v := s.me.wid.toNat / 2 ^ o % 2 ^ w
    exec (.rdsr d i) s = .next (s.deferX 0 d (s.readSr s.ctx.core i.toNat)) ∧
    s.readSr s.ctx.core 0x000 = s.me.wid ∧ s.readSr s.ctx.core 0x001 = BitVec.ofNat 64 s.tick ∧
    s.readSr s.ctx.core 0x002 = BitVec.ofNat 64 (s.me.cyc - s.me.s) ∧ s.readSr s.ctx.core 0x004 = s.me.part.setWidth 64 ∧
    s.readSr s.ctx.core 0x0C0 = BitVec.ofNat 64 s.me.carve.scrlim ∧
    (srValueBad i.toNat (s.xr a) = false → s.me.loopWriteBad i.toNat = false →
      exec (.wrsr a i) s = .next (s.defer 0 (.sr s.ctx.core i (s.xr a)))) ∧
    (srValueBad i.toNat (s.xr a) = true → exec (.wrsr a i) s = .next (s.raise .illegalEnc 0 0)) ∧
    (srValueBad i.toNat (s.xr a) = false → s.me.loopWriteBad i.toNat = true → exec (.wrsr a i) s = .next (s.raise .loopWrite 0 0)) ∧
    (∀ n < 6, s.me.loopWriteBad (0x020 + n) = (s.me.loopOf n).active ∧ s.me.loopWriteBad (0x028 + n) = (s.me.loopOf n).active) ∧
    ((i.toNat < 0x020 ∨ 0x030 ≤ i.toNat) → s.me.loopWriteBad i.toNat = false) ∧
    exec (.wfld d sign f) s = .next (s.deferX 0 d (BitVec.ofInt 64
      (if sign = true ∧ 0 < w ∧ 2 ^ (w - 1) ≤ v then (v : Int) - 2 ^ w else v)))) ∧
  (∀ (s : State) (v : X),
    let back := fun (i : BitVec 12) => (s.apply (.sr s.ctx.core i v)).readSr s.ctx.core i.toNat
    let low := fun (n : Nat) => BitVec.ofNat 64 (v.toNat % 2 ^ n)
    back 0x008 = BitVec.ofNat 64 ((if v.toNat / 2 ^ 32 = 0 then 0x9E3779B9 else v.toNat / 2 ^ 32) * 2 ^ 32 + v.toNat % 4) ∧
    back 0x009 = low 6 ∧ back 0x00A = low 1 ∧ back 0x00B = low 2 ∧ back 0x00C = low 5 ∧ back 0x060 = low 21 ∧
    back 0x050 = v &&& 0x1F7 ∧
    (∀ n < 6,
      let l := BitVec.ofNat 12 n
      let lp := s.me.loopOf n
      back (0x010 + l) = low 32 ∧ back (0x018 + l) = low 32 ∧ back (0x020 + l) = low 15 ∧ back (0x028 + l) = low 15 ∧
      back (0x030 + l) = v ∧
      back (0x038 + l) = BitVec.ofNat 64 (lp.active.toNat * 256 + lp.padded.toNat * 128 + lp.rotate.toNat * 64 + v.toNat % 32)) ∧
    ∀ n < 16, back (0x040 + BitVec.ofNat 12 n) = v &&& 0x37F7F)

/-- LD and ST of the own pool, 05_registers.md R144: an aligned access below SCRLIM samples or writes exactly its bytes; with
EARLY clear. Only the pending writes grow.
LDK and the legacy stack, 05_registers.md R147, R149, R155: the window element with its own size, out of bounds 0 with
PWOOB; PUSHM and POPM between SCRLIM and the stack's base.
AMOL on the own pool in a locked phase, 12_order.md R290 with Table 12.5: the old value is sampled now, the new one written
at the end of c0 and xd at the end of c0 + 3; only the pending writes grow. -/
def Obligations.OwnPoolResults : Prop :=
  (∀ (s : State) (d a b : XReg) (sign : Bool) (z : BitVec 2) (imm : BitVec 32),
     let e := s.xr a + imm.signExtend 64
     let n := 2 ^ z.toNat
     e.toNat % n = 0 → e.toNat + n ≤ s.me.carve.scrlim → s.me.carve.scrlim ≤ 0x180000 →
     (s.me.early = false → ∃ v : X, exec (.ld d a sign z imm) s = .next (s.deferX 3 d v) ∧
       v.toNat % 2 ^ (8 * n) = ofLe (s.poolRead s.ctx.core e.toNat n) ∧
       (sign = false → v.toNat < 2 ^ (8 * n)) ∧
       (sign = true → v.toInt < 2 ^ (8 * n - 1) ∧ -2 ^ (8 * n - 1) ≤ v.toInt)) ∧
     exec (.st a b z imm) s =
       .next (s.defer 0 (.pool s.ctx.core e.toNat ((leBytes n (s.xr b).toNat).map some) false))) ∧
  (∀ (s : State) (d a f : XReg) (sign : Bool) (w : BitVec 3) (imm : BitVec 32) (n : BitVec 6),
     (∀ v e, s.window w.toNat (s.xr a + imm.signExtend 64).toNat = some (v, e, false) →
       exec (.ldk d a sign w imm) s = .next (s.deferX 3 d (extend sign e v))) ∧
     (∀ v e, s.window w.toNat (s.xr a + imm.signExtend 64).toNat = some (v, e, true) →
       exec (.ldk d a sign w imm) s = .next ((s.defer 0 (.stat s.ctx.core 1)).deferX 3 d (extend sign e v))) ∧
     (s.me.spstk.toNat % 8 = 0 → s.me.carve.scrlim + 8 * n.toNat ≤ s.me.spstk.toNat → s.me.spstk.toNat ≤ s.me.carve.sb →
       exec (.pushm f n) s = .next
         ((s.defer 0 (.pool s.ctx.core (s.me.spstk.toNat - 8 * n.toNat)
           (((List.range n.toNat).flatMap fun j => leBytes 8 (s.xr (f + BitVec.ofNat 5 j)).toNat).map some) false)).defer 0
           (.spstk s.ctx.core (BitVec.ofNat 21 (s.me.spstk.toNat - 8 * n.toNat))))) ∧
     (s.me.spstk.toNat % 8 = 0 → s.me.carve.scrlim ≤ s.me.spstk.toNat → s.me.spstk.toNat + 8 * n.toNat ≤ s.me.carve.sb →
       ∃ t, exec (.popm f n) s = .next t ∧ t.cores = s.cores ∧ t.pool = s.pool ∧
         t.pend = (s.defer 0 (.spstk s.ctx.core (BitVec.ofNat 21 (s.me.spstk.toNat + 8 * n.toNat)))).pend ++
           ((List.range n.toNat).zip (chunks 8 n.toNat (s.poolRead s.ctx.core s.me.spstk.toNat (8 * n.toNat)))).map fun e =>
             { clk := s.clkOf s.ctx.core, due := s.me.cyc + 3, src := s.src,
               upd := .x s.ctx.core (f + BitVec.ofNat 5 e.1) (BitVec.ofNat 64 (ofLe e.2)) })) ∧
  (∀ (s : State) (op : AmolOp) (xd xa xb : XReg) (w8 : Bool) (imm : BitVec 24), s.me.elastic = false → s.me.early = false →
     let e := (s.xr xa + imm.signExtend 64).toNat
     let n := if w8 then 8 else 4
     e % n = 0 → e + n ≤ s.me.carve.scrlim → s.me.carve.scrlim ≤ 0x180000 →
     let o := ofLe (s.poolRead s.ctx.core e n)
     let b := (s.xr xb).toNat % 2 ^ (8 * n)
     let d := (s.xr xd).toNat % 2 ^ (8 * n)
     ∃ t v, exec (.amol op xd xa xb w8 imm) s = .next t ∧ t.pool = s.pool ∧ t.me.x = s.me.x ∧
       t.pend = s.pend ++ [s.writeOf 0 (.amol s.ctx.core e ((leBytes n v).map some) s.nextOp),
         s.writeOf 3 (.x s.ctx.core xd (BitVec.ofNat 64 o))] ∧
       (op = .swap → v = b) ∧ (op = .add → v = (o + b) % 2 ^ (8 * n)) ∧ (op = .and → v = o &&& b) ∧ (op = .or → v = o ||| b) ∧
       (op = .xor → v = o ^^^ b) ∧ (op = .minn → v = min o b) ∧ (op = .maxn → v = max o b) ∧
       (op = .mins → v = if intOf true (8 * n) b < intOf true (8 * n) o then b else o) ∧
       (op = .maxs → v = if intOf true (8 * n) o < intOf true (8 * n) b then b else o) ∧ (op = .cas → v = if o = d then b else o))

/-- The no-operations of the five classes change nothing, 02_bundles.md R55.
TRAP and BRK, 04_cycles.md R126 and 16_faults.md R361: on a core of a live run that has not faulted, the record names the
code, the slot, the immediate and the bundle that issues next, the core stops, and no register or byte changes. In the second delay
bundle of a transfer word 4 holds the target twice, as the bundle that issues next and as the pending target: that reading is the
model's (log entry 27). -/
def Obligations.NopsAndTrap : Prop :=
  (∀ s : State, exec .nop s = .next s ∧ exec .vnop s = .next s ∧ exec .mnop s = .next s ∧ exec .znop s = .next s ∧
     exec .cnop s = .next s) ∧
  (∀ (s : State) (imm : BitVec 32) (r : Nat), s.me.run = some r → s.me.faulted = none → s.me.inRecov = false →
     s.me.trap.w0.getLsbD 8 = false → (s.run r).st = .live → (s.run r).last.gang = false → s.ctx.head < 32768 → s.ctx.core < 512 →
     (∃ t, exec (.trap imm) s = .next t ∧ t.me.seq = .stopped ∧ t.me.trap.w2 = imm.setWidth 64 ∧
       (t.me.trap.w0.toNat % 256 = 36 ∧ t.me.trap.w0.getLsbD 8 = true ∧ t.me.trap.w0.getLsbD 9 = true) ∧
       t.me.trap.w4 = s.me.resumeWord ∧ t.me.x = s.me.x ∧ t.me.p = s.me.p ∧ t.pool = s.pool ∧ t.pend = s.pend) ∧
     (∃ t, exec (.brk imm) s = .next t ∧ t.me.seq = .stopped ∧ t.me.trap.w2 = imm.setWidth 64 ∧
       (t.me.trap.w0.toNat % 256 = 37 ∧ t.me.trap.w0.getLsbD 8 = true ∧ t.me.trap.w0.getLsbD 9 = true) ∧
       t.me.trap.w4 = s.me.resumeWord ∧ t.me.x = s.me.x ∧ t.me.p = s.me.p ∧ t.pool = s.pool ∧ t.pend = s.pend))

/-! ## Waits -/

/-- WAIT and TKWAIT hold issue, 04_cycles.md R96, R127 and 05_registers.md R153: the wait counts from the end of the bundle's
stall, and nothing is written yet. Beside an executing TEND the wait counts from the next cycle and holds the start of the next
task (the model's reading, log entry 26).
WAIT_END, 04_cycles.md R96, R127: when the one wait of a core is met, the next bundle issues in the coming cycle and xd
receives the cycles waited; while it is not met the core goes on waiting and nothing is written. -/
def Obligations.WaitsHoldAndEnd : Prop :=
  (∀ (s : State) (d a b : XReg) (imm : BitVec 32) (m : BitVec 8), (s.me.inTask = true → s.me.faulted = none) →
     let g := s.xr a + imm.signExtend 64
     let holds := fun (o : Out) (w : WaitFor) => ∃ t x, o = .next t ∧ t.me.waits = s.me.waits ++ [x] ∧ x.what = w ∧
       (s.me.inTask = true → t.me.seq = .wait ∧ x.base = s.me.cyc + 1 + s.ctx.stall) ∧
       (s.me.inTask = false → t.me.seq = s.me.seq ∧ x.base = s.me.cyc + 1) ∧
       x.xd = some d ∧ t.me.x = s.me.x ∧ t.pool = s.pool ∧ t.pend = s.pend
     holds (exec (.wait .lcyc d a b imm) s) (.lcyc g.toNat) ∧ holds (exec (.wait .pcc d a b imm) s) (.pcc g.toNat) ∧
     (g.toNat + 1 ≤ s.me.carve.scrlim →
       holds (exec (.wait .tag d a b imm) s) (.tag g.toNat (BitVec.ofNat 16 (s.xr b).toNat))) ∧
     holds (exec (.tkwait d m) s) (.tokens m)) ∧
  (∀ (s : State) (x : Wait) (d : XReg), s.me.waits = [x] → x.xd = some d → x.instr = none → s.me.seq = .wait → s.me.lastX = [] →
     x.ans = none →
     let w := s.me.cyc + 1
     let ends := ∃ t, exec .waitEnd s = .next t ∧ t.me.waits = [] ∧ t.me.seq = .issue w ∧ t.pool = s.pool ∧ t.pend = s.pend ∧
       (d ≠ 0 → t.me.xr d = BitVec.ofNat 64 (w - x.base)) ∧ ∀ r, r ≠ d → t.me.xr r = s.me.xr r
     let stays := ∃ t, exec .waitEnd s = .next t ∧ t.me.waits = [x] ∧ t.me.seq = .wait ∧ t.me.x = s.me.x ∧ t.pool = s.pool ∧
       t.pend = s.pend
     (w < x.base → stays) ∧
     (∀ g, x.what = .lcyc g → (x.base ≤ w → g ≤ w - s.me.s → ends) ∧ (w - s.me.s < g → stays)) ∧
     (∀ g, x.what = .pcc g → (x.base ≤ w → g ≤ s.tick → ends) ∧ (s.tick < g → stays)) ∧
     (∀ m, x.what = .tokens m →
       (x.base ≤ w → (∀ i < 8, m.getLsbD i = true → Table.get 0 s.me.tok i ≤ w) → ends) ∧
       ((∃ i < 8, m.getLsbD i = true ∧ w < Table.get 0 s.me.tok i) → stays)))

/-! ## Vector pipes -/

/-- Operand B by its five forms, 02_bundles.md R49, R50: a register's lanes, or one value for every lane; an unbound window
raises UNBOUND_WINDOW and goes no further, an index beyond the window sets PWOOB (05_registers.md R147). -/
def Obligations.OperandBForms : Prop :=
  ∀ (s : State) (t : VTy) (k : State → List Nat → State) (r : VReg) (x : XReg) (i w : BitVec 3) (j : BitVec 12) (m : BitVec 20),
    s.withB t (.v r) k = k s (s.lanesV t r) ∧
    s.withB t (.x x) k = k s (List.replicate t.lanes (bcastLane t s.me.fmtNow (BitVec.ofNat 32 (s.xr x).toNat))) ∧
    s.withB t (.lit i) k = k s (List.replicate t.lanes (bcastLane t s.me.fmtNow (s.ctx.lits.getD i.toNat 0))) ∧
    (t.isInt = true → s.withB t (.imm m) k = k s (List.replicate t.lanes (bcastLane t s.me.fmtNow (m.signExtend 32)))) ∧
    (t.isInt = false → s.withB t (.imm m) k = k s (List.replicate t.lanes (bcastLane t s.me.fmtNow (m ++ 0#12)))) ∧
    (s.window w.toNat j.toNat = none → s.withB t (.win w j) k = s.raise .unboundWindow 0 0) ∧
    (∀ v e, s.window w.toNat j.toNat = some (v, e, false) →
      s.withB t (.win w j) k = k s (List.replicate t.lanes (windowLane t s.me.fmtNow e v))) ∧
    (∀ v e, s.window w.toNat j.toNat = some (v, e, true) →
      s.withB t (.win w j) k = k (s.defer 0 (.stat s.ctx.core 1)) (List.replicate t.lanes (windowLane t s.me.fmtNow e v)))

/-- What a vector result writes, 06_vector.md R157, R158: the 256 bytes of vd at the end of c0 + d, an inactive lane keeping
its bytes; besides that write and the flags nothing changes. -/
def Obligations.VectorWriteTouchesOnlyVd : Prop :=
  ∀ (s : State) (d : Nat) (t : VTy) (vd : VReg) (q : QReg) (f : Nat → Nat × Fl),
    s.onlyPends (s.putLanes d t vd q f) ∧
    ∃ bs fl, (s.putLanes d t vd q f).pend = s.pend ++ s.writeOf d (.pool s.ctx.core (s.me.vaddr vd) bs true) :: fl ∧
      bs.length = 256 ∧ (∀ w ∈ fl, ∃ e, w = s.writeOf d (.flags s.ctx.core e)) ∧
      ∀ i j, i < t.lanes → j < t.bytes → bs.getD (i * t.bytes + j) none =
        if (s.me.qr q).getLsbD i then some (BitVec.ofNat 8 ((f i).1 / 256 ^ j)) else none

/-- The floating-point arithmetic, 06_vector.md R162, R163, R165: the exact sum, difference, product or fused product rounded
once, at c0 + 3; FRCP to FLOG2 at c0 + 5; minimum, maximum and the sign forms at c0 + 1.
The integer arithmetic of the vector pipes, 06_vector.md R166, R167, R174: lanes read by type, wrapped to the lane or
clipped with OV; at c0 + 1, products at c0 + 3. -/
def Obligations.VectorArithmeticResults : Prop :=
  (∀ (s : State) (f : VBin) (g : VTri) (u : VUn),
     let n := fun (v : Nat) => (laneIeee f.t).dec v
     let num := fun (v : Nat) => (laneIeee g.t).dec v
     let one := fun (d : Nat) (h : Nat → Nat × Fl) => Host.Outcome.next (φ := Fault) (ρ := Refusal)
       (s.putLanes d u.t u.vd u.q fun i => h ((s.lanesV u.t u.va).getD i 0))
     let tab := fun (h : Machine.Num → Machine.Num × Fl) => one 5 fun v => fpRound u.t (Rm.of s.me.rm) [] (h ((laneIeee u.t).dec v))
     (s.boundB f.b →
       let two := fun (d : Nat) (h : Nat → Nat → Nat × Fl) => Host.Outcome.next (φ := Fault) (ρ := Refusal)
         (s.withB f.t f.b fun z b => z.putLanes d f.t f.vd f.q fun i => h ((z.lanesV f.t f.va).getD i 0) (b.getD i 0))
       exec (.fadd f) s = two 3 (fun x y => fpRound f.t (Rm.of s.me.rm) [n x, n y] ((n x).add (Rm.of s.me.rm) (n y))) ∧
       exec (.fsub f) s = two 3 (fun x y => fpRound f.t (Rm.of s.me.rm) [n x, n y] ((n x).add (Rm.of s.me.rm) (n y).neg)) ∧
       exec (.fmul f) s = two 3 (fun x y => fpRound f.t (Rm.of s.me.rm) [n x, n y] ((n x).mul (n y))) ∧
       exec (.fmin f) s = two 1 (fpMinMax f.t false) ∧ exec (.fmax f) s = two 1 (fpMinMax f.t true)) ∧
     (s.boundB g.b →
       let three := fun (h : Nat → Nat → Nat → Nat × Fl) => Host.Outcome.next (φ := Fault) (ρ := Refusal)
         (s.withB g.t g.b fun z b => z.putLanes 3 g.t g.vd g.q fun i =>
           h ((z.lanesV g.t g.va).getD i 0) (b.getD i 0) ((z.lanesV g.t g.vc).getD i 0))
       let fused := fun (p c : Machine.Num → Machine.Num) (x y z : Nat) =>
         let m := (num x).mul (num y)
         let r := (p m.1).add (Rm.of s.me.rm) (c (num z))
         fpRound g.t (Rm.of s.me.rm) [num x, num y, num z] (r.1, m.2 ||| r.2)
       exec (.fma g) s = three (fused id id) ∧ exec (.fms g) s = three (fused id Machine.Num.neg) ∧
       exec (.fnma g) s = three (fused Machine.Num.neg id)) ∧
     exec (.fabs u) s = one 1 (fun v => (v % 2 ^ (u.t.bits - 1), 0)) ∧
     exec (.fneg u) s = one 1 (fun v => (v ^^^ 2 ^ (u.t.bits - 1), 0)) ∧
     exec (.frcp u) s = tab frcpOf ∧ exec (.frsq u) s = tab frsqOf ∧ exec (.fexp2 u) s = tab fexp2Of ∧
     exec (.flog2 u) s = tab flog2Of) ∧
  (∀ (s : State) (f : VBin) (u : VUn), s.boundB f.b →
     let w := f.t.bits
     let n := fun (v : Nat) => intOf f.t.isSint w v
     let two := fun (d : Nat) (h : Nat → Nat → Nat × Fl) => Host.Outcome.next (φ := Fault) (ρ := Refusal)
       (s.withB f.t f.b fun z b => z.putLanes d f.t f.vd f.q fun i => h ((z.lanesV f.t f.va).getD i 0) (b.getD i 0))
     let one := fun (h : Nat → Nat) => Host.Outcome.next (φ := Fault) (ρ := Refusal)
       (s.putLanes 1 u.t u.vd u.q fun i => (h ((s.lanesV u.t u.va).getD i 0), 0))
     exec (.iadd f) s = two 1 (fun x y => (wrapInt w (n x + n y), 0)) ∧
     exec (.isub f) s = two 1 (fun x y => (wrapInt w (n x - n y), 0)) ∧
     exec (.imul f) s = two 3 (fun x y => (wrapInt w (n x * n y), 0)) ∧
     exec (.imulh f) s = two 3 (fun x y => (wrapInt w (n x * n y / 2 ^ w), 0)) ∧
     exec (.imin f) s = two 1 (fun x y => (wrapInt w (min (n x) (n y)), 0)) ∧
     exec (.imax f) s = two 1 (fun x y => (wrapInt w (max (n x) (n y)), 0)) ∧
     exec (.iadds f) s = two 1 (fun x y => (wrapInt w (clipInt f.t.isSint w (n x + n y)).1, (clipInt f.t.isSint w (n x + n y)).2)) ∧
     exec (.isubs f) s = two 1 (fun x y => (wrapInt w (clipInt f.t.isSint w (n x - n y)).1, (clipInt f.t.isSint w (n x - n y)).2)) ∧
     exec (.vand f) s = two 1 (fun x y => (x &&& y, 0)) ∧ exec (.vor f) s = two 1 (fun x y => (x ||| y, 0)) ∧
     exec (.vxor f) s = two 1 (fun x y => (x ^^^ y, 0)) ∧
     exec (.vshl f) s = two 1 (fun x y => (if y < w then x * 2 ^ y % 2 ^ w else 0, 0)) ∧
     exec (.vshr f) s = two 1 (fun x y => (if y < w then x / 2 ^ y else 0, 0)) ∧
     exec (.vsha f) s = two 1 (fun x y => (wrapInt w (intOf true w x / 2 ^ min y w), 0)) ∧
     exec (.vhash f) s = two 3 (fun x y => ((mix32 (BitVec.ofNat 32 x ^^^ (BitVec.ofNat 32 y * 0x9E3779B9))).toNat, 0)) ∧
     exec (.iabs u) s = one (fun x => wrapInt u.t.bits (intOf u.t.isSint u.t.bits x).natAbs) ∧
     exec (.vpopc u) s = one (fun x => (List.range u.t.bits).countP x.testBit) ∧
     exec (.vclz u) s = one (fun x => leadZeros u.t.bits x))

/-- Compares into a lane mask, 06_vector.md R164 with Table 6.5, for every form of operand B: the bits of inactive lanes and those at
n and above are 0, the whole mask is written at c0 + 1, and FCMP raises the flags of its active lanes.
Lane-mask logic and its scalar results, 06_vector.md R184. -/
def Obligations.VectorCompareAndMaskResults : Prop :=
  (∀ (s : State) (f : VCmp), s.boundB f.b →
     let on := fun (y : State) (i : Nat) => decide (i < f.t.lanes) && (y.me.qr f.q).getLsbD i
     let a := fun (y : State) (i : Nat) => (y.lanesV f.t f.va).getD i 0
     let n := intOf f.t.isSint f.t.bits
     let x := (laneIeee f.t).dec
     (∃ m : State → List Nat → BitVec 256,
       exec (.icmp f) s = .next (s.withB f.t f.b fun y b => y.defer 1 (.q y.ctx.core f.qd (m y b))) ∧
       ∀ y b i, (m y b).getLsbD i = (on y i && intCond f.cond (n (a y i)) (n (b.getD i 0)))) ∧
     (∃ (m : State → List Nat → BitVec 256) (e : State → List Nat → Fl),
       exec (.fcmp f) s =
         .next (s.withB f.t f.b fun y b => (y.defer 1 (.q y.ctx.core f.qd (m y b))).deferFlags 1 (e y b)) ∧
       (∀ y b i, (m y b).getLsbD i = (on y i && (fpCond f.cond (x (a y i)) (x (b.getD i 0))).1)) ∧
       ∀ y b k, (e y b).getLsbD k = true ↔ ∃ i, on y i = true ∧ (fpCond f.cond (x (a y i)) (x (b.getD i 0))).2.getLsbD k = true)) ∧
  (∀ (s : State) (d a b : QReg) (t : VTy) (x : XReg) (p : PReg),
     exec (.qand d a b) s = .next (s.defer 0 (.q s.ctx.core d (s.me.qr a &&& s.me.qr b))) ∧
     exec (.qor d a b) s = .next (s.defer 0 (.q s.ctx.core d (s.me.qr a ||| s.me.qr b))) ∧
     exec (.qxor d a b) s = .next (s.defer 0 (.q s.ctx.core d (s.me.qr a ^^^ s.me.qr b))) ∧
     exec (.qnot d a) s = .next (s.defer 0 (.q s.ctx.core d (~~~ s.me.qr a))) ∧
     exec (.qpopMask t x a) s = .next (s.deferX 0 x (BitVec.ofNat 64 ((List.range t.lanes).countP fun i => (s.me.qr a).getLsbD i))) ∧
     (∃ n, exec (.qfirst t x a) s = .next (s.deferX 0 x (BitVec.ofNat 64 n)) ∧ n ≤ t.lanes ∧
       (∀ i < n, (s.me.qr a).getLsbD i = false) ∧ (n < t.lanes → (s.me.qr a).getLsbD n = true)) ∧
     (p ≠ 0 → exec (.qany t p a) s = .next (s.defer 0 (.p s.ctx.core (s.me.pphys p)
       (decide (∃ i < t.lanes, (s.me.qr a).getLsbD i = true))))))

/-- Moving lanes, 06_vector.md R169, R170, R173: each result lane names the source lane it takes. VEXT takes its lane whatever its
lane mask says, which is the model's reading (log entry 28).
CVT, 06_vector.md R168 with Table 6.6: element j of part h converts its source lane into its destination lane where the mask has bit
j, at c0 + 2 with the flags of all; other lanes keep their value; a stochastic conversion draws the bits of its destination lane
from the generator and advances it once (03_numbers.md R83). -/
def Obligations.VectorMoveAndConversionResults : Prop :=
  (∀ (s : State) (f : VOne) (g : VBin) (u : VUn) (z : VZip) (qs q : QReg) (im : BitVec 8) (t : VTy) (d : XReg) (va : VReg),
     (s.boundB f.b →
       exec (.vmov f) s = .next (s.withB f.t f.b fun y b => y.putLanes 1 f.t f.vd f.q fun i => (b.getD i 0, 0)) ∧
       exec (.viota f) s = .next (s.withB f.t f.b fun y b => y.putLanes 1 f.t f.vd f.q fun i => ((b.getD i 0 + i) % 2 ^ f.t.bits, 0)) ∧
       exec (.vins f im) s = .next (s.withB f.t f.b fun y b => y.deferLanes 1 f.t f.vd ((List.range f.t.lanes).map fun j =>
         if j = im.toNat ∧ (y.me.qr f.q).getLsbD im.toNat = true then some (b.getD j 0) else none))) ∧
     (s.boundB g.b →
       exec (.vsel g qs) s = .next (s.withB g.t g.b fun y b => y.putLanes 1 g.t g.vd g.q fun i =>
         (if (y.me.qr qs).getLsbD i then (y.lanesV g.t g.va).getD i 0 else b.getD i 0, 0)) ∧
       exec (.perm g) s = .next (s.withB g.t g.b fun y b => y.putLanes 2 g.t g.vd g.q fun i =>
         ((y.lanesV g.t g.va).getD (b.getD i 0 % g.t.lanes) 0, 0))) ∧
     exec (.rotl u im) s = .next (s.putLanes 2 u.t u.vd u.q fun i => ((s.lanesV u.t u.va).getD ((i + im.toNat) % u.t.lanes) 0, 0)) ∧
     exec (.bcast u im) s = .next (s.putLanes 2 u.t u.vd u.q fun _ => ((s.lanesV u.t u.va).getD im.toNat 0, 0)) ∧
     (s.boundB z.vb →
       exec (.zip z) s = .next (s.withB z.t z.vb fun y b => y.putLanes 2 z.t z.vd z.q fun i =>
         ((if i % 2 = 0 then y.lanesV z.t z.va else b).getD (z.h.toNat * (z.t.lanes / 2) + i / 2) 0, 0)) ∧
       exec (.unzip z) s = .next (s.withB z.t z.vb fun y b => y.putLanes 2 z.t z.vd z.q fun i =>
         ((if i < z.t.lanes / 2 then y.lanesV z.t z.va else b).getD (2 * (i % (z.t.lanes / 2)) + z.h.toNat) 0, 0))) ∧
     exec (.vext t d va im q) s = .next (s.deferX 2 d (extend t.isSint t.bytes ((s.lanesV t va).getD im.toNat 0)))) ∧
  (∀ (s : State) (f : VCvt), f.h.toNat < max f.s.bytes f.d.bytes / min f.s.bytes f.d.bytes →
     let e := 256 / max f.s.bytes f.d.bytes
     let si := fun (j : Nat) => if f.s.bytes < f.d.bytes then f.h.toNat * e + j else j
     let di := fun (j : Nat) => if f.d.bytes < f.s.bytes then f.h.toNat * e + j else j
     let rm := fun (j : Nat) => if f.sr then Rm.sto (rndBits (srsIter (s.drawsNow s.ctx.core) s.me.srs) (di j)) else Rm.of s.me.rm
     let r := fun (j : Nat) => cvtLane f.s f.d s.me.fmtNow (rm j) f.sat ((s.lanesV f.s f.va).getD (si j) 0)
     let on := (List.range e).filter fun j => (s.me.qr f.q).getLsbD j
     ∃ ls : List (Option Nat), exec (.cvt f) s = .next (((if f.sr then s.defer 0 (.srs s.ctx.core 1) else s).deferLanes 2 f.d f.vd
         ls).deferFlags 2 (on.foldl (fun a j => a ||| (r j).2) 0)) ∧ ls.length = f.d.lanes ∧
       (∀ j < e, ls.getD (di j) none = if (s.me.qr f.q).getLsbD j then some (r j).1 else none) ∧
       ∀ i, (∀ j < e, i ≠ di j) → ls.getD i none = none) ∧
  (∀ (a d : VTy) (entry : BitVec 32) (rm : Rm) (sat : Bool) (v : Nat), a.isInt = true → d.isInt = true →
     let i := intOf a.isSint a.bits v
     cvtLane a d entry rm sat v = if sat then (wrapInt d.bits (clipInt d.isSint d.bits i).1, (clipInt d.isSint d.bits i).2)
       else (wrapInt d.bits i, 0))

/-- Reductions and the scan, 06_vector.md R171, R172 with Table 6.7: level k + 1 of the tree of 03_numbers.md R91 combines neighbours
of level k, a lone active input passing; the node of the last level, or the value for no active lane, stands in every lane at c0 + 7;
SCAN gives each active lane the running sum up to it.
Conditional streams, 06_vector.md R180 to R183: SPUSH appends the bytes of the active lanes in order while the ring of 16,384 bytes
has room, else it raises POOL_BOUNDS; SPOP takes as many whole lanes as there are, SCNT counts them.
Where the spec leaves the point open, the model's choice stands (log entries 27, 28). -/
def Obligations.ReductionAndStreamResults : Prop :=
  (∀ (s : State) (f : VUn),
     let q := s.me.qr f.q
     let a := s.lanesV f.t f.va
     let w := f.t.bits
     let rm := Rm.of s.me.rm
     let n := fun (v : Nat) => (laneIeee f.t).dec v
     let z := fun (v : Nat) => intOf f.t.isSint w v
     let node := fun {α : Type} (g : α → α → α × Fl) (x y : Option α × Fl) => match x.1, y.1 with
       | some u, some v => (some (g u v).1, x.2 ||| y.2 ||| (g u v).2)
       | some u, none => (some u, x.2 ||| y.2)
       | none, v => (v, x.2 ||| y.2)
     let tree := fun {α : Type} (lane : Nat → α) (g : α → α → α × Fl) (lv : Nat → Nat → Option α × Fl) =>
       (∀ i, lv 0 i = (if i < f.t.lanes ∧ q.getLsbD i = true then some (lane i) else none, 0)) ∧
       ∀ k i, lv (k + 1) i = node g (lv k (2 * i)) (lv k (2 * i + 1))
     let all := fun (v : Nat) (fl : Fl) => Host.Outcome.next (φ := Fault) (ρ := Refusal)
       ((s.deferLanes 7 f.t f.vd (List.replicate f.t.lanes (some v))).deferFlags 7 fl)
     let one := fun (o : Out) (e : Nat) (g : Nat → Nat → Nat × Fl) => ∃ lv, tree (fun i => a.getD i 0) g lv ∧
       o = all ((lv (Nat.log2 f.t.lanes) 0).1.getD e) (lv (Nat.log2 f.t.lanes) 0).2
     let sum := fun (x y : Nat) => if f.t.isFp then fpRound f.t rm [n x, n y] ((n x).add rm (n y)) else (wrapInt w (z x + z y), 0)
     one (exec (.rsum f) s) 0 sum ∧
     one (exec (.rmin f) s) (if f.t.isFp then (laneIeee f.t).infOf false else if f.t.isSint then 2 ^ (w - 1) - 1 else 2 ^ w - 1)
       (fun x y => if f.t.isFp then fpMinMax f.t false x y else (wrapInt w (min (z x) (z y)), 0)) ∧
     one (exec (.rmax f) s) (if f.t.isFp then (laneIeee f.t).infOf true else if f.t.isSint then 2 ^ (w - 1) else 0)
       (fun x y => if f.t.isFp then fpMinMax f.t true x y else (wrapInt w (max (z x) (z y)), 0)) ∧
     (∃ lv, tree (fun i => (a.getD i 0, i)) (fun x y =>
         if f.t.isFp then
           (if (n y.1).isNan = false ∧ ((n x.1).isNan = true ∨ (n y.1).cmp (n x.1) = some .lt) then y else x, sigFl [n x.1, n y.1])
         else (if z y.1 < z x.1 then y else x, 0)) lv ∧
       exec (.rmini f) s = all (((lv (Nat.log2 f.t.lanes) 0).1.map (·.2)).getD (2 ^ w - 1)) (lv (Nat.log2 f.t.lanes) 0).2) ∧
     (∃ run : Nat → Option Nat × Fl, run 0 = (none, 0) ∧
       (∀ i, run (i + 1) = if q.getLsbD i then node sum (run i) (some (a.getD i 0), 0) else run i) ∧
       exec (.scan f) s = .next ((s.deferLanes 7 f.t f.vd ((List.range f.t.lanes).map fun i =>
         if q.getLsbD i then (run (i + 1)).1 else none)).deferFlags 7 (run f.t.lanes).2))) ∧
  (∀ (s : State) (t : VTy) (v : VReg) (k : BitVec 2) (q qd : QReg) (x : XReg),
     let h := (s.me.stream k.toNat).1
     let n := (s.me.stream k.toNat).2
     let ring := fun (o : Nat) => s.me.carve.sb + 16384 * k.toNat + o % 16384
     let m := min t.lanes (n / t.bytes)
     let on := (List.range t.lanes).filter fun i => (s.me.qr q).getLsbD i
     (n + on.length * t.bytes ≤ 16384 → ∃ ws : List (Nat × List Byte), exec (.spush t v k q) s = .next { s with
         pend := s.pend ++ (ws.map fun e => s.writeOf 0 (.pool s.ctx.core e.1 (e.2.map some) false)) ++
           [s.writeOf 0 (.stream s.ctx.core k.toNat h (n + on.length * t.bytes))] } ∧
       (ws.map fun e => e.2.length).sum = on.length * t.bytes ∧
       ∀ j < on.length, ∀ b < t.bytes, ∃ e ∈ ws, ∃ o, e.1 + o = ring (h + n + j * t.bytes + b) ∧
         e.2[o]? = some (BitVec.ofNat 8 ((s.lanesV t v).getD (on.getD j 0) 0 / 256 ^ b))) ∧
     (16384 < n + on.length * t.bytes → ∃ w2, exec (.spush t v k q) s = .next (s.raise .poolBounds w2 0)) ∧
     exec (.spop t v qd k) s = .next { s with pend := s.pend ++
       [s.writeOf 5 (.pool s.ctx.core (s.me.vaddr v) ((List.range t.lanes).flatMap fun i => (List.range t.bytes).map fun b =>
          if i < m then (s.poolRead s.ctx.core (ring (h + i * t.bytes + b)) 1)[0]? else none) true),
        s.writeOf 5 (.q s.ctx.core qd (BitVec.ofNat 256 (2 ^ m - 1))),
        s.writeOf 0 (.stream s.ctx.core k.toNat ((h + m * t.bytes) % 16384) (n - m * t.bytes))] } ∧
     exec (.scnt t x k q) s = .next (s.deferX 0 x (BitVec.ofNat 64 (n / t.bytes))))

/-! ## Vector memory, vaults -/

/-- The vector memory forms on the own pool, 06_vector.md R175 to R177: lane i of an active lane is sampled now from its address and
written to vd, or vd's lane i is written to it, at c0 + 5 (c0 + 11 for the indexed forms); of active lanes with one address the
highest-numbered is stored; an active lane out of scratch or misaligned raises POOL_BOUNDS. EARLY is clear.
The checked forms, 06_vector.md R178, 09_pool.md R213: every granule of an active lane carries the expected tag, or the load raises
SCHED_TAG with the first granule that does not in a locked phase and waits in an elastic one.
VGATHK, 06_vector.md R179, 05_registers.md R147: each active lane gets its window's element, fitted to the lane; an index beyond the
size reads 0 and sets PWOOB; an unbound window raises UNBOUND_WINDOW.
Where the spec leaves the point open, the model's choice stands (log entries 27, 28). -/
def Obligations.VectorMemoryResults : Prop :=
  ∀ (s : State) (f : VMem) (g : VStr) (h : VGat) (u : VUn) (w : BitVec 3) (im : BitVec 20) (r : Run) (base size e : Nat),
    let c := s.ctx.core
    let next := fun (t : State) => Host.Outcome.next (φ := Fault) (ρ := Refusal) t
    let on := fun (t : VTy) (q : QReg) (i : Nat) => decide (i < t.lanes) && (s.me.qr q).getLsbD i
    let load := fun (d : Nat) (t : VTy) (vd : VReg) (q : QReg) (ad : Nat → Nat) =>
      next (s.defer d (.pool c (s.me.vaddr vd) ((List.range t.lanes).flatMap fun i =>
        if on t q i then (s.poolRead c (ad i) t.bytes).map some else List.replicate t.bytes none) true))
    let store := fun (d : Nat) (t : VTy) (vd : VReg) (q : QReg) (ad : Nat → Nat) =>
      let last := fun (i : Nat) => on t q i && (List.range t.lanes).all fun j => !(decide (i < j) && on t q j && ad j == ad i)
      let put := fun (i : Nat) => s.writeOf d (.pool c (ad i) ((leBytes t.bytes ((s.lanesV t vd).getD i 0)).map some) false)
      next { s with pend := s.pend ++ ((List.range t.lanes).filter last).map put }
    let fits := fun (t : VTy) (q : QReg) (ad : Nat → Nat) => ∀ i, on t q i = true → ad i % t.bytes = 0 ∧
      ad i + t.bytes ≤ s.me.carve.scrlim
    let tagged := fun (t : VTy) (q : QReg) (ad : Nat → Nat) (x : XReg) (o ld : Out) =>
      let v := BitVec.ofNat 16 (s.xr x).toNat
      let good := fun (i : Nat) => s.tagOk c (ad i) v
      ((∀ i, on t q i = true → good i = true) → o = ld) ∧
      (∀ i, on t q i = true → good i = false → (∀ j < i, on t q j = true → good j = true) →
        (s.me.elastic = false → o = next (s.raise .schedTag (BitVec.ofNat 64 (ad i / 1024 * 1024))
          (BitVec.ofNat 64 ((s.tagAt c (ad i)).toNat * 65536 + v.toNat)))) ∧
        (s.me.elastic = true → ∃ t y, o = next t ∧ t.me.waits = s.me.waits ++ [y] ∧ y.what = .tags ∧ t.me.x = s.me.x ∧
          t.pool = s.pool ∧ t.pend = s.pend))
    let b := s.xr f.xb + f.imm.signExtend 64
    let block := fun (i : Nat) => b.toNat + i * f.t.bytes
    let strided := fun (i : Nat) => (s.xr g.xb + g.imm.signExtend 64 + BitVec.ofInt 64 (i * (s.xr g.xs).toInt)).toNat
    let indexed := fun (i : Nat) => (s.xr h.xb + h.imm.signExtend 64 + BitVec.ofNat 64 ((s.lanesV h.t h.va).getD i 0 * h.t.bytes)).toNat
    let elem := fun (i : Nat) => s.window w.toNat (BitVec.ofNat 64 ((s.lanesV u.t u.va).getD i 0) + im.signExtend 64).toNat
    (b.toNat < 0x180000 →
      (fits f.t f.q block → exec (.vst f) s = store 5 f.t f.vd f.q block ∧ (s.me.early = false →
        (f.tc = none → exec (.vld f) s = load 5 f.t f.vd f.q block) ∧
        (∀ x, f.tc = some x → tagged f.t f.q block x (exec (.vld f) s) (load 5 f.t f.vd f.q block)))) ∧
      (¬ fits f.t f.q block → exec (.vld f) s = next (s.raise .poolBounds b 0) ∧ exec (.vst f) s = next (s.raise .poolBounds b 0))) ∧
    (fits g.t g.q strided → exec (.vsts g) s = store 5 g.t g.vd g.q strided ∧
      (s.me.early = false → exec (.vlds g) s = load 5 g.t g.vd g.q strided)) ∧
    (¬ fits g.t g.q strided → ∃ a, exec (.vlds g) s = next (s.raise .poolBounds a 0) ∧ exec (.vsts g) s = next (s.raise .poolBounds a 0)) ∧
    (fits h.t h.q indexed → exec (.vscat h) s = store 11 h.t h.vd h.q indexed ∧ (s.me.early = false →
      (h.tc = none → exec (.vgath h) s = load 11 h.t h.vd h.q indexed) ∧
      (∀ x, h.tc = some x → tagged h.t h.q indexed x (exec (.vgath h) s) (load 11 h.t h.vd h.q indexed)))) ∧
    (¬ fits h.t h.q indexed → ∃ a, exec (.vgath h) s = next (s.raise .poolBounds a 0) ∧
      exec (.vscat h) s = next (s.raise .poolBounds a 0)) ∧
    (s.window w.toNat 0 = none → exec (.vgathk u w im) s = next (s.raise .unboundWindow 0 0)) ∧
    (s.runOf c = some r → r.last.windows.getD w.toNat none = some (base, size, e) →
      (∀ i, s.window w.toNat i = if i < size then some (ofLe (s.poolRead c (base + i * e) e), e, false) else some (0, e, true)) ∧
      exec (.vgathk u w im) s = next ((if (List.range u.t.lanes).any fun i => on u.t u.q i && (elem i).any (·.2.2) then
          s.defer 0 (.stat c 1) else s).deferLanes 11 u.t u.vd ((List.range u.t.lanes).map fun i =>
        if on u.t u.q i then (elem i).map fun v => wrapInt u.t.bits (intOf u.t.isSint (8 * v.2.1) v.1) else none)))

/-- A vault access of LD, ST, VLD or VST is filed at c0 for its sample or write cycle, c0 + 4 + H or c0 + 3 + H (c0 + 5 + H for
VST), with the core and the offset that its address names, H being the hops to that core (05_registers.md R144, 06_vector.md
R175), when the core is of the run, the access in its pool and aligned, and the fabric powered.
VAULT_SAMPLE, 05_registers.md R144, R146, 06_vector.md R175, R178, 12_order.md R290: a load's bytes are those of the vault now, for xd
or the active lanes of vd 3 + H cycles later; a store's bytes are written at the end of the cycle; AMOL writes the new value then and
the old one to xd; beyond the SCRLIM in force there POOL_BOUNDS is raised and nothing moves; a checked load finds its tags, or raises
SCHED_TAG in a locked phase and looks again in the next cycle of an elastic one.
Where the spec leaves the point open, the model's choice stands (log entries 1, 27). -/
def Obligations.VaultAccesses : Prop :=
  (∀ (s : State) (d a b : XReg) (sign : Bool) (z : BitVec 2) (imm : BitVec 32) (f : VMem), s.me.rails.getLsbD 3 = true →
     let files := fun (r : Out) (i : Instr) (k : Nat) (p : Op → Prop) => ∃ t, r = .next t ∧ (t.op s.ctx.core s.nextOp).instr = i ∧
       (t.op s.ctx.core s.nextOp).src = s.src ∧ p (t.op s.ctx.core s.nextOp) ∧ t.nextOp = s.nextOp + 1 ∧ t.pool = s.pool ∧
       t.pend = s.pend ∧ t.me.x = s.me.x ∧
       ∃ e ∈ t.me.sched, e.due = s.me.cyc + k ∧ e.work.instr = .vaultSample ∧ e.work.ctx.op = s.nextOp ∧ e.work.ctx.core = s.ctx.core
     (let e := s.xr a + imm.signExtend 64
      let c := e.toNat / 2 ^ 21 % 512
      let o := e.toNat % 2 ^ 21
      let n := 2 ^ z.toNat
      e.toNat / 2 ^ 30 = 1 → e.toNat % n = 0 → o + n ≤ 0x180000 → s.sameRun s.ctx.core c = true →
        files (exec (.ld d a sign z imm) s) (.ld d a sign z imm) (4 + hops s.ctx.core c)
          (fun p => p.cs = c ∧ p.as = o ∧ p.hs = hops s.ctx.core c ∧ p.x0 = e) ∧
        files (exec (.st a b z imm) s) (.st a b z imm) (3 + hops s.ctx.core c)
          (fun p => p.cd = c ∧ p.ad = o ∧ p.buf = leBytes n (s.xr b).toNat ∧ p.x0 = e)) ∧
     (let e := s.xr f.xb + f.imm.signExtend 64
      let c := e.toNat / 2 ^ 21 % 512
      let o := e.toNat % 2 ^ 21
      let w := f.t.bytes
      let ls := (List.range f.t.lanes).map fun i => if (s.me.qr f.q).getLsbD i then some (o + i * w) else none
      e.toNat / 2 ^ 30 = 1 → e.toNat % w = 0 → o < 0x180000 → s.sameRun s.ctx.core c = true → (∀ a, some a ∈ ls → a + w ≤ 0x180000) →
        files (exec (.vst f) s) (.vst f) (5 + hops s.ctx.core c)
          (fun p => p.cd = c ∧ p.lanes = ls ∧ p.hd = w ∧ p.buf = s.poolRead s.ctx.core (s.me.vaddr f.vd) 256 ∧ p.x0 = e) ∧
        files (exec (.vld f) s) (.vld f) (4 + hops s.ctx.core c)
          (fun p => p.cs = c ∧ p.lanes = ls ∧ p.hd = w ∧ p.ad = s.me.vaddr f.vd ∧ p.hs = hops s.ctx.core c ∧ p.x0 = e) ∧
        (f.tc.isSome = true → s.me.elastic = true → ∃ t, exec (.vld f) s = .next t ∧ ∃ y ∈ t.me.waits, y.what = .vault))) ∧
  (∀ (s : State) (d a b : XReg) (sign : Bool) (z : BitVec 2) (imm : BitVec 32) (f : VMem) (op : AmolOp) (w8 : Bool) (i24 : BitVec 24),
     let o := s.myOp
     let n := 2 ^ z.toNat
     let m := if w8 then 8 else 4
     let u := s.setOp s.ctx.core s.ctx.op none
     let put := fun (k : Nat) (v : Upd) => PWrite.mk (s.clkOf o.src.core) ((s.core o.src.core).cyc + k) v o.src
     let calm := (s.core o.cs).rails.getLsbD 2 = true ∧ (s.core o.cs).early = false ∧ (s.core o.src.core).early = false
     let past := fun (c k : Nat) => ∃ x, some x ∈ o.lanes ∧ (s.core c).carve.scrlim < x + k
     (o.instr = .ld d a sign z imm →
       (o.as + n ≤ (s.core o.cs).carve.scrlim → calm →
         exec .vaultSample s = .next (u.deferSrc o.src (3 + o.hs) (.x s.ctx.core d (extend sign n (ofLe (s.poolRead o.cs o.as n)))))) ∧
       ((s.core o.cs).carve.scrlim < o.as + n → exec .vaultSample s = .next (u.raiseOn s.ctx.core .poolBounds o.src o.x0 0))) ∧
     (o.instr = .st a b z imm →
       (o.ad + o.buf.length ≤ (s.core o.cd).carve.scrlim →
         exec .vaultSample s = .next (u.deferSrc o.src 0 (.pool o.cd o.ad (o.buf.map some) false))) ∧
       ((s.core o.cd).carve.scrlim < o.ad + o.buf.length → exec .vaultSample s = .next (u.raiseOn s.ctx.core .poolBounds o.src o.x0 0))) ∧
     (o.instr = .vld f → o.x0 ≠ 0 →
       (¬ past o.cs o.hd → calm →
         ((f.tc = none ∨ ∀ g ∈ o.regs, s.tagOk o.cs g o.tag = true) → ∃ t, exec .vaultSample s = .next t ∧ t.pool = s.pool ∧ t.me.x = s.me.x ∧
           t.pend = s.pend ++ [put (3 + o.hs) (.pool s.ctx.core o.ad (o.lanes.flatMap fun l => match l with
             | some x => (s.poolRead o.cs x o.hd).map some
             | none => List.replicate o.hd none) true)]) ∧
         (∀ g, f.tc.isSome = true → o.regs.find? (fun g => !s.tagOk o.cs g o.tag) = some g →
           (s.me.elastic = false → ∃ w3, exec .vaultSample s = .next (u.raiseOn s.ctx.core .schedTag o.src (BitVec.ofNat 64 g) w3)) ∧
           (s.me.elastic = true → ∃ t, exec .vaultSample s = .next t ∧ t.pool = s.pool ∧ t.pend = s.pend ∧
             ∃ q ∈ t.me.sched, q.due = s.me.cyc + 1 ∧ q.work.instr = .vaultSample ∧ q.work.ctx.op = s.ctx.op))) ∧
       (past o.cs o.hd → exec .vaultSample s = .next (u.raiseOn s.ctx.core .poolBounds o.src o.x0 0))) ∧
     (o.instr = .vst f → o.lanes.length = f.t.lanes → o.buf.length = 256 → o.hd = f.t.bytes → (o.lanes.filterMap id).Nodup →
       (¬ past o.cd o.hd → ∃ t, exec .vaultSample s = .next t ∧ t.pool = s.pool ∧ t.me.x = s.me.x ∧
         t.pend = s.pend ++ (List.range f.t.lanes).filterMap fun i => (o.lanes.getD i none).map fun x =>
           put 0 (.pool o.cd x (((o.buf.drop (i * o.hd)).take o.hd).map some) false)) ∧
       (past o.cd o.hd → exec .vaultSample s = .next (u.raiseOn s.ctx.core .poolBounds o.src o.x0 0))) ∧
     (o.instr = .amol op d a b w8 i24 → o.as + m ≤ (s.core o.cs).carve.scrlim → calm → s.me.elastic = false →
       let v := ofLe (s.poolRead o.cs o.as m)
       ∃ t, exec .vaultSample s = .next t ∧ t.pool = s.pool ∧ t.me.x = s.me.x ∧ t.pend = s.pend ++
         [put 0 (.amol o.cs o.as ((leBytes m (amolNew op (8 * m) v (o.x1.toNat % 2 ^ (8 * m)) (o.mask.toNat % 2 ^ (8 * m)))).map some) s.ctx.op),
          put (3 + o.hs) (.x s.ctx.core d (BitVec.ofNat 64 v))]))

/-! ## The array, the mover and the scale slot -/

/-- MMA and MMAT issue when the array is free and the shapes agree, 08_matrix.md R193, R197: the array is taken for K cycles
(4K in BF16) and column 0 is sampled in c0. A busy array raises ARRAY_COLLISION, shapes that disagree ILLEGAL_ENC; a nullified one
takes the array and does nothing else.
ARRAY_SAMPLE, 08_matrix.md R197, R204: each step samples one column of ta with one row (MMA) or column (MMAT) of tb until K are taken,
the scales at each block's first step when the entry uses them, and the accumulator at the second block's.
MMA_RESULT_WRITE, 03_numbers.md R89, R90: element (i, j) is the chain over the blocks, of their exact sums rounded, scaled and added
in order; it is written with the others at the end of that cycle, with the chains' flags; elements outside M x N keep their value.
Where the spec leaves the point open, the model's choice stands (log entry 28). That the work of a tick is done in eleven parts, of
which the premise that `sub` is at most 10 speaks, is the model's own order (log entry 1). -/
def Obligations.MatrixMultiply : Prop :=
  (∀ (s : State) (aD : BitVec 3) (ta tb : BitVec 4) (bf z mmat : Bool),
     let i : Instr := if mmat then .mmat aD ta tb bf z else .mma aD ta tb bf z
     let a := shapeOf (s.me.shape ta.toNat)
     let b := shapeOf (s.me.shape tb.toNat)
     let c := if bf then 4 else 1
     let e := if bf then 2 else 1
     let fit := a.2.2 = e ∧ b.2.2 = e ∧ (if mmat then b.2.1 else b.1) = a.2.1 ∧ a.2.1 % (if bf then 16 else 32) = 0
     (s.me.arrayBusy = true → exec i s = .next (s.raise .arrayCollision 0 0)) ∧
     (s.me.arrayBusy = false →
       (s.ctx.exec = false → ∃ t, exec i s = .next t ∧ t.me.arrayFree = s.me.cyc + c * a.2.1 ∧ t.me.ops = s.me.ops ∧
         t.me.sched = s.me.sched ∧ t.pool = s.pool ∧ t.pend = s.pend) ∧
       (s.ctx.exec = true → ¬ fit → exec i s = .next (s.raise .illegalEnc 0 0)) ∧
       (s.ctx.exec = true → fit → s.sub ≤ 10 →
         ∃ t, exec i s = .next t ∧ t.me.arrayFree = s.me.cyc + c * a.2.1 ∧ t.pool = s.pool ∧ t.pend = s.pend ∧
           (t.op s.ctx.core s.nextOp).instr = i ∧ (t.op s.ctx.core s.nextOp).as = s.me.taddr ta ∧
           (t.op s.ctx.core s.nextOp).ad = s.me.taddr tb ∧ (t.op s.ctx.core s.nextOp).regs = [s.me.aaddr aD] ∧
           (t.op s.ctx.core s.nextOp).shA = s.me.shape ta.toNat ∧ (t.op s.ctx.core s.nextOp).shB = s.me.shape tb.toNat ∧
           (t.op s.ctx.core s.nextOp).fmt = s.me.fmtNow ∧
           ∃ e ∈ t.me.sched, e.due = s.me.cyc ∧ e.work.instr = .arraySample ∧ e.work.ctx.op = s.nextOp ∧ e.work.ctx.idx = 0))) ∧
  (∀ (s : State) (aD : BitVec 3) (ta tb : BitVec 4) (bf z mmat : Bool),
     let o := s.myOp
     let c := s.ctx.core
     let k := s.ctx.idx
     let m := (shapeOf o.shA).1
     let kk := (shapeOf o.shA).2.1
     let n := if mmat then (shapeOf o.shB).1 else (shapeOf o.shB).2.1
     let e := if bf then 2 else 1
     let kb := if bf then 16 else 32
     o.instr = (if mmat then .mmat aD ta tb bf z else .mma aD ta tb bf z) →
     let start := fun (t : State) =>
       (k = kb → z = false → ∀ i < m, ∀ j < n, (t.op c s.ctx.op).accs.getD (i * n + j) 0 =
         BitVec.ofNat 32 (ofLe (s.poolRead c (o.regs.headD 0 + 512 * i + 4 * j) 4))) ∧
       (k ≠ kb ∨ z = true → (t.op c s.ctx.op).accs = o.accs)
     (s.me.early = false → s.sub ≤ 10 →
       (k < kk → ∃ t, exec .arraySample s = .next t ∧ t.pool = s.pool ∧ t.pend = s.pend ∧
         (t.op c s.ctx.op).cols = (((List.range m).flatMap fun i => s.poolRead c (o.as + 128 * i + k * e) e),
           if mmat then (List.range n).flatMap fun j => s.poolRead c (o.ad + 128 * j + k * e) e
           else s.poolRead c (o.ad + 128 * k) (n * e)) :: o.cols ∧
         (t.op c s.ctx.op).latches = o.latches ++ (if k % kb = 0 ∧ bits o.fmt 19 2 ≠ 0 then
           [(s.me.latchA, s.me.latchB, (List.range 16).map s.me.scaleOf)] else []) ∧
         start t ∧ ∃ q ∈ t.me.sched, q.due = s.me.cyc + (if bf then 4 else 1) ∧ q.work.instr = .arraySample ∧ q.work.ctx.idx = k + 1) ∧
       (kk ≤ k → ∃ t, exec .arraySample s = .next t ∧ t.pool = s.pool ∧ t.pend = s.pend ∧ start t ∧
         ∃ q ∈ t.me.sched, q.due = s.me.cyc + 3 ∧ q.work.instr = .mmaResultWrite)) ∧
     (let num := fun (code : BitVec 5) (bs : List Byte) (i : Nat) =>
        if bf then bf16.dec (ofLe ((bs.drop (2 * i)).take 2)) else b8dec code (bs.getD i 0).toNat
      let ea := fun (i x : Nat) => num (bits o.fmt 0 5) (o.cols.reverse.getD x ([], [])).1 i
      let eb := fun (j x : Nat) => num (bits o.fmt 5 5) (o.cols.reverse.getD x ([], [])).2 j
      let sat := o.fmt.getLsbD 18
      let s1 := fun (i j b : Nat) => (rnd32 sat (blockSum ((List.range kb).map fun x => ea i (b * kb + x))
        ((List.range kb).map fun x => eb j (b * kb + x))).1).2.1
      let s2 := fun (i j b : Nat) => match o.latches[b]? with
        | none => s1 i j b
        | some l => (rnd32 sat (((s1 i j b).mul (scaleAt l.1 l.2.2 i)).1.mul (scaleAt l.2.1 l.2.2 j)).1).2.1
      o.cols.length = kk → (∀ q ∈ o.cols, q.1.length = m * e ∧ q.2.length = n * e) → kk % kb = 0 →
      ∃ t bs fl, exec .mmaResultWrite s = .next t ∧ t.pool = s.pool ∧
        t.pend = s.pend ++ s.opWrite o.src 0 (.acc c (o.regs.headD 0) 0 bs) :: fl ∧ bs.length = 512 * m ∧
        (∀ q ∈ fl, ∃ g, q = s.opWrite o.src 0 (.flags c g)) ∧
        (∀ x < 512 * m, n ≤ x % 512 / 4 → bs.getD x none = none) ∧
        ∀ i < m, ∀ j < n, ∃ acc : Nat → Nat, acc 0 = (if z then 0 else (o.accs.getD (i * n + j) 0).toNat) ∧
          (∀ b < kk / kb, acc (b + 1) = (rndAcc (o.fmt.getLsbD 15) sat ((fp32.dec (acc b)).add .rne (s2 i j b)).1).1) ∧
          ∀ x < 4, bs.getD (512 * i + 4 * j + x) none = some (BitVec.ofNat 8 (acc (kk / kb) / 256 ^ x))))

/-- The tile mover's forms issue when it is free, 08_matrix.md R193, R199 to R201: the mover is taken for 1, 32 or 128 cycles
and group 0 runs in c0 between the pool address and the tile or accumulator; a bad address raises POOL_BOUNDS, shapes that disagree
ILLEGAL_ENC, a busy mover ARRAY_COLLISION; a nullified form takes the mover and does nothing else; MLD.tc finds its tags, or raises
SCHED_TAG in a locked phase and waits in an elastic one.
TILE_MOVER_GROUP, 08_matrix.md R199, R201: group g samples its 512 bytes now and writes them at the end of the next cycle, MTRN rows
4g to 4g + 3 of the transpose then, MCVT row g, scaled and converted, a cycle later; the next group follows a cycle later, and after
the last the operation is forgotten; one that has waited for its tags takes the mover now.
Where the spec leaves the point open, the model's choice stands (log entries 1, 27). -/
def Obligations.TileMovers : Prop :=
  (∀ (s : State) (d t4 x xt : BitVec 4) (a : BitVec 3) (imm : BitVec 32) (bf h : Bool) (sc : BitVec 4), s.sub ≤ 10 →
     let e := s.xr (0#1 ++ x) + imm.signExtend 64
     let c := s.ctx.core
     let starts := fun (o : Out) (n : Nat) (i : Instr) (p : Op → Prop) => ∃ t, o = .next t ∧ t.me.moverFree = s.me.cyc + n ∧
       t.pool = s.pool ∧ t.pend = s.pend ∧ (t.op c s.nextOp).instr = i ∧ (t.op c s.nextOp).st = some s.me.cyc ∧ p (t.op c s.nextOp) ∧
       ∃ q ∈ t.me.sched, q.due = s.me.cyc ∧ q.work.instr = .tileMoverGroup ∧ q.work.ctx.op = s.nextOp ∧ q.work.ctx.idx = 0
     let all := fun (p : Nat → Instr → Prop) => p 32 (.mld d none x imm) ∧ p 32 (.mld d (some xt) x imm) ∧ p 32 (.mst t4 x imm) ∧
       p 32 (.mtrn d t4) ∧ p 128 (.mlda a x imm) ∧ p 128 (.macs x a imm) ∧ p 128 (.mcvt d a bf h sc) ∧ p 1 (.mzero true d) ∧ p 1 (.mzero false d)
     let sd := shapeOf (s.me.shape d.toNat)
     let st := shapeOf (s.me.shape t4.toNat)
     (s.me.moverBusy = true → all fun _ i => exec i s = .next (s.raise .arrayCollision 0 0)) ∧
     (s.me.moverBusy = false → s.ctx.exec = false → all fun n i => ∃ t, exec i s = .next t ∧ t.me.moverFree = s.me.cyc + n ∧
       t.me.ops = s.me.ops ∧ t.me.sched = s.me.sched ∧ t.pool = s.pool ∧ t.pend = s.pend) ∧
     (s.me.moverBusy = false → s.ctx.exec = true →
       (e.toNat % 128 = 0 → e.toNat + 16384 ≤ s.me.carve.scrlim →
         starts (exec (.mld d none x imm) s) 32 (.mld d none x imm) (fun o => o.as = e.toNat ∧ o.ad = s.me.taddr d) ∧
         starts (exec (.mst t4 x imm) s) 32 (.mst t4 x imm) (fun o => o.as = s.me.taddr t4 ∧ o.ad = e.toNat) ∧
         (let v := BitVec.ofNat 16 (s.xr (0#1 ++ xt)).toNat
          let gs := (List.range 17).filterMap fun i =>
            if e.toNat / 1024 * 1024 + 1024 * i < e.toNat + 16384 then some (e.toNat / 1024 * 1024 + 1024 * i) else none
          ((∀ g ∈ gs, s.tagOk c g v = true) →
            starts (exec (.mld d (some xt) x imm) s) 32 (.mld d (some xt) x imm) fun o => o.as = e.toNat ∧ o.ad = s.me.taddr d) ∧
          (∀ g, gs.find? (fun g => !s.tagOk c g v) = some g →
            (s.me.elastic = false → ∃ w3, exec (.mld d (some xt) x imm) s = .next (s.raise .schedTag (BitVec.ofNat 64 g) w3)) ∧
            (s.me.elastic = true → ∃ t y, exec (.mld d (some xt) x imm) s = .next t ∧ t.me.waits = s.me.waits ++ [y] ∧ y.what = .tags ∧
              y.instr = some .tileMoverGroup ∧ t.me.moverFree = s.me.moverFree ∧ t.pool = s.pool ∧ t.pend = s.pend)))) ∧
       (e.toNat % 128 = 0 → e.toNat + 65536 ≤ s.me.carve.scrlim →
         starts (exec (.mlda a x imm) s) 128 (.mlda a x imm) (fun o => o.as = e.toNat ∧ o.ad = s.me.aaddr a) ∧
         starts (exec (.macs x a imm) s) 128 (.macs x a imm) (fun o => o.as = s.me.aaddr a ∧ o.ad = e.toNat)) ∧
       (e.toNat % 128 ≠ 0 ∨ s.me.carve.scrlim < e.toNat + 16384 → exec (.mst t4 x imm) s = .next (s.raise .poolBounds e 0) ∧
         exec (.mld d none x imm) s = .next (s.raise .poolBounds e 0) ∧ exec (.mld d (some xt) x imm) s = .next (s.raise .poolBounds e 0)) ∧
       (e.toNat % 128 ≠ 0 ∨ s.me.carve.scrlim < e.toNat + 65536 → exec (.mlda a x imm) s = .next (s.raise .poolBounds e 0) ∧
         exec (.macs x a imm) s = .next (s.raise .poolBounds e 0)) ∧
       (sd.1 = st.2.1 ∧ sd.2.1 = st.1 ∧ sd.2.2 = st.2.2 → s.me.early = false →
         starts (exec (.mtrn d t4) s) 32 (.mtrn d t4) fun o => o.ad = s.me.taddr d ∧ o.shA = s.me.shape t4.toNat ∧
           o.buf = s.poolRead c (s.me.taddr t4) 16384) ∧
       (sd.1 ≠ st.2.1 ∨ sd.2.1 ≠ st.1 ∨ sd.2.2 ≠ st.2.2 → exec (.mtrn d t4) s = .next (s.raise .illegalEnc 0 0)) ∧
       (sd.2.2 = (if bf then 2 else 1) → starts (exec (.mcvt d a bf h sc) s) 128 (.mcvt d a bf h sc) fun o => o.as = s.me.aaddr a ∧
         o.ad = s.me.taddr d ∧ o.shD = s.me.shape d.toNat ∧ o.fmt = s.me.fmtNow ∧ o.mask = (s.me.scaleOf sc.toNat).setWidth 256) ∧
       (sd.2.2 ≠ (if bf then 2 else 1) → exec (.mcvt d a bf h sc) s = .next (s.raise .illegalEnc 0 0)) ∧
       (∃ t, exec (.mzero true d) s = .next t ∧ t.me.moverFree = s.me.cyc + 1 ∧ t.pool = s.pool ∧
         t.pend = s.pend ++ (List.range 32).map fun g =>
           s.writeOf 1 (.pool c (s.me.taddr d + 512 * g) (List.replicate 512 (some 0)) true)) ∧
       (∃ t, exec (.mzero false d) s = .next t ∧ t.me.moverFree = s.me.cyc + 1 ∧ t.pool = s.pool ∧
         t.pend = s.pend ++ [s.writeOf 1 (.acc c (s.me.aaddr (BitVec.ofNat 3 d.toNat)) 0 (List.replicate 65536 (some 0)))]))) ∧
  (∀ (s : State) (d x t4 : BitVec 4) (tc : Option (BitVec 4)) (a : BitVec 3) (imm : BitVec 32) (bf h : Bool) (sc : BitVec 4),
     s.me.early = false → s.sub ≤ 10 →
     let o := s.myOp
     let c := s.ctx.core
     let g := s.ctx.idx
     let data := (s.poolRead c (o.as + 512 * g) 512).map some
     let goes := fun (last : Nat) (ws : List PWrite) => ∃ t, exec .tileMoverGroup s = .next t ∧ t.pool = s.pool ∧ t.pend = s.pend ++ ws ∧
       (g + 1 < last → ∃ q ∈ t.me.sched, q.due = s.me.cyc + 1 ∧ q.work.instr = .tileMoverGroup ∧ q.work.ctx.op = s.ctx.op ∧
         q.work.ctx.idx = g + 1) ∧
       (last ≤ g + 1 → Table.get none t.me.ops s.ctx.op = none ∧ t.me.sched = s.me.sched)
     (o.st.isSome = true →
       (o.instr = .mld d tc x imm → goes 32 [s.opWrite o.src 1 (.pool c (o.ad + 512 * g) data true)]) ∧
       (o.instr = .mst d x imm → goes 32 [s.opWrite o.src 1 (.pool c (o.ad + 512 * g) data false)]) ∧
       (o.instr = .macs x a imm → goes 128 [s.opWrite o.src 1 (.pool c (o.ad + 512 * g) data false)]) ∧
       (o.instr = .mlda a x imm → goes 128 [s.opWrite o.src 1 (.acc c o.ad (512 * g) data)]) ∧
       (o.instr = .mtrn d t4 → o.buf.length = 16384 →
         let r := (shapeOf o.shA).1
         let n := (shapeOf o.shA).2.1
         let e := (shapeOf o.shA).2.2
         (n ≤ 4 * g → goes 32 []) ∧
         (4 * g < n → r * e ≤ 128 → n * e ≤ 128 → ∃ bs : List (Option Byte), goes 32 [s.opWrite o.src 1 (.pool c (o.ad + 512 * g) bs true)] ∧
           bs.length = 512 ∧
           (∀ y < 4, ∀ i < r, ∀ b < e, 4 * g + y < n → bs.getD (128 * y + i * e + b) none = o.buf[128 * i + (4 * g + y) * e + b]?) ∧
           ∀ y < 4, ∀ k < 128, r * e ≤ k ∨ n ≤ 4 * g + y → bs.getD (128 * y + k) none = none)) ∧
       (o.instr = .mcvt d a bf h sc →
         let m := (shapeOf o.shD).1
         let n := (shapeOf o.shD).2.1
         let e := if bf then 2 else 1
         let srs := if g = 0 ∧ bf = false ∧ bits o.fmt 16 2 = 2 then srsIter (s.drawsNow c) s.me.srs else o.srs
         let adv := if g = 0 ∧ bf = false ∧ bits o.fmt 16 2 = 2 then [s.writeOf 0 (.srs c 1)] else []
         let sat := o.fmt.getLsbD 18
         let val := fun (j : Nat) =>
           let col := if bf ∧ h = true then j + 64 else j
           let v := (rnd32 sat ((fp32.dec (ofLe (s.poolRead c (o.as + 512 * g + 4 * col) 4))).mul
             (bf16.dec (bits (o.mask.setWidth 32) 0 16).toNat)).1).2.1
           if bf then (bf16.enc .rne sat v).1
           else (b8enc (bits o.fmt 10 5) (if bits o.fmt 16 2 = 0 then .rne else if bits o.fmt 16 2 = 1 then .rtz
             else .sto (rndBits srs (g * 128 + col))) sat v).1
         (m ≤ g → goes 128 adv) ∧
         (g < m → n * e ≤ 128 → ∃ bs fl, goes 128 (adv ++ s.opWrite o.src 2 (.pool c (o.ad + 512 * (g / 4)) bs true) :: fl) ∧
           bs.length = 512 ∧ (∀ w ∈ fl, ∃ y, w = s.opWrite o.src 2 (.flags c y)) ∧
           (∀ j < n, ∀ b < e, bs.getD (128 * (g % 4) + j * e + b) none = some (BitVec.ofNat 8 (val j / 256 ^ b))) ∧
           ∀ k < 512, k < 128 * (g % 4) ∨ 128 * (g % 4) + n * e ≤ k → bs.getD k none = none))) ∧
     (o.st = none → o.instr = .mld d tc x imm →
       (s.me.moverBusy = true → exec .tileMoverGroup s =
         .next ((s.setOp c s.ctx.op none).raiseOn c .arrayCollision o.src 0 0)) ∧
       (s.me.moverBusy = false → ∃ t src, exec .tileMoverGroup s = .next t ∧ t.me.moverFree = s.me.cyc + 32 ∧ t.pool = s.pool ∧
         t.pend = s.pend ++ [s.opWrite src 1 (.pool c o.ad ((s.poolRead c o.as 512).map some) true)] ∧ src.core = o.src.core)))

/-- The scale slot, 08_matrix.md R202 to R204: the latches at c0 + 2, the tables and FTSEL at c0.
FOLLOW_ON_ISSUE, 08_matrix.md R205: the follow-on of a finished copy issues with the guard as it stands, after its checks; one
whose guard does not hold issues nullified (02_bundles.md R46); the copy leaves nothing behind. -/
def Obligations.ScaleSlotsAndFollowOns : Prop :=
  (∀ (s : State) (va : VReg) (h : BitVec 2) (i b : BitVec 4) (v : BitVec 16) (f : BitVec 32) (l : BitVec 3) (fol : Bool),
     let q : BitVec 512 := BitVec.ofNat 512 (ofLe (((s.poolRead s.ctx.core (s.me.vaddr va) 256).drop (64 * h.toNat)).take 64))
     exec (.zscla va h) s = .next (s.defer 2 (.latchA s.ctx.core h q)) ∧
     exec (.zsclb va h) s = .next (s.defer 2 (.latchB s.ctx.core h q)) ∧
     exec (.ztab i v) s = .next (s.defer 0 (.scale s.ctx.core i v)) ∧
     exec (.zfmt i f) s = .next (s.defer 0 (.fmt s.ctx.core i f)) ∧
     exec (.zfsel fol b l) s = .next (s.defer 0 (.ftsel s.ctx.core (BitVec.ofNat 9 (fol.toNat * 256 + b.toNat * 16 + l.toNat))))) ∧
  (∀ (s : State),
     (s.myOp.follow = none → exec .followOnIssue s = .next (s.setOp s.ctx.core s.ctx.op none)) ∧
     (∀ y, s.myOp.follow = some y → ∃ t w, exec .followOnIssue s = .next t ∧ w.instr = y.instr ∧ w.ctx.core = s.ctx.core ∧
       w.ctx.head = s.myOp.src.head ∧ Table.get none t.me.ops s.ctx.op = none ∧ t.pool = s.pool ∧ t.pend = s.pend ∧
       (s.me.pr y.gp ≠ y.gs → w.ctx.exec = true ∧ ∃ x, t.todo = x :: w :: s.todo ∧ x.instr = .bundleIssue ∧ x.ctx.idx = 1) ∧
       (s.me.pr y.gp = y.gs → w.ctx.exec = false ∧ t.todo = w :: s.todo)))

/-! ## Copies, the decanter, code images, spills -/

/-- The copy forms are queued on their engine when it has room and every row lies in the scratch of a core of the run,
09_pool.md R215, R219, R226, R227: source and destination as the syllable's registers stand at c0.
A full engine: SENDQ_FULL in a locked phase, a wait in an elastic one (09_pool.md R215).
COPY_BEAT, 09_pool.md R220, R212: an operation starts and holds its engine for its beats; beat t of a started copy samples its
bytes now, EARLY clear and both rails up, and writes them 2 + Hd cycles later, with the tags of the granules that it writes in
and no later beat does; the next beat comes a cycle later; the step after the last beat completes the operation.
Where the spec leaves the point open, the model's choice stands (log entries 25, 29). That the work of a tick is done in eleven
parts, of which the premise that `sub` is at most 10 speaks, is the model's own order (log entry 1). -/
def Obligations.CopyEngines : Prop :=
  (∀ (s : State) (a : CplArgs) (v : CpvArgs) (xa : XReg) (sl : BitVec 2), s.me.queued s.myEngine < 8 →
     let queues := fun (o : Out) (i : Instr) (p : Op → Prop) => ∃ t, o = .next t ∧ (t.op s.ctx.core s.nextOp).instr = i ∧
       (t.op s.ctx.core s.nextOp).st = none ∧ (t.op s.ctx.core s.nextOp).eng = s.myEngine ∧
       p (t.op s.ctx.core s.nextOp) ∧ t.nextOp = s.nextOp + 1 ∧ t.pool = s.pool ∧ t.pend = s.pend ∧
       Table.get [] t.me.copyQ s.myEngine = Table.get [] s.me.copyQ s.myEngine ++ [s.nextOp]
     (∀ cs cd rs rd, a.dec = none → s.rowsAt (s.xr a.xb) 0 1 a.n.toNat = .ok (cs, rs) → s.rowsAt (s.xr a.xa) 0 1 a.n.toNat = .ok (cd, rd) →
       queues (exec (.cpl a) s) (.cpl a) fun o => o.cs = cs ∧ o.cd = cd ∧ o.regs = rs ∧ o.rowsD = rd ∧
         o.x0 = BitVec.ofNat 64 a.n.toNat ∧ o.tag = BitVec.ofNat 16 (s.xr a.xc).toNat) ∧
     (∀ d cs cd o1 d1, a.dec = some d → s.rowAt (s.xr a.xb) 1 = some (cs, o1) → s.rowAt (s.xr a.xa) a.n.toNat = some (cd, d1) →
       queues (exec (.cpl a) s) (.cpl a) fun o => o.cs = cs ∧ o.as = o1 ∧ o.cd = cd ∧ o.ad = d1 ∧ o.x1 = d.setWidth 64 ∧
         o.tag = BitVec.ofNat 16 (s.xr a.xc).toNat) ∧
     (∀ cs cd rs rd, s.rowsAt (s.xr v.xb) (s.ctx.lits.getD (2 * v.sp.toNat) 0).toInt (v.rows.toNat + 1) v.m.toNat = .ok (cs, rs) →
       s.rowsAt (s.xr v.xa) (s.ctx.lits.getD (2 * v.sp.toNat + 1) 0).toInt (v.rows.toNat + 1) v.m.toNat = .ok (cd, rd) →
       queues (exec (.cpv v) s) (.cpv v) fun o => o.cs = cs ∧ o.cd = cd ∧ o.regs = rs ∧ o.rowsD = rd ∧
         o.x0 = BitVec.ofNat 64 v.m.toNat ∧ o.tag = BitVec.ofNat 16 (s.xr v.xc).toNat) ∧
     ((s.xr xa).toNat % 4 = 0 → (s.xr xa).toNat + 16 ≤ s.me.carve.scrlim →
       queues (exec (.cpi xa) s) (.cpi xa) fun o => o.as = (s.xr xa).toNat) ∧
     ((s.xr xa).toNat + 288 ≤ s.me.carve.scrlim →
       queues (exec (.dtab xa sl) s) (.dtab xa sl) fun o => o.as = (s.xr xa).toNat ∧ o.x1 = sl.setWidth 64)) ∧
  (∀ (s : State) (a : CplArgs) (v : CpvArgs) (xa : XReg) (sl : BitVec 2), 8 ≤ s.me.queued s.myEngine →
     ∀ i ∈ [Instr.cpl a, .cpv v, .cpi xa, .dtab xa sl],
       (s.me.elastic = false → exec i s = .next (s.raise .sendqFull 0 0)) ∧
       (s.me.elastic = true → exec i s = .next (s.hold .room none (some i)))) ∧
  (∀ (s : State),
     let o := s.myOp
     let (a, d, l) := o.beat s.ctx.idx
     let hit := fun (e : Nat × Nat) (g : Nat) => e.1 / 1024 ≤ g ∧ g ≤ (e.1 + e.2 - 1) / 1024
     let then_ := fun (t : State) (due idx : Nat) => ∃ q ∈ t.me.sched, q.due = due ∧ q.work.instr = .copyBeat ∧ q.work.ctx.idx = idx ∧
       q.work.ctx.op = s.ctx.op
     (o.st = none → s.sub ≤ 10 → ∃ t, exec .copyBeat s = .next t ∧ (t.op s.ctx.core s.ctx.op).st = some s.me.cyc ∧
       Table.get 0 t.me.copyFree o.eng = s.me.cyc + o.beats ∧ then_ t (s.me.cyc + o.hs) 0 ∧ t.pool = s.pool ∧ t.pend = s.pend) ∧
     (o.st.isSome = true → s.ctx.idx < o.beats → o.outs.length = s.ctx.idx → (s.core o.cs).early = false →
       (s.core o.src.core).early = false → (s.core o.cs).rails.getLsbD 2 = true →
       ∃ t tags, exec .copyBeat s = .next t ∧ t.pool = s.pool ∧
         t.pend = s.pend ++ s.opWrite o.src (2 + o.hd) (.pool o.cd d ((s.poolRead o.cs a l).map some) false) :: tags ∧
         (∀ w ∈ tags, ∃ g, w = s.opWrite o.src (2 + o.hd) (.tag o.cd g o.tag)) ∧
         (∀ g, s.opWrite o.src (2 + o.hd) (.tag o.cd g o.tag) ∈ tags ↔
           hit (d, l) g ∧ ∀ i, s.ctx.idx < i → i < o.beats → ¬ hit (o.beat i).2 g) ∧
         then_ t (s.me.cyc + if s.ctx.idx + 1 = o.beats then 2 + o.hd else 1) (s.ctx.idx + 1)) ∧
     (o.st.isSome = true → o.beats ≤ s.ctx.idx → exec .copyBeat s = .next (s.finishOp s.ctx.core s.ctx.op o)))

/-- The decanter, 09_pool.md R224, R225: a decode copy starts with its slot's table when its source lies below SCRLIM; a container
that decodes writes its 4,096 bytes in 64 groups, a group a cycle from 4 + Hd cycles on, and each granule takes the operation's
tag with its last byte; one that fails writes zeros, its tags and the one it shares with a failed container before it are 0xFFFF,
and DECODE_OVERRUN follows with its last write.
DECODE_TABLE_LOAD and CODE_IMAGE_LOAD, 09_pool.md R226, R227: a DTAB samples a third of its table in each of three cycles, and the
last loads its slot, or makes it invalid; a code image's header is checked, then each group is loaded into instruction memory at
the end of the next cycle.
Where the spec leaves the point open, the model's choice stands (log entry 29). That the work of a tick is done in eleven parts,
of which the premise that `sub` is at most 10 speaks, is the model's own order (log entry 1). -/
def Obligations.TableAndImageLoads : Prop :=
  (∀ (s : State),
     let o := s.myOp
     let c := s.ctx.core
     let k := s.ctx.idx
     let num := o.mask.toNat / 4096
     let z := (o.tab.map (·.z)).getD 0
     let out := decant o.tab (s.poolRead o.cs (o.as + 64 * z * k) (64 * z))
     let base := o.ad + 4096 * k
     let step := fun (t : State) (due idx plane : Nat) => ∃ q ∈ t.me.sched, q.due = due ∧ q.work.instr = .decodeContainer ∧
       q.work.ctx.op = s.ctx.op ∧ q.work.ctx.idx = idx ∧ q.work.ctx.plane = plane
     (o.st = none → s.sub ≤ 10 →
       let tab := Table.get none s.me.dectab o.x1.toNat
       (tab = none ∨ o.as + num * (64 * (tab.map (·.z)).getD 0) ≤ (s.core o.cs).carve.scrlim) →
       ∃ t, exec .decodeContainer s = .next t ∧ (t.op c s.ctx.op).tab = tab ∧ (t.op c s.ctx.op).st = some s.me.cyc ∧
         step t (s.me.cyc + o.hs) 0 0 ∧ t.pool = s.pool ∧ t.pend = s.pend) ∧
     (o.st.isSome = true → s.ctx.plane = 0 → (s.core o.cs).early = false → (s.core o.src.core).early = false →
       (o.tab.isSome = true → (s.core o.cs).rails.getLsbD 2 = true) →
       ∃ t ws tags, exec .decodeContainer s = .next t ∧ t.pool = s.pool ∧ t.pend = s.pend ++ ws ++ tags ∧
         (∀ q < 64, ws.getD q (s.opWrite o.src 0 (.rotate 0)) = s.opWrite o.src (4 + o.hd + q) (.pool o.cd (base + 64 * q)
           ((((out.getD (List.replicate 4096 0)).drop (64 * q)).take 64).map some) false)) ∧ ws.length = 64 ∧
         (∀ w ∈ tags, ∃ g v, w = s.opWrite o.src (4 + o.hd + (min (1024 * (g + 1)) (base + 4096) - 1 - base) / 64) (.tag o.cd g v) ∧
           v = if out = none ∨ (o.failed = true ∧ 1024 * g < base) then 0xFFFF else o.tag) ∧
         (∀ g, (∃ w ∈ tags, ∃ v, w.upd = .tag o.cd g v) ↔
           base / 1024 ≤ g ∧ 1024 * g < base + 4096 ∧ (k + 1 = num ∨ 1024 * (g + 1) ≤ base + 4096)) ∧
         (out = none → step t (s.me.cyc + 4 + o.hd + 63) k 1) ∧ ((t.op c s.ctx.op).failed = true ↔ out = none) ∧
         (if k + 1 = num then step t (s.me.cyc + 4 + o.hd + 63) k 2 else step t (s.me.cyc + 64) (k + 1) 0)) ∧
     (o.st.isSome = true → s.ctx.plane = 1 → exec .decodeContainer s = .next (s.raiseOp .decodeOverrun o.src 0)) ∧
     (o.st.isSome = true → s.ctx.plane = 2 → exec .decodeContainer s = .next (s.finishOp c s.ctx.op o))) ∧
  (∀ (s : State) (xa : XReg) (sl : BitVec 2), (s.core s.ctx.core).early = false → (s.core s.myOp.src.core).early = false →
     let o := s.myOp
     let c := s.ctx.core
     let i := s.ctx.idx
     let next := fun (t : State) (ins : Instr) (idx : Nat) => ∃ q ∈ t.me.sched, q.due = s.me.cyc + 1 ∧ q.work.instr = ins ∧
       q.work.ctx.op = s.ctx.op ∧ q.work.ctx.idx = idx
     (o.instr = .dtab xa sl → i < 2 → ∃ t, exec .decodeTableLoad s = .next t ∧ t.pool = s.pool ∧ t.pend = s.pend ∧
       (t.op c s.ctx.op).buf = o.buf ++ s.poolRead c (o.as + 128 * i) 128 ∧ next t .decodeTableLoad (i + 1)) ∧
     (o.instr = .dtab xa sl → o.st.isSome = true → i = 2 → ∃ t, exec .decodeTableLoad s = .next t ∧ t.pool = s.pool ∧
       (t.op c s.ctx.op).fin = some s.me.cyc ∧ t.pend = s.pend ++ [s.opWrite o.src 0
         (.decTab c o.x1.toNat (decTabOf (o.buf ++ s.poolRead c (o.as + 256) 32)))]) ∧
     (o.instr = .cpi xa → o.st = none → imageHeader (s.poolRead c o.as 16) = none →
       exec .codeImageLoad s = .next (s.failOp c s.ctx.op o .illegalEnc 0)) ∧
     (∀ n a, o.instr = .cpi xa → o.st = none → imageHeader (s.poolRead c o.as 16) = some (n, a) → n % 32 = 0 →
       o.as + 16 + 4 * n + 4 * ceilDiv n 32 ≤ s.me.carve.scrlim → ∃ t, exec .codeImageLoad s = .next t ∧ t.pool = s.pool ∧
         t.pend = s.pend ∧ (t.op c s.ctx.op).hs = n ∧ (t.op c s.ctx.op).hd = a ∧ next t .codeImageLoad 0) ∧
     (o.instr = .cpi xa → o.st.isSome = true → i < ceilDiv o.hs 32 → ∃ t, exec .codeImageLoad s = .next t ∧ t.pool = s.pool ∧
       t.imem = s.imem ∧ next t .codeImageLoad (i + 1) ∧
       t.pend = s.pend ++ [s.opWrite o.src 1 (.imem c (o.hd + 32 * i) (s.imageGroup c o.as o.hs i))]) ∧
     (o.instr = .cpi xa → o.st.isSome = true → ceilDiv o.hs 32 ≤ i →
       exec .codeImageLoad s = .next (s.finishOp c s.ctx.op o)))

/-- SPB and FLA, 05_registers.md R150 to R152: with the range in scratch and the token idle the operation is filed, and from the
end of c0 the token is busy until its last group has been written; a busy token raises WRITE_COLLISION in a locked phase and
holds the syllable in an elastic one, wherever its range; a range beyond SCRLIM raises POOL_BOUNDS, and that a locked phase takes it
before a busy token is the model's choice (log entry 25).
SPILL_FILL_GROUP, 05_registers.md R151: a vector group moves 256 bytes between its register and the pool, a scalar group eight
registers or what is left, written one cycle later (two for a fill; a fill of x0 writes nothing); the next group follows a
cycle later. -/
def Obligations.SpillsAndFills : Prop :=
  (∀ (s : State) (a : SpillArgs),
     let p := s.xr a.xa + a.off.setWidth 64
     let w := if a.vec then 256 else 8
     let st := max (s.me.cyc + 1) s.me.spillFree
     let g := (a.n.toNat - 1) / (if a.vec then 1 else 8)
     let inside := p.toNat + a.n.toNat * w ≤ s.me.carve.scrlim ∧ p.toNat < 0x180000
     let busy := s.me.cyc < Table.get 0 s.me.tok a.tok.toNat
     (inside → ¬ busy →
       let files := fun (o : Out) (i : Instr) (last : Nat) => ∃ t, o = .next t ∧ t.pool = s.pool ∧
         t.pend = s.pend ++ [s.writeOf 0 (.tok s.ctx.core a.tok.toNat (st + g + last + 1))] ∧ t.me.tok = s.me.tok ∧
         (t.op s.ctx.core s.nextOp).instr = i ∧ (t.op s.ctx.core s.nextOp).ad = p.toNat ∧
         (∀ j < a.n.toNat, (t.op s.ctx.core s.nextOp).regs.getD j 0 =
           if a.vec then s.me.vaddr (a.f + BitVec.ofNat 6 j) else a.f.toNat + j) ∧
         t.me.spillFree = st + g + 1 ∧
         ∃ q ∈ t.me.sched, q.due = st ∧ q.work.instr = .spillFillGroup ∧ q.work.ctx.op = s.nextOp
       files (exec (.spb a) s) (.spb a) 1 ∧ files (exec (.fla a) s) (.fla a) 2) ∧
     (inside → busy → s.me.elastic = false →
       exec (.spb a) s = .next (s.raise .writeCollision 0 0) ∧ exec (.fla a) s = .next (s.raise .writeCollision 0 0)) ∧
     (busy → s.me.elastic = true →
       exec (.spb a) s = .next (s.hold .room none (some (.spb a))) ∧ exec (.fla a) s = .next (s.hold .room none (some (.fla a)))) ∧
     (¬ inside → ¬ busy ∨ s.me.elastic = false → exec (.spb a) s = .next (s.raise .poolBounds p 0) ∧ exec (.fla a) s = .next (s.raise .poolBounds p 0))) ∧
  (∀ (s : State) (a : SpillArgs),
     let o := s.myOp
     let r := if a.vec then 1 else 8
     let g := s.ctx.idx
     let js := (List.range (min r (a.n.toNat - r * g))).map (r * g + ·)
     let x := fun j => o.regs.getD j 0
     let p := fun j => o.ad + (if a.vec then 256 else 8) * j
     let goes := fun (t : State) =>
       if r * (g + 1) < a.n.toNat then
         ∃ q ∈ t.me.sched, q.due = s.me.cyc + 1 ∧ q.work.instr = .spillFillGroup ∧ q.work.ctx.op = s.ctx.op ∧ q.work.ctx.idx = g + 1
       else Table.get none t.me.ops s.ctx.op = none
     (o.instr = .spb a → ∃ t, exec .spillFillGroup s = .next t ∧ t.pool = s.pool ∧ goes t ∧
       t.pend = s.pend ++ js.map fun j => s.opWrite o.src 1 (.pool s.ctx.core (p j) ((if a.vec then s.poolRead s.ctx.core (x j) 256
         else leBytes 8 (s.me.xr (BitVec.ofNat 5 (x j))).toNat).map some) false)) ∧
     (o.instr = .fla a → a.vec = true → ∃ t, exec .spillFillGroup s = .next t ∧ t.pool = s.pool ∧ goes t ∧
       t.pend = s.pend ++ js.map fun j => s.opWrite o.src 2 (.pool s.ctx.core (x j) ((s.poolRead s.ctx.core (p j) 256).map some) true)) ∧
     (o.instr = .fla a → a.vec = false → ∃ t, exec .spillFillGroup s = .next t ∧ t.pool = s.pool ∧ goes t ∧
       t.pend = s.pend ++ (js.filter fun j => x j ≠ 0).map fun j => s.opWrite o.src 2
         (.x s.ctx.core (BitVec.ofNat 5 (x j)) (BitVec.ofNat 64 (ofLe (s.poolRead s.ctx.core (p j) 8))))))

/-! ## Channels -/

/-- The row commands of a channel, 10_channels.md R239, R243, R244: outside a guest window, one a tick, with the timing rules of
Table 10.6 kept. ACT opens the row, PRE and PREA close their banks, REFPB and REF lower the debts.
Where commands stop, 10_channels.md R239, R243, R253: in a guest window every command but GCLOSE raises SCRIPT_TIMING, and so does
any second row command of one tick; ACT of a row beyond the seal region or of a retired one raises CHANNEL_BOUNDS. None performs.
Where the spec leaves the point open, the model's choice stands (log entry 30). -/
def Obligations.ChannelRowCommands : Prop :=
  (∀ (s : State) (g b : BitVec 2) (row : BitVec 16), s.myChan.guest = none → s.myChan.rowAt ≠ some s.now →
     let k := 4 * g.toNat + b.toNat
     let c := s.ctx.chan
     let bank := s.myChan.bank
     let now := fun (o : Out) (p : Chan → Prop) => ∃ t, o = .next t ∧ p (t.chan c) ∧ (t.chan c).rowAt = some s.now ∧
       t.hbm = s.hbm ∧ t.pool = s.pool ∧ t.pend = s.pend ∧ t.cores = s.cores
     (row.toNat < 49149 → s.retiredRow c row.toNat = false → (bank k).row = none → gap (bank k).pre s.now 16 = true →
       gap (bank k).act s.now 47 = true → gap s.myChan.lastRef s.now 385 = true → gap (bank k).refpb s.now 176 = true →
       (∀ j < 16, j ≠ k → gap (bank j).refpb s.now 9 = true) →
       (∀ e ∈ s.myChan.acts, e.1 + (if e.2 / 4 = k / 4 then 4 else 2) ≤ s.now) →
       (s.myChan.acts.countP fun e => decide (s.now < e.1 + 14)) < 4 →
       now (exec (.act g b row) s) fun t => (t.bank k).row = some row.toNat ∧ (t.bank k).act = some s.now ∧
         (∀ j, j ≠ k → t.bank j = bank j) ∧ t.acts = (s.now, k) :: s.myChan.acts.take 7) ∧
     (s.myChan.closable k s.now = true →
       now (exec (.pre g b) s) fun t => (t.bank k).row = none ∧ ((bank k).row ≠ none → (t.bank k).pre = some s.now) ∧
         ∀ j, j ≠ k → t.bank j = bank j) ∧
     ((∀ j < 16, s.myChan.closable j s.now = true) → now (exec .prea s) fun t => ∀ j < 16, (t.bank j).row = none ∧
       ((bank j).row ≠ none → (t.bank j).pre = some s.now)) ∧
     (s.myChan.idle [k] s.now = true → -8 < (bank k).debt →
       (∀ j < 16, j ≠ k → gap (bank j).refpb s.now 9 = true) →
       now (exec (.refpb g b) s) fun t => (t.bank k).debt = (bank k).debt - 1 ∧ (t.bank k).refpb = some s.now ∧
         ∀ j, j ≠ k → t.bank j = bank j) ∧
     (s.myChan.idle (List.range 16) s.now = true → (∀ j < 16, -8 < (bank j).debt) →
       gap s.myChan.lastRef s.now 385 = true →
       now (exec .ref s) fun t => t.lastRef = some s.now ∧ ∀ j < 16, (t.bank j).debt = (bank j).debt - 1)) ∧
  (∀ (s : State) (g b : BitVec 2) (row : BitVec 16) (a : Burst) (q c : BitVec 5) (k x l : Bool) (len : BitVec 28),
     let rows := [.act g b row, .pre g b, .prea, .refpb g b, .ref]
     let columns := [.rd a q k x, .wr a q k x, .sealrd b row l, .parrmw a, .fetch b row c]
     (s.myChan.guest ≠ none → (∀ i ∈ rows ++ [.sealwr b row l, .gopen len, .gsync, .scriptEnd],
         exec i s = .next (s.raiseChan .scriptTiming)) ∧
       (s.ctx.idx = 0 → ∀ i ∈ columns, exec i s = .next (s.raiseChan .scriptTiming))) ∧
     (s.myChan.guest = none → s.myChan.rowAt = some s.now → ∀ i ∈ rows, exec i s = .next (s.raiseChan .scriptTiming)) ∧
     (s.myChan.guest = none → s.myChan.rowAt ≠ some s.now → (49149 ≤ row.toNat ∨ s.retiredRow s.ctx.chan row.toNat = true) →
       exec (.act g b row) s = .next (s.raiseChan .channelBounds)))

/-- The bursts of RD and WR, 10_channels.md R236, R247 to R252: a command's bursts are booked with it, and its first goes now, the
next a tick later. A burst of RD lands in its slot 23 ticks later, poisoned when HBM reports an uncorrectable error, RD.X's goes
to the stripe's reconstruction, and RD.K's is kept; a burst of WR empties its slot and writes it to HBM, one of WR.P adds its
delta, one of WR.X is left to the stripe's end of tick, in a degraded stripe with the burst it takes from the slot of the retired
stack's channel, and a burst of WR whose slot is empty raises DATAQ_OVERRUN.
RD_LANDING, 10_channels.md R236, R247: the burst fills its slot at the end of the tick; SEALRD reads its record now and loads its
latch 23 ticks later (R257).
Where the spec leaves the point open, the model's choice stands (log entry 30). -/
def Obligations.ChannelBursts : Prop :=
  (∀ (s : State) (a : Burst) (q : BitVec 5),
     let cn := s.ctx.chan
     let i := s.ctx.idx
     let slot := (q.toNat + i) % 32
     let key := s.burstOf a i
     let row := a.row.toNat
     let begins := fun (w : Bool) (lim : Nat) => s.myChan.guest = none ∧ row < lim ∧ s.retiredRow cn row = false ∧
       (s.myChan.book (cmdBursts a s.now w)).isSome = true
     let own := cn / 64
     let par := parityStack row (burstPlace a i).1
     let goesOn := fun (t : State) (ins : Instr) => i < a.cnt.toNat →
       ∃ e ∈ (t.chan cn).bursts, e.due = s.now + 1 ∧ e.work.instr = ins ∧ e.work.ctx.idx = i + 1 ∧ e.work.ctx.chan = cn
     (i ≠ 0 ∨ begins false 48768 → ∀ k, ∃ t, exec (.rd a q k false) s = .next t ∧ t.hbm = s.hbm ∧ t.pool = s.pool ∧ t.pend = s.pend ∧
       goesOn t (.rd a q k false) ∧ (∃ e ∈ (t.chan cn).bursts, e.due = s.now + 23 ∧ e.work.ctx.burst = key ∧
         e.work.instr = .rdLanding cn slot (s.burst key) (s.isPoisoned key || s.hbmUe.contains key)) ∧
       (k = true → (key, s.burst key, s.now) ∈ (t.chan cn).keep)) ∧
     (i ≠ 0 ∨ (begins false 49149 ∧ ∃ f, s.lostStack = some f ∧ f ≠ own) → ∀ k, ∃ t, exec (.rd a q k true) s = .next t ∧ t.hbm = s.hbm ∧ t.pool = s.pool ∧ t.pend = s.pend ∧
       goesOn t (.rd a q k true) ∧
       t.stripe = s.stripe ++ [{ chan := cn, key := key, kind := .read slot, data := s.burst key, ctx := s.ctx }]) ∧
     (∀ d, Table.get none s.myChan.slots slot = some d →
       (i ≠ 0 ∨ (begins true 48768 ∧ parityStack row a.b.toNat ≠ own) → ∃ t, exec (.wr a q false false) s = .next t ∧
         t.hbm = s.hbm.write (32 * key) (d.data.map some) ∧ Table.get none (t.chan cn).slots slot = none ∧
         t.pool = s.pool ∧ t.pend = s.pend ∧ goesOn t (.wr a q false false) ∧
         (d.poison = true → ∃ e ∈ t.stripe, e.kind = .poison ∧ e.key = key) ∧
         (s.lostStack ≠ some par → ∃ e ∈ t.stripe, e.kind = .data ∧ e.key = key ∧ e.data = d.data)) ∧
       (∀ e, i ≠ 0 ∨ (begins true 48768 ∧ parityStack row a.b.toNat ≠ own ∧ s.lostStack ≠ some own) → s.myChan.keep.find? (fun e => e.1 == key) = some e → (Table.get [] s.deltas (cn % 64)).length < 256 →
         ∃ t, exec (.wr a q true false) s = .next t ∧ t.hbm = s.hbm.write (32 * key) (d.data.map some) ∧
           Table.get none (t.chan cn).slots slot = none ∧ t.pool = s.pool ∧ t.pend = s.pend ∧ goesOn t (.wr a q true false) ∧
           Table.get [] t.deltas (cn % 64) = Table.get [] s.deltas (cn % 64) ++
             [{ key := stripeBurst key (parityStack (key / 512 % 49152) (key / 32 % 16)), data := xorBytes e.2.1 d.data,
                at_ := s.now, chan := cn }])) ∧
     (let notes := fun (o : Out) (b : Option QSlot) (u : State → Prop) => ∃ t, o = .next t ∧ t.hbm = s.hbm ∧ t.pool = s.pool ∧
        t.stripe = s.stripe ++ [{ chan := cn, key := key, kind := .par b, data := [], ctx := s.ctx }] ∧ u t
      (s.lostStack = none → i ≠ 0 ∨ (begins true 48768 ∧ parityStack row a.b.toNat = own ∧ q = 0) → ∀ p,
        notes (exec (.wr a q p true) s) none fun t => goesOn t (.wr a q p true)) ∧
      (∀ f b, s.lostStack = some f → f ≠ par → Table.get none (s.chan (64 * f + cn % 64)).slots slot = some b →
        i ≠ 0 ∨ (begins true 48768 ∧ parityStack row a.b.toNat = own ∧ f ≠ own) →
        notes (exec (.wr a q false true) s) (some b) fun t =>
          Table.get none (t.chan (64 * f + cn % 64)).slots slot = none ∧ goesOn t (.wr a q false true))) ∧
     (i ≠ 0 → i = a.cnt.toNat → Table.get none s.myChan.slots slot = none →
       exec (.wr a q false false) s = .next (s.raiseChan .dataqOverrun))) ∧
  (∀ (s : State) (cn q : Nat) (d : List Byte) (p : Bool) (b : BitVec 2) (row : BitVec 16) (l : Bool),
     (∃ src, exec (.rdLanding cn q d p) s = .next (s.deferTick src s.tick (.slot cn q d p s.ctx.burst none))) ∧
     (let k := burstKey s.ctx.chan (sealPlace b row).1 (sealPlace b row).2.1 (sealPlace b row).2.2
      let tile := 4 * row.toNat + b.toNat
      let loaded := fun (d : List Byte) => ({ st := .read, tile := tile, base := d, cur := d } : Latch)
      (s.ctx.idx ≠ 0 → ∃ t, exec (.sealrd b row l) s = .next t ∧ t.hbm = s.hbm ∧ t.pool = s.pool ∧
        t.pend = s.pend ++ [{ clk := .tick, due := s.tick, src := {}, upd := .latch s.ctx.chan l.toNat (loaded (s.myChan.recall k).1) true }]) ∧
      (s.ctx.idx = 0 → s.myChan.guest = none → row.toNat < 48768 → s.retiredRow s.ctx.chan row.toNat = false →
        s.retiredRow s.ctx.chan (sealPlace b row).2.1 = false →
        (s.myChan.book [(s.now, false, (sealPlace b row).1, (sealPlace b row).2.1)]).isSome = true →
        ((s.myChan.latch (!l).toNat).st = .empty ∨ (s.myChan.latch (!l).toNat).tile ≠ tile) →
        ∃ t, exec (.sealrd b row l) s = .next t ∧ t.hbm = s.hbm ∧ t.pool = s.pool ∧ t.pend = s.pend ∧
          (t.chan s.ctx.chan).par = s.myChan.par ++ [(k, s.burst k)] ∧
          ∃ e ∈ (t.chan s.ctx.chan).bursts, e.due = s.now + 23 ∧ e.work.instr = .sealrd b row l ∧ e.work.ctx.idx = 1)))

/-- SEALWR and PARRMW, 10_channels.md R250, R257: SEALWR writes the latch's sealed record of its tile and adds a delta; PARRMW,
its bursts booked with the first of them, reads a parity burst and writes it 40 ticks later with the deltas of its stripe, which
are freed.
SEAL_VERDICT and SEAL_LATCH_UPDATE, 10_channels.md R255, R256, R263, R265: the verdict opens the tile under the latch, its key and
its collected bursts, when the record's tag is the tile's, or marks it failed; the update puts a record of tag, version and key
slot into the latch, SEALED, at the end of the cycle.
Where the spec leaves the point open, the model's choice stands (log entry 31). -/
def Obligations.SealAndParity : Prop :=
  (∀ (s : State) (b : BitVec 2) (row : BitVec 16) (l : Bool) (a : Burst) (c' : Chan),
     let cn := s.ctx.chan
     let v := s.myChan.latch l.toNat
     let key := burstKey cn (sealPlace b row).1 (sealPlace b row).2.1 (sealPlace b row).2.2
     let group := fun (t : State) => Table.get [] t.deltas (cn % 64)
     (s.myChan.guest = none → row.toNat < 48768 → s.retiredRow cn row.toNat = false → s.retiredRow cn (sealPlace b row).2.1 = false →
       s.myChan.book [(s.now, true, (sealPlace b row).1, (sealPlace b row).2.1)] = some c' →
       parityStack (sealPlace b row).2.1 (sealPlace b row).1 ≠ cn / 64 → s.lostStack ≠ some (cn / 64) → v.st = .sealed →
       v.tile = 4 * row.toNat + b.toNat → (group s).length < 256 →
       ∃ t, exec (.sealwr b row l) s = .next t ∧ t.hbm = s.hbm.write (32 * key) (v.cur.map some) ∧ t.pool = s.pool ∧
         group t = group s ++ [{ key := parityBurst key, data := xorBytes v.base v.cur, at_ := s.now, chan := cn }] ∧
         t.pend = s.pend ++ [{ clk := .tick, due := s.tick, src := {}, upd := .latch cn l.toNat { v with base := v.cur, st := .read } false }]) ∧
     (s.ctx.idx ≠ 0 ∨ (s.myChan.guest = none ∧ a.row.toNat < 49149 ∧ s.retiredRow cn a.row.toNat = false ∧
       parityStack a.row.toNat a.b.toNat = cn / 64 ∧
       (s.myChan.book (cmdBursts a s.now false ++ cmdBursts a (s.now + 40) true)).isSome = true) →
       ∃ t, exec (.parrmw a) s = .next t ∧ t.hbm = s.hbm ∧ t.pool = s.pool ∧
       (t.chan cn).par = s.myChan.par ++ [(s.burstOf a s.ctx.idx, s.burst (s.burstOf a s.ctx.idx))] ∧
       ∃ e ∈ (t.chan cn).bursts, e.due = s.now + 40 ∧ e.work.instr = .parrmwWrite cn a s.ctx.idx) ∧
     (∀ i,
       let p := s.burstOf a i
       let hit := fun (e : Delta) => e.key == p && decide (e.at_ < s.now)
       ∃ t, exec (.parrmwWrite cn a i) s = .next t ∧ t.pool = s.pool ∧
         t.hbm = s.hbm.write (32 * p) ((((group s).filter hit).foldl (fun v e => xorBytes v e.data) (s.myChan.recall p).1).map some) ∧
         group t = (group s).filter fun e => !hit e)) ∧
  (∀ (s : State) (a : ChrArgs) (w : ChwArgs),
     let o := s.myOp
     let k := s.ctx.idx
     (o.instr = .chr a →
       let v := (s.chan o.cs).latch ((a.l.toNat + k) % 2)
       let cols := (o.cols.drop (128 * k)).take 128
       let poison := cols.any fun e => !e.2.isEmpty
       let r := s.openTile (s.partOf s.ctx.core) o.cs v.tile v.cur (cols.flatMap (·.1))
       ∃ t x, exec .sealVerdict s = .next t ∧ t.pool = s.pool ∧ t.hbm = s.hbm ∧ t.pend = s.pend ∧
         (t.op s.ctx.core s.ctx.op).outs = o.outs ++ [x] ∧ x.2.2 = poison ∧
         (x.2.1 = false ↔ v.st ≠ .empty ∧ poison = false ∧ r ≠ none) ∧ (x.2.1 = false → r = some x.1)) ∧
     (∀ key pi ver ks, o.instr = .chw w → o.seals.getD k none = some (key, pi, ver, ks) →
       let v := (s.chan o.cs).latch ((w.l.toNat + k) % 2)
       let plain := ((o.cols.drop (128 * k)).take 128).flatMap (·.1)
       let nonce := leBytes 8 pi ++ leBytes 4 ver
       let tag := gcmTag key nonce (leBytes 8 pi ++ [BitVec.ofNat 8 ks]) (gcmCrypt key nonce plain 0)
       ∃ t, exec .sealLatchUpdate s = .next t ∧ t.pool = s.pool ∧ t.hbm = s.hbm ∧
         t.pend = s.pend ++ [s.opWrite o.src 0 (.latch o.cs ((w.l.toNat + k) % 2)
           { v with cur := tag ++ leBytes 4 ver ++ [BitVec.ofNat 8 ks] ++ List.replicate 11 0, st := .sealed } true)])) ∧
  (∀ (s : State) (part cn tile ver : Nat) (cur : Bool) (tag cipher : List Byte) (key : BitVec 256), part < 64 → ver < 2 ^ 32 →
     tag.length = 16 → (if cur then (s.part part).key1 else (s.part part).key0) = some key →
     let pi := leBytes 8 (cn * 2 ^ 18 + tile)
     let nonce := pi ++ leBytes 4 ver
     let slot := [BitVec.ofNat 8 (2 * part + cur.toNat)]
     s.openTile part cn tile (tag ++ leBytes 4 ver ++ slot ++ List.replicate 11 0) cipher =
       if gcmTag key nonce (pi ++ slot) cipher = tag then some (gcmCrypt key nonce cipher 0) else none)

/-- The script's own commands, 10_channels.md R234, R240, R241, R253: GOPEN opens a window for len ticks or until a gate, GCLOSE and
GUEST_WINDOW_END close it, and what waits there has waited one window more; FETCH reads the sixteen bursts of the next block, which
is buffered 39 ticks after its start, unless a command of it is already due; GSYNC and END stop the script.
Gates, ages and refresh, 10_channels.md R241, R244, R247, R250: a script that waits goes on with its buffered block in an epoch
that starts at the gate tick; a block not there raises SCRIPT_TIMING; slots, copies and deltas age; every refresh interval adds
one to the debts of a channel that a script runs, and a debt of 9 raises REFRESH_DEBT.
Where the spec leaves the point open, the model's choice stands (log entry 30). -/
def Obligations.ScriptsAndAges : Prop :=
  (∀ (s : State) (len : BitVec 28) (b : BitVec 2) (row : BitVec 16) (c : BitVec 5),
     let cn := s.ctx.chan
     let x := s.now - s.myChan.epoch
     (s.myChan.guest = none → s.myChan.idle (List.range 16) s.now = true →
       (∃ t, exec (.gopen len) s = .next t ∧ t.hbm = s.hbm ∧
         (t.chan cn).guest = some (if len = 0 then none else some (s.now + len.toNat))) ∧
       (s.ctx.head = s.myChan.cur.count → ∃ t, exec .gsync s = .next t ∧ (t.chan cn).script = .sync ∧ t.hbm = s.hbm) ∧
       (∃ t, exec .scriptEnd s = .next t ∧ (t.chan cn).script = .ended ∧ t.hbm = s.hbm)) ∧
     (let closes := fun (o : Out) => ∃ t, o = .next t ∧ (t.chan cn).guest = none ∧ t.hbm = s.hbm ∧ t.pool = s.pool ∧
        ∀ r f, Table.get none s.fars r = some f → f.chan = some cn → f.at_ ≤ s.tick → (t.far r).age = f.age + 1
      closes (exec .gclose s) ∧ closes (exec .guestWindowEnd s)) ∧
     (let t0 := 4 * row.toNat + b.toNat + c.toNat / 16
      let place := fun (i : Nat) => burstKey cn (4 * (i % 4) + t0 % 4) (t0 / 4) (4 * (c.toNat / 4 % 4) + i / 4)
      (s.ctx.idx ≠ 0 → ∃ t, exec (.fetch b row c) s = .next t ∧ t.hbm = s.hbm ∧
        (t.chan cn).fbuf = s.myChan.fbuf ++ s.burst (place s.ctx.idx)) ∧
      (s.ctx.idx = 0 → s.myChan.guest = none → t0 / 4 < 48768 → s.retiredRow cn (t0 / 4) = false → s.myChan.fetch = none →
        s.myChan.next = none → (s.myChan.book ((List.range 16).map fun i =>
          (s.now + i, false, 4 * (i % 4) + t0 % 4, t0 / 4))).isSome = true →
        ∃ t, exec (.fetch b row c) s = .next t ∧ t.hbm = s.hbm ∧ (t.chan cn).fbuf = s.burst (place 0) ∧
          (t.chan cn).fetch = some (4 * (4 * row.toNat + b.toNat) + c.toNat / 4, s.now) ∧
          (∃ e ∈ (t.chan cn).bursts, e.due = s.now + 1 ∧ e.work.instr = .fetch b row c ∧ e.work.ctx.idx = 1) ∧
          ∃ e ∈ (t.chan cn).bursts, e.due = s.now + 39 ∧ e.work.instr = .fetchComplete)) ∧
     (∀ ix at_, s.myChan.fetch = some (ix, at_) →
       let n := blockOf ix s.myChan.fbuf
       (s.myChan.script ≠ .running ∨ s.myChan.cur.opcode s.myChan.cur.count = 14 ∨ ∀ i < n.count, x < n.stamp (i + 1)) →
       ∃ t, exec .fetchComplete s = .next t ∧ (t.chan cn).next = some n ∧ (t.chan cn).fetch = none ∧ t.runs = s.runs)) ∧
  (∀ (s : State),
     let cn := s.ctx.chan
     (∀ b, s.myChan.next = some b → ∃ t, exec .epochStart s = .next t ∧ (t.chan cn).script = .running ∧ (t.chan cn).cur = b ∧
       (t.chan cn).next = none ∧ (t.chan cn).ix = 0 ∧ t.hbm = s.hbm ∧
       ∀ r g, s.myChan.run = some r → (s.run r).gateTick = some g → (t.chan cn).epoch = g) ∧
     (s.myChan.next = none → exec .epochStart s = .next ((s.modMyChan fun c => { c with script := .none_ }).raiseChan .scriptTiming)) ∧
     exec .slotAgeExpiry s = .next (s.raiseChan .dataqOverrun) ∧ exec .deltaAgeExpiry s = .next (s.raiseChan .parityDebt) ∧
     (∃ t, exec .keptCopyExpiry s = .next t ∧ (∀ e, e ∈ (t.chan cn).keep ↔ e ∈ s.myChan.keep ∧ s.now ≤ e.2.2 + 512) ∧ t.hbm = s.hbm) ∧
     (s.chanOpen cn = true → exec .refreshInterval s = .next s) ∧
     (s.chanOpen cn = false → ∃ u : State, (∀ k < 16, ((u.chan cn).bank k).debt = (s.myChan.bank k).debt + 1) ∧ u.hbm = s.hbm ∧
       u.runs = s.runs ∧ ((∀ k < 16, (s.myChan.bank k).debt < 8) → exec .refreshInterval s = .next u) ∧
       ((∃ k < 16, 8 ≤ (s.myChan.bank k).debt) → exec .refreshInterval s = .next (u.raiseChan .refreshDebt))))

/-- CHR and CHW are queued when their engine has room, the channel is allotted to the run, and the range lies in scratch, a
sealed one at a multiple of 1,024; else CHANNEL_BOUNDS or POOL_BOUNDS (10_channels.md R232, R258 to R260).
The cycles of CHR and CHW, 10_channels.md R252, R261, R264: a CHR takes the burst of its cycle out of its slot; a plain one writes
burst m in its cycle 2 + Hc + m, with the tags of the granules complete then, 0xFFFF where a burst was poisoned; a CHW samples a
burst in each cycle, and a plain one's burst m arrives in its slot in its cycle 2 + Hc + m. Neither writes HBM.
Where the spec leaves the point open, the model's choice stands (log entry 29). -/
def Obligations.ChannelTransfers : Prop :=
  (∀ (s : State) (a : ChrArgs) (w : ChwArgs), s.me.queued s.myEngine < 8 →
     let queues := fun (o : Out) (i : Instr) (xa : XReg) (cn : BitVec 10) => ∃ t, o = .next t ∧
       (t.op s.ctx.core s.nextOp).instr = i ∧ (t.op s.ctx.core s.nextOp).cs = cn.toNat ∧
       (t.op s.ctx.core s.nextOp).ad = (s.xr xa).toNat ∧ (t.op s.ctx.core s.nextOp).hs = chanHops s.ctx.core cn.toNat ∧
       t.pool = s.pool ∧ t.pend = s.pend ∧ s.nextOp ∈ Table.get [] t.me.copyQ s.myEngine
     let place := fun (i : Instr) (cn : BitVec 10) (xa : XReg) (n : Nat) (sealed_ : Bool) =>
       (s.allotted s.ctx.core cn.toNat = false → exec i s = .next (s.raise .channelBounds (BitVec.ofNat 64 cn.toNat) 0)) ∧
       (s.allotted s.ctx.core cn.toNat = true →
         (s.me.carve.scrlim < (s.xr xa).toNat + n ∨ (sealed_ = true ∧ (s.xr xa).toNat % 1024 ≠ 0) →
           exec i s = .next (s.raise .poolBounds (s.xr xa) 0)) ∧
         ((s.xr xa).toNat + n ≤ s.me.carve.scrlim → (sealed_ = true → (s.xr xa).toNat % 1024 = 0) → queues (exec i s) i xa cn))
     place (.chr a) a.chan a.xa (a.n.toNat * (if a.s || a.dec.isSome then 4096 else 32)) a.s ∧
     place (.chw w) w.chan w.xa (w.n.toNat * (if w.s then 4096 else 32)) w.s) ∧
  (∀ (s : State) (a : ChrArgs) (w : ChwArgs), s.myOp.st.isSome = true →
     let o := s.myOp
     let c := s.ctx.core
     let j := s.ctx.idx
     let chunk := fun (g m : Nat) => (o.ad + 32 * m) / 1024 ≤ g ∧ g ≤ (o.ad + 32 * m + 31) / 1024
     (o.instr = .chr a → s.ctx.plane = 0 → ∀ i d, chrTakes a o j = some i →
       Table.get none (s.chan o.cs).slots ((a.q.toNat + i) % 32) = some d →
       ∃ t, exec .chrCollect s = .next t ∧ t.hbm = s.hbm ∧ t.pool = s.pool ∧
         Table.get none (t.chan o.cs).slots ((a.q.toNat + i) % 32) = none ∧
         ∃ m, (t.op c s.ctx.op).cols = o.cols ++ [(d.data, m)] ∧ (d.poison = false → m = [])) ∧
     (o.instr = .chr a → s.ctx.plane = 0 → a.s = false → a.dec = none → ∀ m bs, a.n.toNat ≤ j → j = 2 + o.hs + m → m < a.n.toNat →
       o.cols.getD m ([], []) = (bs, []) → bs ≠ [] →
       ∃ t tags, exec .chrCollect s = .next t ∧ t.hbm = s.hbm ∧ t.pool = s.pool ∧
         t.pend = s.pend ++ s.opWrite o.src 0 (.pool c (o.ad + 32 * m) (bs.map some) false) :: tags ∧
         (∀ w ∈ tags, ∃ g v, w = s.opWrite o.src 0 (.tag c g v)) ∧
         (∀ g v, s.opWrite o.src 0 (.tag c g v) ∈ tags ↔
           chunk g m ∧ (m + 1 = a.n.toNat ∨ g < (o.ad + 32 * (m + 1)) / 1024) ∧
           v = if ∃ i < o.cols.length, (o.cols.getD i ([], [])).2 ≠ [] ∧ chunk g i then 0xFFFF else o.tag) ∧
         (m + 1 = a.n.toNat → (t.op c s.ctx.op).fin = some s.me.cyc)) ∧
     (o.instr = .chw w → o.waiting = false → s.me.early = false → (s.core o.src.core).early = false →
       (j < chwN w → ∃ t, exec .chwArrival s = .next t ∧ t.hbm = s.hbm ∧ t.pool = s.pool ∧
         (t.op c s.ctx.op).cols = o.cols ++ [(s.poolRead c (o.ad + 32 * j) 32, [])]) ∧
       (w.s = false → 2 + o.hs ≤ j → j ≤ 1 + w.n.toNat + o.hs → (j < w.n.toNat → j ≤ o.cols.length) →
         ∃ t, exec .chwArrival s = .next t ∧ t.hbm = s.hbm ∧ t.pool = s.pool ∧
           t.pend = s.pend ++ [s.opWrite o.src 0 (.slot o.cs ((w.q.toNat + (j - (2 + o.hs))) % 32)
             ((o.cols.getD (j - (2 + o.hs)) ([], [])).1) false 0 (some s.ctx.op))])))

/-! ## Time, tasks, runs -/

/-- Pod time and clocks, 14_time_power.md R312, R313, R316, R318, R322, R323, R326: when SLEW answers at once, the one step of a
tick into which the waiting SLEWs merge, and what beacons, wakes, lane monitors and rises change, these for a core that a recovery task
has set aside too. A beacon counts at tick 79 of
its slot; a slot without a valid one of the timekeeper is missed, once, and the fourth hands the timekeeping over, while the beacon
of another rank changes nothing (15_light.md R332). -/
def Obligations.PodTimeAndClocks : Prop :=
  ∀ (s : State) (xd : XReg) (o : Beacon) (lane mw : Nat),
    (-8 ≤ s.podoff → s.podoff ≤ 8 → exec (.slew xd .auto) s = .next (s.deferX 0 xd (BitVec.ofInt 64 s.podoff))) ∧
    exec (.slew xd .back) s = .next (s.hold (.slew (-1)) (some xd) none) ∧
    exec (.slew xd .fwd) s = .next (s.hold (.slew 1) (some xd) none) ∧
    (8 < s.podoff → exec (.slew xd .auto) s = .next (s.hold (.slew (-1)) (some xd) none)) ∧
    (s.podoff < -8 → exec (.slew xd .auto) s = .next (s.hold (.slew 1) (some xd) none)) ∧
    (s.slews = [] ∨ s.slewFree = false → exec .slewStep s = .next s) ∧
    (s.slews ≠ [] → s.slewFree = true → ∃ t, exec .slewStep s = .next t ∧ t.tick = s.tick ∧ t.pool = s.pool ∧ t.pend = s.pend ∧
      (0 < s.slews.sum → t.slew = 1) ∧ (s.slews.sum < 0 → t.slew = -1) ∧ (s.slews.sum = 0 → t.slew = 0) ∧
      ∀ c, (t.core c).waits = (s.core c).waits.map fun w =>
        if (s.slewOpen c (s.core c) w).isSome then { w with stepped := true } else w) ∧
    (s.tick % 80 = 79 →
      let off := max (-127) (min 127 o.off)
      (s.goodBeacon o = true → ∃ t, exec (.beaconUpdate (some o)) s = .next t ∧ t.podoff = off ∧ t.missed = 0 ∧
        t.beaconSlot = s.tick / 80 + 1 ∧ t.pool = s.pool ∧
        (off.natAbs < 16 → t.cores = s.cores ∧ t.runs = s.runs) ∧
        (16 ≤ off.natAbs → ∀ c, s.lockedCore c = true → (t.core c).faulted.isSome = true)) ∧
      (o.rank ≠ s.timekeeper → exec (.beaconUpdate (some o)) s = .next s) ∧
      (∀ b, (b = none ∨ (b = some o ∧ o.rank = s.timekeeper ∧ s.goodBeacon o = false)) →
        (s.beaconSlot = s.tick / 80 + 1 → exec (.beaconUpdate b) s = .next s) ∧
        (s.beaconSlot ≠ s.tick / 80 + 1 → s.missed ≠ 3 ∨ s.timekeeper = s.devIndex →
          exec (.beaconUpdate b) s = .next { s with missed := s.missed + 1, beaconSlot := s.tick / 80 + 1 }) ∧
        (s.beaconSlot ≠ s.tick / 80 + 1 → s.missed = 3 → s.timekeeper ≠ s.devIndex → exec (.beaconUpdate b) s = .next { s with
          missed := 4, beaconSlot := s.tick / 80 + 1, todo := { instr := .timekeeperTakeover } :: s.todo }))) ∧
    (s.tick % 80 ≠ 79 → exec (.beaconUpdate (some o)) s = .next { s with
      inbox := s.inbox ++ [{ due := s.tick / 80 * 80 + 79, work := { instr := .beaconUpdate (some o) } }] }) ∧
    (let i := s.ctx.idx
     ∃ t, exec .voteRiseComplete s = .next t ∧ (s.rail i).point ≤ (t.rail i).point ∧
      (∀ e ∈ (s.rail i).rise, e.1 ≤ s.tick → e.2 ≤ (t.rail i).point) ∧
      ((t.rail i).point = (s.rail i).point ∨ ∃ e ∈ (s.rail i).rise, e.1 ≤ s.tick ∧ e.2 = (t.rail i).point) ∧
      (∀ e, e ∈ (t.rail i).rise ↔ e ∈ (s.rail i).rise ∧ s.tick < e.1) ∧
      (∀ c, (s.core c).elastic = true → (s.core c).mask.getLsbD i = true → (t.core c).reclock = true) ∧
      (∀ r q, (s.run r).recov = some q → q.saved.elastic = true → q.saved.mask.getLsbD i = true →
        (t.run r).recov = some { q with saved := { q.saved with reclock := true } }) ∧
      (∀ r, (t.run r).st = (s.run r).st) ∧ t.pool = s.pool) ∧
    (s.me.elastic = true → ∃ t, exec .clockRecompute s = .next t ∧ t.me.reclock = false ∧
      t.me.n = max s.me.n (min s.me.request (min s.me.ncap (s.railLimit s.me.mask))) ∧ t.me.x = s.me.x ∧ t.pool = s.pool) ∧
    (∃ t, exec .railWakeComplete s = .next t ∧ t.me.x = s.me.x ∧ t.pool = s.pool ∧
      t.me.wake = s.me.wake.filter (fun e => decide (s.tick < e.2)) ∧
      ∀ i, t.me.rails.getLsbD i = (s.me.rails.getLsbD i || (s.me.mask.getLsbD i &&
        s.me.wake.any fun e => decide (e.2 ≤ s.tick) && e.1.getLsbD i))) ∧
    (∃ t, exec (.laneFloorRequest lane mw) s = .next t ∧ (t.lane lane).floor = mw ∧ (t.lane lane).drive = max (s.lane lane).drive mw ∧
      t.cores = s.cores ∧ ∀ j, j ≠ lane → t.lane j = s.lane j)

/-- PHASE and the gate tick, 01_machine.md R23, 14_time_power.md R313, R317, R319, R320, R322, R323: PHASE arms the gate at the end
of c0, or raises DEADLINE for a tick gone by, but for the cycle in which a declared length runs out, whose DEVIATION comes alone
(01_machine.md R20); a core that has reached its gate takes on the new phase, a locked one at full clock,
and wakes the rails it powers 64 cycles after its PHASE, while a rail that an earlier gate wakes keeps its tick; one that has not reached it, or that still waits, raises DEADLINE.
The start and the end of a task, 01_machine.md R9, R17 to R20, Table 1.5: TASK_START sets the cycle, the partition, the carve, RRB
and the first bundle and keeps the registers, and at the END entry the core is done; TEND leaves the next start by the entry's
rule; a locked task of another length, a length or a budget that runs out raise their codes; a TEND ends a recovery task
(16_faults.md R366).
An AFTER entry starts at its cycle, and a GATE entry that no gate stands before raises DEVIATION at its start.
Where the spec leaves the point open, the model's choice stands (log entry 19). -/
def Obligations.GatesAndTasks : Prop :=
  (∀ (s : State) (xa : XReg) (el hold : Bool) (m : BitVec 4) (n : BitVec 5) (g : Gate) (r a : Nat),
     (s.myRunTick < (s.xr xa).toNat → ∃ g' : Gate, exec (.phase xa el m n hold) s = .next (s.defer 0 (.gate s.ctx.core g')) ∧
       g'.g = (s.xr xa).toNat ∧ g'.elastic = el ∧ g'.mask = m ∧ g'.n = n.toNat ∧ g'.hold = hold ∧ g'.armed = s.tick) ∧
     ((s.xr xa).toNat ≤ s.myRunTick → s.lengthEnds = false →
       exec (.phase xa el m n hold) s = .next (s.raise .deadline 4 (s.xr xa))) ∧
     ((s.xr xa).toNat ≤ s.myRunTick → s.lengthEnds = true → exec (.phase xa el m n hold) s = .next s) ∧
     (s.me.gate = some g → s.me.run = some r →
       let late := exec .gateTick s = .next (s.raiseTask .deadline 1 (BitVec.ofNat 64 g.g))
       (s.me.seq = .gate a → a ≤ s.tick → (∀ e ∈ s.me.ops, ∀ q, e.2 = some q → q.waiting = false) → s.me.waits = [] →
         (g.elastic = true ∨ (s.podoff.natAbs ≤ 12 ∧ s.rising g.mask = false ∧ s.railLimit g.mask = 16)) →
         ∃ t, exec .gateTick s = .next t ∧ t.me.gate = none ∧ t.me.elastic = g.elastic ∧ t.me.mask = g.mask ∧ t.me.phaseStart = g.g ∧
           t.me.seq = .atTick g.g ∧ (g.elastic = false → t.me.n = 16) ∧
           (g.elastic = true → s.me.elastic = false → s.me.lastElastic = none →
             t.me.n = min g.n (min t.me.ncap (s.railLimit g.mask))) ∧
           t.me.skew = (s.run r).tb + g.g - a ∧
           (s.me.wake = [] → if g.mask &&& ~~~ s.me.rails ≠ 0 ∧ s.tick < g.armed + 64 then
              t.me.wake = [(g.mask &&& ~~~ s.me.rails, g.armed + 64)] ∧ t.me.rails = s.me.rails &&& g.mask
            else t.me.wake = [] ∧ t.me.rails = g.mask) ∧
           (∀ w ∈ s.me.wake, w.1 &&& g.mask ≠ 0 → (w.1 &&& g.mask, w.2) ∈ t.me.wake) ∧
           t.me.x = s.me.x ∧ t.me.p = s.me.p ∧ t.pool = s.pool ∧ t.pend = s.pend) ∧
       (s.me.seq = .gate a → s.tick < a → late) ∧ ((∀ b, s.me.seq ≠ .gate b) → late) ∧
       (s.me.seq = .gate a → s.me.waits ≠ [] → late))) ∧
  (∀ (s : State) (n : Nat),
     let e := s.me.tasks.getD s.me.taskIx {}
     let f := s.me.tasks.getD (s.me.taskIx + 1) {}
     ((s.me.seq = .atTick n ∧ e.rule ≠ .fin) ∨ (s.me.seq = .atCycle n ∧ e.rule = .after) → (∀ w ∈ s.engineWrites, w.2.1 ≠ s.ctx.core) →
       ∃ t, exec .taskStart s = .next t ∧ t.me.seq = .issue s.me.cyc ∧ t.me.s = s.me.cyc ∧ t.me.part = e.part ∧
         t.me.carve = carveOf e.part ∧ t.me.rrb = 0 ∧ t.me.inTask = true ∧ t.me.nextPc = e.code.toNat ∧
         t.me.wid = s.widOf s.ctx.core ∧ t.me.taskSeq = s.me.taskSeq + 1 ∧ (∀ l, (t.me.loopOf l).active = false) ∧
         t.me.x = s.me.x ∧ t.me.p = s.me.p ∧ t.me.q = s.me.q ∧ t.pool = s.pool ∧ t.pend = s.pend) ∧
     (s.me.seq = .atCycle n → e.rule = .fin → s.me.faulted = none → s.overhangEnd s.ctx.core = none →
       ∃ t, exec .taskStart s = .next t ∧ t.me.seq = .done ∧ t.me.x = s.me.x ∧ t.pool = s.pool ∧ t.pend = s.pend) ∧
     (s.me.seq = .atCycle n → e.rule = .at → exec .taskStart s = .next (s.raiseTask .deadline 2 (e.v.setWidth 64))) ∧
     (s.me.seq = .atCycle n → e.rule = .gate → exec .taskStart s = .next (s.raiseTask .deviation 0 0)) ∧
     (s.me.inRecov = false → s.me.faulted = none → (s.me.toGate = false ∨ s.me.elastic = false ∨ s.me.expects = []) →
       ((s.me.elastic = true ∨ (e.len ≠ 0xFFFFFFFF ∧ s.me.lcyc = e.len.toNat)) →
         ∃ t, exec .tend s = .next t ∧ t.me.inTask = false ∧ t.me.taskIx = s.me.taskIx + 1 ∧ t.me.x = s.me.x ∧ t.pool = s.pool ∧
           t.pend = s.pend ∧ t.me.tendTick = s.tick ∧ (f.rule = .after → t.me.seq = .atCycle (s.me.cyc + 1 + f.v.toNat)) ∧
           (f.rule = .at → s.myRunTick < f.v.toNat → t.me.seq = .atTick f.v.toNat) ∧
           (f.rule = .at → f.v.toNat ≤ s.myRunTick → t.me.seq = .atCycle (s.me.cyc + 1)) ∧
           (f.rule = .gate → s.me.gate ≠ none → t.me.seq = .gate (s.nextPulse s.ctx.core s.tick)) ∧
           (f.rule = .gate → s.me.gate = none → t.me.seq = .atCycle (s.me.cyc + 1)) ∧
           (f.rule = .fin → t.me.seq = .atCycle (s.me.cyc + 1))) ∧
       (s.me.elastic = false → (e.len = 0xFFFFFFFF ∨ s.me.lcyc ≠ e.len.toNat) → exec .tend s = .next (s.raise .deviation 0 0))) ∧
     (s.me.inRecov = true → ∃ t w, exec .tend s = .next t ∧ t.me.seq = .stopped ∧ t.todo = s.todo ++ [w] ∧ w.instr = .runFreeze ∧
       t.pool = s.pool ∧ t.pend = s.pend) ∧
     (s.me.inTask = true → exec .lengthExpiry s = .next (s.raiseTask .deviation 0 0)) ∧
     (s.me.inTask = false → exec .lengthExpiry s = .next s) ∧
     (s.me.inTask = true ∨ s.me.waits ≠ [] → exec .budgetExpiry s = .next (s.raiseTask .deadline 0 (BitVec.ofNat 64 s.myRunTick))) ∧
     (s.me.inTask = false → s.me.waits = [] → exec .budgetExpiry s = .next s))

/-- BUNDLE_ISSUE, 04_cycles.md R94, R104, R106, R110 to R113 and 02_bundles.md R40 to R44: a bundle of readable words that no check
refuses puts the work of its decoded syllables before what is still to do, and the sequencer goes on behind it after the stall.
Behind the second delay bundle it goes to the transfer's target, which stays pending. At a loop-end bundle the levels that end there
decide in descending order on LC: those at 1 or less exit, the first above 1 loops back to its LB with its stride and rotation,
deferred to the end of the cycle; one in the way of a transfer raises DELAY_BRANCH, decides nothing and commits, a syllable that
would raise a fault of step 5 included (04_cycles.md R106).
An unguarded syllable outside a nullified iteration runs as it decodes; in one only an M syllable takes its occupancy and a LOOP
arms. A fault of a syllable stops the core, and the other sound syllables commit. An address outside the memory or a word without a
head bit raises BAD_TARGET, a bad header, a head bit inside the bundle or a bundle past the memory's end ILLEGAL_ENC, and a word with
an uncorrectable error MEM_UE, and no syllable of the bundle commits (16_faults.md R373). With index 1 in the context it is the check
of the syllable that stands next (04_cycles.md R102, 14_time_power.md R322).
Where the spec leaves the point open, the model's choice stands (log entries 1, 25, 27). -/
def Obligations.BundleIssues : Prop :=
  ∀ (s : State) (h : Header),
    let k := s.me
    let a := k.nextPc
    let here := fun (n : Nat) => ∃ w ∈ s.badWords, s.ctx.core * 32768 + a ≤ w ∧ w < s.ctx.core * 32768 + a + n
    let rest := (List.range (h.length - 1)).map fun i => s.imemAt s.ctx.core (a + 1 + i)
    let ws := rest.map (·.1)
    let lits := ws.drop (2 * h.slots.length)
    let ys := sylsOf h.nlit.toNat h.slots ws
    let delay := decide (0 < k.delayLeft)
    let base : Ctx := { core := s.ctx.core, head := a, len := h.length, stall := h.stall.toNat, lits := lits, delay := delay }
    let works := ys.flatMap (sylWorks k h base (k.nullIter a))
    let fault := bundleFault k h.length lits delay ys
    let readable := a < 32768 ∧ (s.imemAt s.ctx.core a).2 = true ∧ Header.dec (s.imemAt s.ctx.core a).1 = some h ∧
      ¬ here h.length ∧ ¬ here 1 ∧ a + h.length ≤ 32768 ∧ ∀ w ∈ rest, w.2 = false
    let same := fun (t : State) => t.me.x = k.x ∧ t.pool = s.pool
    let on := fun (t : State) => same t ∧ t.me.seq = .issue (k.cyc + 1 + h.stall.toNat)
    let struck := fun (t : State) (code : Nat) => ∀ r, k.run = some r → k.faulted = none → k.inRecov = false →
      k.trap.w0.getLsbD 8 = false → t.me.trap.w0.toNat % 256 = code ∧ t.me.seq = .stopped
    let nothing := fun (t : State) => same t ∧ t.pend = s.pend
    let live := ∀ r, k.run = some r → (s.run r).st = .live
    let writes := fun (t : State) (us : List Upd) => ∃ l, t.pend = s.pend ++ l ∧ l.map (·.upd) = us ∧
      ∀ w ∈ l, w.due = k.cyc ∧ w.clk = s.clkOf s.ctx.core
    let tgt := k.target.getD 0
    let step5 := fun (f : FCode) => f = .delayBranch ∨ f = .elasticOnly
    let inTransfer := k.delayLeft ≠ 0 ∨ ∃ w ∈ works, w.instr.branch = true
    (s.ctx.idx ≠ 1 → readable → fault = none → k.endsAt a = [] →
      ∃ t, exec .bundleIssue s = .next t ∧ on t ∧ t.todo = works ++ s.todo ∧ t.pend = s.pend ∧
        (k.delayLeft ≠ 1 → t.me.nextPc = a + h.length ∧ t.me.delayLeft = k.delayLeft - 1) ∧
        (k.delayLeft = 1 → t.me.nextPc = (if 0 ≤ tgt ∧ tgt ≤ 0x7FFF then tgt.toNat else 0x8000) ∧ t.me.delayLeft = 0) ∧
        (k.delayLeft ≠ 0 → t.me.target = k.target)) ∧
    (s.ctx.idx ≠ 1 → readable → fault = none → k.endsAt a ≠ [] → k.delayLeft = 0 → (∀ w ∈ works, w.instr.branch = false) →
      (∀ pre n post, k.endsAt a = pre ++ n :: post → (∀ m ∈ pre, (k.loopOf m).lc.toNat ≤ 1) → 1 < (k.loopOf n).lc.toNat →
        let l := k.loopOf n
        ∃ t, exec .bundleIssue s = .next t ∧ on t ∧ t.todo = works ++ s.todo ∧ t.me.nextPc = l.lb.toNat ∧
          writes t (pre.map (Upd.loopStep s.ctx.core · false) ++ .loopStep s.ctx.core n true ::
            ((if l.lsx = 0 then [] else [.x s.ctx.core l.lsx (k.xr l.lsx + l.lsd)]) ++
              if l.rotate then [.rotate s.ctx.core] else []))) ∧
      ((∀ m ∈ k.endsAt a, (k.loopOf m).lc.toNat ≤ 1) →
        ∃ t, exec .bundleIssue s = .next t ∧ on t ∧ t.todo = works ++ s.todo ∧ t.me.nextPc = a + h.length ∧
          writes t ((k.endsAt a).map (Upd.loopStep s.ctx.core · false)))) ∧
    (s.ctx.idx ≠ 1 → readable → (∀ f sl, fault = some (f, sl) → step5 f) → k.endsAt a ≠ [] → inTransfer → live → k.inRecov = false →
      ∃ t, exec .bundleIssue s = .next t ∧ struck t 4 ∧ nothing t ∧
        t.todo = (works.map fun w => if w.instr.branch then { w with ctx := { w.ctx with idx := 2 } } else w) ++ s.todo) ∧
    (∀ f sl, s.ctx.idx ≠ 1 → readable → fault = some (f, sl) → (k.endsAt a ≠ [] → step5 f → ¬ inTransfer) → live → k.inRecov = false →
      ∃ t, exec .bundleIssue s = .next t ∧ struck t f.num ∧ same t ∧ (k.endsAt a = [] → t.pend = s.pend) ∧
        t.todo = (((ys.filter fun y => (sylFault k h.length lits y).isNone).flatMap (sylWorks k h base (k.nullIter a))).filter
          fun w => some sl != some w.ctx.slot) ++ s.todo) ∧
    (k.delayLeft ≠ 0 → k.elastic = true → (∀ y ∈ ys, sylFault k h.length lits y = none) →
      slotConflict (ys.map fun y => (y.slot, y.instr.dests)) = none → (∃ y ∈ ys, y.instr.transfer = true) →
      ∃ sl, fault = some (.delayBranch, sl)) ∧
    (∀ (y : SylAt) z, y.dec = .ok z → z.gp = 0 → z.gs = false → h.firstOnly.getLsbD y.slot.num = false →
      h.lastOnly.getLsbD y.slot.num = false →
      ∃ c d : Ctx, sylWorks k h base false y = [{ ctx := c, instr := .bundleIssue }, { ctx := d, instr := z.instr }] ∧
        d.core = s.ctx.core ∧ d.slot = y.slot ∧ d.head = a ∧ d.exec = true ∧ d.idx = 0) ∧
    ((∃ n < 6, (k.loopOf n).active = true ∧ (k.loopOf n).padded = true ∧ (k.loopOf n).la = 0 ∧ (k.loopOf n).lb.toNat ≤ a ∧
      a ≤ (k.loopOf n).le.toNat) ↔ k.nullIter a = true) ∧
    (∀ (y : SylAt) z, y.dec = .ok z →
      (z.instr.kind = .syl .m → ∃ d : Ctx, sylWorks k h base true y = [{ ctx := d, instr := z.instr }] ∧ d.exec = false ∧
        d.core = s.ctx.core) ∧
      (z.instr.kind ≠ .syl .m → (∀ a b c d e o, z.instr ≠ .loop a b c d e o) → (∀ a b c d e o, z.instr ≠ .loopi a b c d e o) →
        sylWorks k h base true y = [])) ∧
    (s.ctx.idx ≠ 1 → (32768 ≤ a ∨ (¬ here 1 ∧ (s.imemAt s.ctx.core a).2 = false)) →
      ∃ t, exec .bundleIssue s = .next t ∧ nothing t ∧ struck t 3) ∧
    (s.ctx.idx ≠ 1 → a < 32768 → ¬ here 1 → (s.imemAt s.ctx.core a).2 = true →
      (Header.dec (s.imemAt s.ctx.core a).1 = none ∨ (Header.dec (s.imemAt s.ctx.core a).1 = some h ∧
        (32768 < a + h.length ∨ (¬ here h.length ∧ ∃ w ∈ rest, w.2 = true)))) →
      ∃ t, exec .bundleIssue s = .next t ∧ nothing t ∧ struck t 1) ∧
    (s.ctx.idx ≠ 1 → a < 32768 → here 1 → ∃ t, exec .bundleIssue s = .next t ∧ nothing t ∧ struck t 31 ∧
      ∃ e ∈ t.testing, e.unit = .imemQuarter s.ctx.core (a / 8192 % 4)) ∧
    (s.ctx.idx ≠ 1 → a < 32768 → ¬ here 1 → (s.imemAt s.ctx.core a).2 = true → Header.dec (s.imemAt s.ctx.core a).1 = some h →
      a + h.length ≤ 32768 → here h.length → ∃ t, exec .bundleIssue s = .next t ∧ nothing t ∧ struck t 31 ∧
        ∃ e ∈ t.testing, ∃ w ∈ s.badWords, e.unit = .imemQuarter s.ctx.core (w / 8192 % 4)) ∧
    (s.ctx.idx = 1 → (s.todo = [] → exec .bundleIssue s = .next s) ∧ ∀ w r, s.todo = w :: r →
      ((s.core w.ctx.core).early = false → w.instr.rails &&& (s.core w.ctx.core).rails = w.instr.rails → exec .bundleIssue s = .next s) ∧
      (∀ f, s.preFault w.ctx.core (BitVec.ofNat 4 w.ctx.req) w.instr = some f →
        exec .bundleIssue s = .next (({ s with todo := r, ctx := w.ctx }).raise f 0 0)))

/-- RESULT_WRITEBACK, 04_cycles.md R98, R100: a write whose cycle ends performs then: a register's value is read from then on, a
pool's bytes stand at their address, and no other register of any kind, no tag, no other byte of any memory changes; one whose
cycle goes on stays pending. Two writes of one register in one cycle both fail to perform, and WRITE_COLLISION strikes the core.
Where the spec leaves the point open, the model's choice stands (log entry 1). -/
def Obligations.WritebackPerforms : Prop :=
  ∀ (s : State) (w : PWrite) (c : Nat) (r : XReg) (v : X) (a : Nat) (bs : List (Option Byte)) (wh : Bool),
    let rest := fun (t : State) => t.tags = s.tags ∧ t.hbm = s.hbm ∧ t.host = s.host ∧ t.imem = s.imem ∧ t.chans = s.chans
    let noted := fun (t : State) (d : Nat) (x : Table X) =>
      ∃ lx rn, t.core d = { s.core d with x := x, lastX := lx, running := rn }
    (s.pend = [w] → s.ripe s.closing w = true → w.upd = .x c r v → r ≠ 0 →
      ∃ t, exec .resultWriteback s = .next t ∧ (t.core c).xr r = v ∧ (∀ j, j ≠ r → (t.core c).xr j = (s.core c).xr j) ∧
        (∃ x, noted t c x) ∧ (∀ d, d ≠ c → noted t d (s.core d).x) ∧ t.pool = s.pool ∧ rest t ∧ t.runs = s.runs ∧ t.pend = []) ∧
    (s.pend = [w] → s.ripe s.closing w = true → w.upd = .pool c a bs wh → w.src.core = c → w.src.rx = none →
      (s.core c).rails.getLsbD 2 = true →
      ∃ t, exec .resultWriteback s = .next t ∧ t.pool = s.pool.write (poolKey c a) bs ∧ (∀ d, noted t d (s.core d).x) ∧
        rest t ∧ t.runs = s.runs ∧ t.pend = []) ∧
    (s.pend = [w] → s.ripe s.closing w = false →
      ∃ t, exec .resultWriteback s = .next t ∧ (∀ d, noted t d (s.core d).x) ∧ t.pool = s.pool ∧ rest t ∧ t.runs = s.runs ∧
        t.pend = [w]) ∧
    (∀ w', s.pend = [w, w'] → s.ripe s.closing w = true → s.ripe s.closing w' = true → r ≠ 0 → w.upd = .x c r v →
      (∃ v', w'.upd = .x c r v') →
      ∃ t, exec .resultWriteback s = .next t ∧ t.pool = s.pool ∧ rest t ∧ t.pend = [] ∧
        (∀ d, let y := t.core d
          let z := s.core d
          y.x = z.x ∧ y.p = z.p ∧ y.q = z.q ∧ y.rm = z.rm ∧ y.srs = z.srs ∧ y.fpstat = z.fpstat ∧ y.early = z.early ∧
          y.status = z.status ∧ y.rrb = z.rrb ∧ y.loops = z.loops ∧ y.tshape = z.tshape ∧ y.ftsel = z.ftsel ∧ y.spstk = z.spstk ∧
          y.wid = z.wid ∧ y.part = z.part) ∧
        ∀ n, (s.core c).run = some n → (s.core c).faulted = none → (s.core c).inRecov = false →
          (s.core c).trap.w0.getLsbD 8 = false → w.src.rx = none → w'.src.rx = none →
          (t.core c).trap.w0.toNat % 256 = 8 ∧ (t.core c).seq = .stopped)

/-- The life of a run, 01_machine.md R9, R16, R26, R27 and 10_channels.md R241: at T0 an armed run is live with every register of its
cores at its value after reset (05_registers.md R132, R136, 03_numbers.md R73, R87, R89); a missing arm message ends a gang's run;
when every core has passed its END entry and the scripts have stopped, the run has ended and its cores are free, and one whose
scripts still run goes on until they stop or 65,536 cycles have gone by.
Where the spec leaves the point open, the model's choice stands (log entries 8, 11). -/
def Obligations.RunsStartAndEnd : Prop :=
  ∀ (s : State) (part dev t0 : Nat),
    let r := s.ctx.run
    let ru := s.run r
    (ru.st = .armed → ∃ t, exec .runStart s = .next t ∧ (t.run r).st = .live ∧ (t.run r).tb = ru.last.t0 ∧ t.pool = s.pool ∧
      t.hbm = s.hbm ∧ ∀ c ∈ ru.cores, (t.core c).run = some r ∧ (∀ j, (t.core c).xr j = 0) ∧ (t.core c).p = 0 ∧ (t.core c).cyc = 0 ∧
        (∀ j, j ≠ 0 → (t.core c).qr j = 0) ∧ (∀ j, Table.get 0 (t.core c).tok j = 0) ∧ (t.core c).rm = 0 ∧
        (t.core c).srs = 0x9E3779B9 ^^^ BitVec.ofNat 32 c ∧ (t.core c).fpstat = 0 ∧ (t.core c).early = ru.last.early ∧
        (t.core c).status = 0 ∧ (t.core c).rrb = 0 ∧ (t.core c).ftsel = 0 ∧ (t.core c).spstk = 0 ∧
        (∀ l, (t.core c).loopOf l = {}) ∧ (∀ i, (t.core c).shape i = 0x7F7F) ∧ (∀ i, (t.core c).fmtOf i = 0x0004318C) ∧
        (∀ i, Table.get 0x3F80 (t.core c).scale i = 0x3F80) ∧ (t.core c).elastic = false) ∧
    (ru.last.gang = true →
      (s.missing ru = [] → ∃ t, exec .quorumCheck s = .next t ∧ t.cores = s.cores ∧ (t.run r).st = ru.st ∧ (t.run r).checked = true) ∧
      (s.missing ru ≠ [] → ∃ t, exec .quorumCheck s = .next t ∧ (t.run r).st = .ended)) ∧
    (∃ t, exec (.armMessage part (dev, t0)) s = .next t ∧ (part, dev, t0) ∈ t.arms ∧ t.cores = s.cores ∧ t.runs = s.runs) ∧
    (ru.st = .live → ru.cause = none → (∀ c ∈ ru.cores, (s.core c).inBarrier = false) →
      let stopped := ∀ cn ∈ ru.chans, (s.chan cn).run ≠ some r ∨ (s.chan cn).script ≠ .running
      (stopped → ∃ t, exec .runEnd s = .next t ∧ (t.run r).st = .ended ∧ ∀ c ∈ ru.cores, (t.core c).run = none) ∧
      (¬ stopped → ∃ t, exec .runEnd s = .next t ∧ (t.run r).st = .runon (ru.endTick + 65536) ∧ t.cores = s.cores)) ∧
    (ru.st = .live → (∃ c ∈ ru.cores, (s.core c).inBarrier = true) → exec .runEnd s = .next s) ∧
    (∀ u, ru.st = .runon u → ∃ t, exec .scriptRunonLimit s = .next t ∧ (t.run r).st = .ended)

/-- Freezes, recovery, restart and aborts, 01_machine.md R28 to R33, 16_faults.md R362 to R375.
Pre-emption and the yield gap, 01_machine.md R33, R34, 16_faults.md R375.
Where the spec leaves the point open, the model's choice stands (log entries 15, 16, 18). -/
def Obligations.FreezesRecoveryPreemption : Prop :=
  (∀ (s : State) (xd xa : XReg) (w : BitVec 3) (code : BitVec 32) (part tickA phi : Nat) (c : Cause),
     let r := s.ctx.run
     let ru := s.run r
     (ru.st = .live → ru.cause = some c → ru.last.recovery = true → ∃ t, exec .runFreeze s = .next t ∧ (t.run r).st = .frozen s.tick ∧
       (t.run r).recAt = some (s.tick + 80) ∧ t.pool = s.pool ∧ t.cores = s.cores) ∧
     (ru.st = .live → ru.cause = some c → ru.last.recovery = false → ru.last.gang = false →
       ∃ t, exec .runFreeze s = .next t ∧ (t.run r).st = .ended) ∧
     (∀ q, ru.st = .frozen phi → ru.recov = some q → (s.core q.core).seq = .stopped → ru.restartAt = none →
       ∃ t, exec .runFreeze s = .next t ∧ (t.run r).st = .ended) ∧
     (ru.st = .frozen phi → ∃ t q, exec .recoveryStart s = .next t ∧ (t.run r).recov = some q ∧ q.saved = s.core ru.last.recCore ∧
       q.bytes = s.poolRead ru.last.recCore 0x17F000 4096 ∧ (t.core ru.last.recCore).inRecov = true ∧
       (t.core ru.last.recCore).nextPc = ru.last.recCode ∧ (t.core ru.last.recCore).x = [] ∧ t.pool = s.pool) ∧
     exec (.rdfrCore xd xa w) s = .next (s.deferX 3 xd
       (if (s.xr xa).toNat < 512 ∧ s.sameRun s.ctx.core (s.xr xa).toNat = true then (s.core (s.xr xa).toNat).trap.word w else 0)) ∧
     exec (.rdfrCause xd w) s = .next (s.deferX 3 xd (s.causeRecord.word w)) ∧
     (∀ k, s.me.run = some k →
       ((s.run k).last.gang = true → exec (.thaw xd) s = .next (s.deferX 0 xd 2)) ∧
       ((s.run k).last.gang = false → s.resumable (s.run k) = false → exec (.thaw xd) s = .next (s.deferX 0 xd 1)) ∧
       ((s.run k).last.gang = false → s.resumable (s.run k) = true → ∃ t, exec (.thaw xd) s = .next t ∧
         t.pend = (s.deferX 0 xd 0).pend ∧ t.me.seq = .stopped ∧ (t.run k).restartAt = some (s.cycleTick s.ctx.core 32 s.tick) ∧
         t.pool = s.pool) ∧
       (∃ t, exec (.abort code) s = .next t ∧ t.me.seq = .stopped ∧ (t.run k).abortCode = code ∧ t.pool = s.pool ∧ t.pend = s.pend)) ∧
     (s.ctx.idx = 0 → ru.st = .frozen phi → ru.cause = some c → ∃ t, exec .runRestart s = .next t ∧ (t.run r).st = .live ∧
       (t.run r).tb = s.tick - c.tau ∧ (t.run r).cause = none ∧ (t.run r).preempt = ru.preempt ∧
       t.pool = s.pool ∧ t.pend = s.pend) ∧
     (s.runs = [(r, ru)] → ru.part = part → ru.last.gang = true → ru.st = .live → ∃ t, exec (.abortNotice part tickA) s = .next t ∧
       (t.run r).abortAt = some (min tickA (ru.abortAt.getD tickA)) ∧
       (ru.abortAt = none → ru.cause = none → ∃ d, (t.run r).cause = some d ∧ d.code = 30 ∧ d.kind = 3)) ∧
     (∃ t, exec .gangAbortTick s = .next t ∧ (t.run r).st = .ended)) ∧
  (∀ (s : State) (phi : Nat) (c : Cause),
     let r := s.ctx.run
     let ru := s.run r
     (ru.st ≠ .ended → ru.last.yieldGap ≠ 0 → ru.last.gang = false → ∃ t, exec .preemptRequest s = .next t ∧
       (t.run r).preempt = true ∧ (t.run r).st = ru.st ∧ t.cores = s.cores ∧ t.pool = s.pool) ∧
     (ru.st = .ended ∨ ru.last.yieldGap = 0 ∨ ru.last.gang = true → exec .preemptRequest s = .next s) ∧
     (∃ t d, exec .preemptFreeze s = .next t ∧ (t.run r).st = .frozen s.tick ∧ (t.run r).cause = some d ∧ d.code = 38 ∧
       d.trap.w1 = BitVec.ofInt 64 ((s.yieldBegin ru : Int) - ru.tb) ∧ (t.run r).record = d.trap ∧ t.cores = s.cores ∧ t.pool = s.pool) ∧
     (ru.st = .frozen phi → ru.cause = some c → c.code = 38 → s.contextFree ru = true →
       (ru.restartAt = none → ∃ t, exec .preemptResume s = .next t ∧ (t.run r).restartAt = some (s.tick + 1) ∧
         (ru.context = none → t.cores = s.cores) ∧ ∀ x n k, ru.context = some x → x.cores = [(n, k)] → ru.contextChans = [] → t.core n = k) ∧
       (∀ u, ru.restartAt = some u → u ≤ s.tick → ∃ t, exec .preemptResume s = .next t ∧ (t.run r).st = .live ∧
         (t.run r).tb = s.tick - c.tau)) ∧
     (∀ pre c post, ru.cores = pre ++ c :: post → (∀ d ∈ pre, s.gapOf ru d ≤ ru.last.yieldGap) → ru.last.yieldGap < s.gapOf ru c →
       exec .yieldGapExpiry s = .next (({ s with ctx := { s.ctx with core := c } }).raiseTask .deadline 3
         (BitVec.ofNat 64 ((s.core c).cycTick - ru.tb)))) ∧
     ((∀ c ∈ ru.cores, s.gapOf ru c ≤ ru.last.yieldGap) → exec .yieldGapExpiry s = .next s))

/-- Soft errors and verdicts, 14_time_power.md R325, 16_faults.md R373, R376: an uncorrectable error of a pool byte raises MEM_UE with
the pool address on the core that read it and files the bank's test, which begins when the run stands frozen and the rail is at 7,
and is complete within 110,000 ticks; one of a core's state raises MEM_UE, one of an instruction word stands until its bundle
issues, one of an HBM burst until the burst is read;
corrected errors are counted by unit, the sixteenth retires the unit, and a self-test is due; a verdict ends the unit's tests that
run, enters the record, repairs a protected burst, raises the floor after a bank's low-voltage error, and retires a unit that
failed.
Where the spec leaves the point open, the model's choice stands (log entry 17). -/
def Obligations.ErrorsAndVerdicts : Prop :=
  ∀ (s : State) (core addr by_ slot head r : Nat) (eng passed : Bool) (u : Unit'),
    let struck := fun (t : State) => (s.core by_).run = some r → (s.core by_).faulted = none → (s.core by_).inRecov = false →
      (s.core by_).trap.w0.getLsbD 8 = false → (t.core by_).trap.w0.toNat % 256 = 31 ∧ (t.core by_).seq = .stopped
    (∃ t x, exec (.poolUe (.pool core addr eng) by_ slot head) s = .next t ∧ t.pool = s.pool ∧ t.hbm = s.hbm ∧
      t.testing = s.testing ++ [x] ∧ x.unit = .poolBank core (addr / 65536) ∧ x.run = (s.core core).run ∧
      x.started = false ∧ x.limit = some (s.tick + 110000) ∧ struck t ∧
      ((s.core by_).run = some r → (s.core by_).faulted = none → (s.core by_).inRecov = false →
        (s.core by_).trap.w0.getLsbD 8 = false → (t.core by_).trap.w2 =
          BitVec.ofNat 64 (if core = by_ then addr else 2 ^ 30 + core * 2 ^ 21 + addr))) ∧
    (∀ (x : Test) (l : Nat), x.started = false → s.testable x.unit = true → x.limit = some l → 7 ≤ s.railPoint 2 → s.tick < l →
      ∃ y t d, s.beginTest x = (y, t) ∧ y.unit = x.unit ∧ y.started = true ∧ y.due = some d ∧ s.tick < d ∧ d ≤ l) ∧
    (∀ (x : Test) (l : Nat), x.limit = some l → s.testable x.unit = false ∨ s.railPoint 2 < 7 → s.beginTest x = (x, s)) ∧
    (∃ t x, exec (.poolUe .state by_ slot head) s = .next t ∧ t.pool = s.pool ∧ t.hbm = s.hbm ∧ t.testing = s.testing ++ [x] ∧
      x.unit = .coreState by_ ∧ x.run = (s.core by_).run ∧ struck t) ∧
    exec (.poolUe (.imem core addr) by_ slot head) s = .next { s with badWords := (core * 32768 + addr) :: s.badWords } ∧
    exec (.poolUe (.hbm core addr) by_ slot head) s = .next { s with hbmUe := (core * (49152 * 512) + addr) :: s.hbmUe } ∧
    (let n := ((s.errors.find? fun e => e.1 == u).map (·.2)).getD 0
     ∃ t, exec (.correctedError u) s = .next t ∧ t.pool = s.pool ∧ t.hbm = s.hbm ∧ t.errors.head? = some (u, n + 1) ∧
      (∃ x ∈ t.testing, x.unit = u) ∧ (n = 15 → s.unitBusy u = true → u ∈ t.retiring) ∧
      (∀ k, n = 15 → u = .coreState k → s.unitBusy u = false → k ∈ t.caps.retired)) ∧
    ((∀ x ∈ s.testing, ¬ (x.unit = u ∧ x.started = true)) → exec (.selfTestVerdict u passed) s = .next s) ∧
    ((∃ x ∈ s.testing, x.unit = u ∧ x.started = true) →
      ∃ t, exec (.selfTestVerdict u passed) s = .next t ∧ t.pool = s.pool ∧
        (∀ x, x ∈ t.testing ↔ x ∈ s.testing ∧ ¬ (x.unit = u ∧ x.started = true)) ∧
        (passed = false → s.unitBusy u = true → u ∈ t.retiring) ∧
        (∀ c b, u = .hbmBurst c b → s.isPoisoned (c * (49152 * 512) + b) = true → s.protected_ (c * (49152 * 512) + b) = true →
          t.hbm = s.hbm.write (32 * (c * (49152 * 512) + b)) ((s.stripeXor (c * (49152 * 512) + b)).map some) ∧
          t.isPoisoned (c * (49152 * 512) + b) = false) ∧
        (∀ c b, u = .poolBank c b → passed = true → u ∈ s.lowTests → s.floor < 7 → t.floor = s.floor + 1) ∧
        (∀ c b x k n d, u = .poolBank c b → s.testing = [x] → x.run = some r → (s.run r).cores = [k] → (s.frozenCore k).ue = some u →
          (s.run r).cause = some d → d.byCore = some (k, n) → (s.run r).record.w0.toNat % 512 = 256 + 31 → (s.run r).record.w5 = 0 →
          (t.run r).record.w5 = BitVec.ofNat 64 (b % 65536 * 256 + if passed then 1 else 2)))

/-! ## Far memory -/

/-- LDF, STF and AMO at issue, 12_order.md R287, R291: an address outside 48 bits or misaligned raises XLATE at c0; any other leaves a
request with its operands and holds issue, and a translation that the unit holds answers at c0 + 6. Registers and memory stay as
they are.
What follows a far request, 12_order.md R279 to R281, R287, R291, 10_channels.md R254, 19_host.md R399: its walk, its translation,
its post to this device's home or a peer's, its service at the home, the performing of a store, or its discard where a reach map has
cut it off (18_prog_rings.md R389), the handler's entry or the host's atomic, and the return of its value to the waiting syllable.
Where the spec leaves the point open, the model's choice stands (log entry 34). -/
def Obligations.FarRequests : Prop :=
  (∀ (s : State) (xd xa xb : XReg) (acq rel : Option Scope) (sign : Bool) (z : BitVec 2) (imm : BitVec 32) (o : AmoOrd) (sc : Scope)
     (h : BitVec 5), s.me.inTask = true → s.me.faulted = none →
     let a := (s.xr xa + imm.signExtend 64).toNat
     let c := s.ctx.core
     let starts := fun (out : Out) (d : Option XReg) (va : Nat) (p : Far → Prop) => ∃ t, out = .next t ∧ p (t.far s.nextFar) ∧
       (t.far s.nextFar).va = va ∧ (t.far s.nextFar).core = c ∧ (t.far s.nextFar).part = s.partOf c ∧ t.me.seq = .wait ∧
       ((s.cached (coreUnit c) (s.partOf c) va).isSome = true → (t.far s.nextFar).stage = .translating ∧
         ∃ q ∈ t.me.sched, q.due = s.me.cyc + 6 ∧ q.work.instr = .translationAnswer ∧ q.work.ctx.req = s.nextFar) ∧
       (s.cached (coreUnit c) (s.partOf c) va = none → (t.far s.nextFar).stage = .walking) ∧
       (∃ w ∈ t.me.waits, w.what = .far s.nextFar ∧ w.xd = d) ∧ t.me.x = s.me.x ∧ t.pool = s.pool ∧ t.hbm = s.hbm ∧ t.pend = s.pend
     (a < 2 ^ 48 → a % 2 ^ z.toNat = 0 →
       starts (exec (.ldf xd xa acq sign z imm) s) (some xd) a (fun f => f.kind = .load sign ∧ f.size = 2 ^ z.toNat ∧
         f.acq = acq.isSome ∧ f.rel = none) ∧
       starts (exec (.stf xa xb rel z imm) s) none a (fun f => f.kind = .store ∧ f.size = 2 ^ z.toNat ∧ f.rel = rel ∧
         f.data = leBytes (2 ^ z.toNat) (s.xr xb).toNat)) ∧
     ((s.xr xa).toNat < 2 ^ 48 → (s.xr xa).toNat % 8 = 0 →
       starts (exec (.amo xd xa xb o sc h) s) (some xd) (s.xr xa).toNat (fun f => f.kind = .amo ∧ f.h0 = s.xr xb ∧
         f.h1 = s.xr xd ∧ f.handler = h.toNat ∧ f.rel = if o = .rel ∨ o = .acqrel then some sc else none)) ∧
     ((2 ^ 48 ≤ a ∨ a % 2 ^ z.toNat ≠ 0) →
       exec (.ldf xd xa acq sign z imm) s = .next (s.raise .xlate (s.xr xa + imm.signExtend 64) 0) ∧
       exec (.stf xa xb rel z imm) s = .next (s.raise .xlate (s.xr xa + imm.signExtend 64) 0)) ∧
     ((2 ^ 48 ≤ (s.xr xa).toNat ∨ (s.xr xa).toNat % 8 ≠ 0) →
       exec (.amo xd xa xb o sc h) s = .next (s.raise .xlate (s.xr xa) 0))) ∧
  (∀ (s : State) (hm : Home) (bs : List Byte) (src : Bool),
     let n := s.ctx.req
     let f := s.far n
     let answered := fun (o : Out) (v : X) => ∃ t, o = .next t ∧ t.pool = s.pool ∧ t.hbm = s.hbm ∧ t.host = s.host ∧
       ∀ w ∈ (t.core f.core).waits, w.isFor n = true → w.ans = some v
     let waits := (s.core f.core).waitsFor n = true
     (s.translated f = some (.ok hm) →
       (f.rel.isSome = true → exec .translationAnswer s = .next (s.setFar n (some { f.toHome hm with stage := .held }))) ∧
       (f.rel = none → (hm.host = true ∨ hm.dev = s.devIndex) → ∃ t, exec .translationAnswer s = .next t ∧
         (t.far n).stage = .sent ∧ (t.far n).home = hm ∧ s.tick < (t.far n).at_ ∧ t.pool = s.pool ∧ t.hbm = s.hbm ∧ t.host = s.host ∧
         (f.kind = .store → waits → ∀ w ∈ (t.core f.core).waits, w.isFor n = true → w.ans = some 0)) ∧
       (f.rel = none → hm.host = false → hm.dev ≠ s.devIndex → (s.part f.part).reach.getLsbD hm.dev = true →
         let sends := fun (m : Wire) => ∃ t, exec .translationAnswer s = .next t ∧ t.wireOut = (s.tick, hm.dev, m) :: s.wireOut ∧
           (t.far n).stage = .sent ∧ t.pool = s.pool ∧ t.hbm = s.hbm ∧ t.host = s.host
         (f.kind = .load src → sends (.farRead s.devIndex n f.part hm.frame hm.off f.size)) ∧
         (f.kind = .store → sends (.farWrite s.devIndex n f.part hm.frame hm.off f.data)) ∧
         (f.kind = .amo → sends (.amo s.devIndex n f.part hm.frame hm.off f.va f.handler f.h0 f.h1)))) ∧
     (∀ e, s.translated f = some (.error e) → f.origin ≠ 32 → s.farAlive f = true →
       exec .translationAnswer s = .next ((s.dropFar n).raiseOn f.core e f.src
         (if e = .peerUnreachable then 0 else BitVec.ofNat 64 f.va) 0)) ∧
     (s.translated f = none → ∃ t, exec .translationAnswer s = .next t ∧ (t.far n).stage = .walking ∧ (t.far n).tab = none ∧
       (t.far n).va = f.va ∧ t.cores = s.cores ∧ t.pool = s.pool ∧ t.hbm = s.hbm ∧ t.host = s.host) ∧
     (Table.get none s.fars n = some f → f.stage = .walking → s.walkLeft f = [] → f.chan = none → f.origin = s.devIndex →
       f.kind ≠ .qapp → waits → ∃ t, exec .guestAccess s = .next t ∧ (t.far n).stage = .translating ∧ t.pool = s.pool ∧ t.hbm = s.hbm ∧
         ∃ q ∈ (t.core f.core).sched, q.work.instr = .translationAnswer ∧ q.work.ctx.req = n ∧ f.src.cyc + 6 ≤ q.due) ∧
     (Table.get none s.fars n = some f → f.stage = .sent →
       (f.kind = .load src → s.homeRead f.part f.home f.size = some bs → f.size ≤ 8 → f.origin = s.devIndex →
         ∃ t, exec .guestAccess s = .next t ∧
         (t.far n).value = BitVec.ofNat 64 (ofLe bs) ∧ (t.far n).stage = .served ∧ t.pool = s.pool ∧ t.hbm = s.hbm) ∧
       (f.kind = .store → exec .guestAccess s = .next { s with todo := onReq n .farStorePerform :: s.todo }) ∧
       (f.kind = .amo → (32 ≤ f.handler ∨ Table.get 0 s.cobFree f.home.unit ≤ s.tick →
           exec .guestAccess s = .next { s with todo := onReq n .handlerRun :: s.todo }) ∧
         (f.handler < 32 → s.tick < Table.get 0 s.cobFree f.home.unit → exec .guestAccess s = .next s))) ∧
     (s.gone n = true → exec .farStorePerform s = .next s) ∧
     (s.gone n = false → f.cut = true → f.stage = .sent → s.farAlive f = true → ∃ t, exec .farStorePerform s = .next t ∧
       (t.core f.core).discarded = (s.core f.core).discarded + 1 ∧ t.fars = (s.fars.filter fun e => e.1 != n) ∧ t.pool = s.pool ∧
       t.hbm = s.hbm ∧ t.host = s.host) ∧
     (s.gone n = false → f.cut = false → f.stage ≠ .served → f.origin = s.devIndex →
       let performs := fun (p : State → Prop) => ∃ t, exec .farStorePerform s = .next t ∧ p t ∧ t.pool = s.pool ∧
         t.fars = s.fars.filter fun e => e.1 != n
       (f.host = true → performs fun t => t.host = s.host.write (4096 * f.frame + f.off) (f.data.map some) ∧ t.hbm = s.hbm) ∧
       (f.host = false → s.sealedTile f.frame = false → performs fun t => t.hbm = (s.putTile f.frame f.off f.data).hbm) ∧
       (f.host = false → s.sealedTile f.frame = true → s.unseal f.part f.frame = none →
         ∃ t, exec .farStorePerform s = .next t ∧ (t.far n).err = 1 ∧ t.hbm = s.hbm ∧ t.pool = s.pool)) ∧
     (s.farHeld n f = false → f.err = 0 → waits →
       (f.kind = .load src → answered (exec .farDataReturn s) (fieldOf src (8 * f.size) f.value.toNat)) ∧
       answered (exec .amoResult s) f.value) ∧
     (s.homeRead f.part { f.home with off := f.off / 64 * 64 } 64 = some bs →
       (f.handler < 32 → ∃ t c, exec .handlerRun s = .next t ∧
         t.cob = some c ∧ c.req = n ∧ c.pc = 0 ∧ c.h0 = f.h0 ∧ c.h1 = f.h1 ∧ c.h2 = BitVec.ofNat 64 f.va ∧ c.line = bs ∧
         c.w0 = f.off / 8 % 8 ∧ c.handler = f.handler ∧ c.wrote = false ∧ t.hbm = s.hbm ∧ t.pool = s.pool ∧
         (f.kind = .amo → f.stage = .sent → s.sealedTile f.frame = false →
           Table.get 0 t.cobFree f.home.unit = max s.tick (Table.get 0 s.cobFree f.home.unit) + s.handlerNeed f.part f.handler)) ∧
       (f.origin = 32 → s.devIndex ≠ 32 → f.host = false → s.sealedTile f.frame = false →
         let old := BitVec.ofNat 64 (ofLe ((bs.drop (f.off % 64)).take 8))
         let swaps := fun (v : X) => ∃ t, exec .handlerRun s = .next t ∧
           t.hbm = (s.putTile f.frame f.off (leBytes 8 v.toNat)).hbm ∧ t.pool = s.pool ∧
           t.wireOut = (s.tick, 32, .answer f.reply old 0) :: s.wireOut
         (f.handler = 32 → swaps (old + f.h0)) ∧ (f.handler = 33 → swaps f.h0) ∧
         (f.handler = 34 → swaps (if old = f.h1 then f.h0 else old)))))

/-- The cobbler's micro-instructions, 12_order.md R294: each writes one register, the line or the flag, leaves the others and HBM, host
memory and pools as they are, and goes on with the next word.
Skips, RET and handler errors, 12_order.md R292, R294, R295: a skip of n goes n words further when the flag has its value; a skip of 0
is a handler error; RET ends the handler with its register as the answer and writes the line back only after a STW. -/
def Obligations.Cobblers : Prop :=
  (∀ (s : State) (c : Cob) (d a b : BitVec 2) (i : BitVec 3) (k : BitVec 16), s.cob = some c →
     let go := fun (o : Out) (p : Cob → Prop) => ∃ t e, o = .next t ∧ t.cob = some e ∧ e.pc = c.pc + 1 ∧ p e ∧ t.hbm = s.hbm ∧
       t.host = s.host ∧ t.pool = s.pool ∧ t.cores = s.cores
     let sets := fun (e : Cob) (v : X) => e.reg d = v ∧ (∀ j, j ≠ d → e.reg j = c.reg j) ∧ e.f = c.f ∧ e.line = c.line
     go (exec (.cobLdw d i) s) (fun e => sets e (BitVec.ofNat 64 (ofLe ((c.line.drop (8 * ((c.w0 + i.toNat) % 8))).take 8)))) ∧
     (c.line.length = 64 → go (exec (.cobStw a k) s) (fun e => (∀ j, e.reg j = c.reg j) ∧ e.f = c.f ∧ e.wrote = true ∧ e.line.length = 64 ∧
       (e.line.drop (8 * ((c.w0 + k.toNat) % 8))).take 8 = leBytes 8 (c.reg a).toNat ∧
       ∀ j < 64, j / 8 ≠ (c.w0 + k.toNat) % 8 → e.line[j]? = c.line[j]?)) ∧
     go (exec (.cobAdd d a b) s) (fun e => sets e (c.reg a + c.reg b)) ∧ go (exec (.cobSub d a b) s) (fun e => sets e (c.reg a - c.reg b)) ∧
     go (exec (.cobAnd d a b) s) (fun e => sets e (c.reg a &&& c.reg b)) ∧ go (exec (.cobOr d a b) s) (fun e => sets e (c.reg a ||| c.reg b)) ∧
     go (exec (.cobXor d a b) s) (fun e => sets e (c.reg a ^^^ c.reg b)) ∧
     go (exec (.cobMins d a b) s) (fun e => sets e (BitVec.ofInt 64 (min (c.reg a).toInt (c.reg b).toInt))) ∧
     go (exec (.cobMaxs d a b) s) (fun e => sets e (BitVec.ofInt 64 (max (c.reg a).toInt (c.reg b).toInt))) ∧
     go (exec (.cobMinn d a b) s) (fun e => sets e (BitVec.ofNat 64 (min (c.reg a).toNat (c.reg b).toNat))) ∧
     go (exec (.cobMaxn d a b) s) (fun e => sets e (BitVec.ofNat 64 (max (c.reg a).toNat (c.reg b).toNat))) ∧
     go (exec (.cobCeq a b) s) (fun e => (∀ j, e.reg j = c.reg j) ∧ e.line = c.line ∧ e.f = (c.reg a == c.reg b)) ∧
     go (exec (.cobMov d a) s) (fun e => sets e (c.reg a)) ∧ go (exec (.cobMovi d k) s) (fun e => sets e (k.signExtend 64))) ∧
  (∀ (s : State) (c : Cob) (a : BitVec 2) (n : BitVec 5) (f : Far), s.cob = some c →
     (n ≠ 0 → ∀ g : Bool, ∃ t e, exec (if g then .cobSkipT n else .cobSkipF n) s = .next t ∧ t.cob = some e ∧
       e.pc = c.pc + 1 + (if c.f = g then n.toNat else 0) ∧ (∀ j, e.reg j = c.reg j) ∧ e.line = c.line ∧ e.f = c.f ∧ t.hbm = s.hbm) ∧
     (Table.get none s.fars c.req = some f → f.origin = s.devIndex →
       (c.wrote = false → ∃ t, exec (.cobRet a) s = .next t ∧ t.cob = none ∧ (t.far c.req).value = c.reg a ∧ (t.far c.req).err = 0 ∧
         t.hbm = s.hbm ∧ t.host = s.host ∧ t.pool = s.pool) ∧
       (c.wrote = true → f.host = true → ∃ t, exec (.cobRet a) s = .next t ∧ t.cob = none ∧ (t.far c.req).value = c.reg a ∧
         (t.far c.req).err = 0 ∧ t.host = s.host.write (4096 * f.frame + f.off / 64 * 64) (c.line.map some) ∧ t.hbm = s.hbm) ∧
       (c.wrote = true → f.host = false → s.sealedTile f.frame = false → ∃ t, exec (.cobRet a) s = .next t ∧ t.cob = none ∧
         (t.far c.req).value = c.reg a ∧ (t.far c.req).err = 0 ∧ t.hbm = (s.putTile f.frame (f.off / 64 * 64) c.line).hbm) ∧
       (∀ g : Bool, ∃ t, exec (if g then .cobSkipT 0 else .cobSkipF 0) s = .next t ∧ t.cob = none ∧ (t.far c.req).err = 2 ∧
         t.hbm = s.hbm ∧ t.host = s.host)))

/-- Fences and barriers, 12_order.md R287, R288, R296, R297: FENCE and BAR hold issue; a fence whose earlier writes have performed,
and at SYSTEM scope its flush read at the host port too, answers 0, or the count of discarded writes with PEER_LOST; one whose
limit has passed answers with TIMEOUT; a release posts its store; an arrival is noted in its context, a second one of the phase
says so, and BAR.AW goes on to wait for the flip; a flip turns the phase bit in the root and every core.
Where the spec leaves the point open, the model's choice stands (log entries 26, 34). -/
def Obligations.FencesAndBarriers : Prop :=
  ∀ (s : State) (xd xa : XReg) (o : FenceOrd) (sc : Scope) (b : BitVec 3) (w : Wait) (lim r : Nat),
    (s.me.inTask = true → s.me.faulted = none →
      let holds := fun (out : Out) (wf : WaitFor) => ∃ t, out = .next t ∧ t.me.seq = .wait ∧ t.pool = s.pool ∧ t.pend = s.pend ∧
        t.me.x = s.me.x ∧ ∃ x ∈ t.me.waits, x.what = wf ∧ x.xd = some xd ∧ x.ans = none
      holds (exec (.fence xd o sc) s) (.fence o sc (s.tick + (s.part (s.partOf s.ctx.core)).fenceLimit)) ∧
      holds (exec (.barArr xd b) s) (.barArrive b.toNat false) ∧ holds (exec (.barAw xd b) s) (.barArrive b.toNat true) ∧
      holds (exec (.barWait xd xa b) s) (.barFlip b.toNat ((s.xr xa).getLsbD 0))) ∧
    (s.me.waits = [w] → w.ans = none → w.base ≤ s.me.cyc + 1 →
      let left := s.unperformed s.ctx.core w.src.tick
      let count := min s.me.discarded 65535 * 65536
      let phase := (s.me.barPhase.getLsbD b.toNat).toNat
      let steps := fun (p : State → Wait → Prop) => ∃ t x, exec .fenceComplete s = .next t ∧ t.me.waits = [x] ∧ x.xd = w.xd ∧
        t.pool = s.pool ∧ t.hbm = s.hbm ∧ t.pend = s.pend ∧ p t x
      (w.what = .fence o sc lim →
        (o = .acq ∨ (left sc = false ∧ (sc ≠ .system ∨ ∃ m, w.flush = some m ∧ s.gone m = true)) →
          steps fun t x => x.ans = some (BitVec.ofNat 64 (count + if s.me.discarded = 0 then 0 else 1)) ∧ t.me.discarded = 0) ∧
        (o ≠ .acq → left sc = true → lim ≤ s.tick →
          steps fun t x => x.ans = some (BitVec.ofNat 64 (count + 2)) ∧ t.me.discarded = 0) ∧
        (o ≠ .acq → left sc = true → s.tick < lim → steps fun t x => x = w ∧ t.me.discarded = s.me.discarded) ∧
        (o ≠ .acq → left sc = false → sc = .system → w.flush = none → s.tick < lim →
          steps fun t x => x.ans = none ∧ x.flush = some s.nextFar ∧ (t.far s.nextFar).kind = .flush)) ∧
      (w.what = .barArrive b.toNat false → left .device = false → s.me.run = some r →
        (s.ctx.core ∉ Table.get [] (s.run r).arrived b.toNat → steps fun t x => x.ans = some (BitVec.ofNat 64 phase) ∧
          s.ctx.core ∈ Table.get [] (t.run r).arrived b.toNat) ∧
        (s.ctx.core ∈ Table.get [] (s.run r).arrived b.toNat → steps fun _ x => x.ans = some (BitVec.ofNat 64 (phase + 2)))) ∧
      (w.what = .barArrive b.toNat true → left .device = false → s.me.run = some r →
        steps fun t x => x.what = .barFlip b.toNat (s.me.barPhase.getLsbD b.toNat) ∧ x.base = s.me.cyc + 1 ∧ x.ans = none ∧
          s.ctx.core ∈ Table.get [] (t.run r).arrived b.toNat) ∧
      (∀ n, w.what = .far n → (s.far n).stage = .held → (s.far n).kind = .store → (s.far n).rel = some sc → left sc = false →
        ((s.far n).host = true ∨ (s.far n).dev = s.devIndex) →
        steps fun t x => x.ans = some 0 ∧ (t.far n).stage = .sent ∧ (t.far n).data = (s.far n).data)) ∧
    (∃ t, exec .barrierFlip s = .next t ∧ (t.run s.ctx.run).phase = (s.run s.ctx.run).phase ^^^ (1#8 <<< s.ctx.idx) ∧
      Table.get [] (t.run s.ctx.run).arrived s.ctx.idx = [] ∧ t.pool = s.pool ∧
      ((s.run s.ctx.run).cores.Nodup → ∀ c ∈ (s.run s.ctx.run).cores,
        (t.core c).barPhase = (s.core c).barPhase ^^^ (1#8 <<< s.ctx.idx) ∧ (t.core c).x = (s.core c).x))

/-- Shared queues, 12_order.md R299, R300: QAPP samples its packet and holds issue, or raises POOL_BOUNDS; its answer, or TIMEOUT at
its bound, reaches the wait; the engine looks at a queue in a window of its header's channel and starts to read a packet that it
finds ready, and one that it has read is copied into its consumer's landing area with its tag, after which the queue's next packet
is looked for.
Where the spec leaves the point open, the model's choice stands (log entry 35). -/
def Obligations.SharedQueues : Prop :=
  ∀ (s : State) (xa xb xc : XReg) (f : Far),
    (s.me.inTask = true → s.me.faulted = none → (s.xr xa).toNat % 64 = 0 → (s.xr xa).toNat + 64 ≤ s.me.carve.scrlim →
      ∃ t, exec (.qapp xa xb xc) s = .next t ∧ (t.far s.nextFar).kind = .qapp ∧ (t.far s.nextFar).va = (s.xr xb).toNat ∧
        (t.far s.nextFar).data = s.poolRead s.ctx.core ((s.xr xa).toNat + 8) 56 ∧ t.me.seq = .wait ∧ t.pool = s.pool ∧ t.pend = s.pend ∧
        ∃ w ∈ t.me.waits, w.what = .qapp s.nextFar ∧ w.xd = some xc) ∧
    ((s.xr xa).toNat % 64 ≠ 0 ∨ s.me.carve.scrlim < (s.xr xa).toNat + 64 →
      exec (.qapp xa xb xc) s = .next (s.raise .poolBounds (s.xr xa) 0)) ∧
    (Table.get none s.fars s.ctx.req = some f → (s.core f.core).waitsFor s.ctx.req = true →
      let answers := fun (p : X → Prop) => ∃ t v, exec .qappAnswer s = .next t ∧ t.pool = s.pool ∧ t.hbm = s.hbm ∧ p v ∧
        ∀ w ∈ (t.core f.core).waits, w.isFor s.ctx.req = true → w.ans = some v
      (f.stage = .served → f.err = 0 → answers fun v => v = f.value) ∧
      (f.stage ≠ .served → f.kind ≠ .store → answers fun v => v.toNat % 256 = 3)) ∧
    (∀ n i, s.delivery s.ctx.part s.ctx.idx = some (n, f, i) → s.queueOpen s.ctx.part f.core f.h0.toNat = true →
      ofLe (f.data.take 8) = (i + 1) % 2 ^ 64 → ∃ t p, exec .queueDelivery s = .next t ∧ t.pool = s.pool ∧ t.hbm = s.hbm ∧
        t.pend = s.pend ++ [{ clk := .tick, due := s.tick, src := p, upd := .pool f.core f.h0.toNat (f.data.map some) false },
          { clk := .tick, due := s.tick, src := p, upd := .tag f.core (f.h0.toNat / 1024) (BitVec.ofNat 16 (i % 0xFFFF)) }] ∧
        Table.get 0 (t.part s.ctx.part).queues s.ctx.idx = i + 1) ∧
    (∀ c a i slot u, s.delivery s.ctx.part s.ctx.idx = none → s.queueReady s.ctx.part s.ctx.idx = some (c, a, i, slot, u) →
      ∃ t, exec .queueDelivery s = .next t ∧ t.pool = s.pool ∧ t.hbm = s.hbm ∧ t.pend = s.pend ∧
        (t.far s.nextFar).kind = .deliver s.ctx.idx i ∧ (t.far s.nextFar).va = slot ∧ (t.far s.nextFar).core = c ∧
        (t.far s.nextFar).h0 = BitVec.ofNat 64 a) ∧
    (let h := s.homeAt s.ctx.idx
     s.delivery s.ctx.part s.ctx.idx = none → h.host = false →
      s.windowFits (h.frame / 2 ^ 18) (if s.sealedTile h.frame then 512 else 66) = false → exec .queueDelivery s = .next s)

/-! ## Light -/

/-- Sends by light and by wire, 15_light.md R330, R333, R345, R346, R350, R353, R354, 12_order.md R301: a timed send claims its positions
with its flits, or raises WRONG_SLOT; a counted one queues its flits, or waits for room, and they leave against a credit, with their
header and line, and the oldest on any lane by wire; ESEND sends its bytes by wire, and EMCAST sends them to the replication point,
where they go on to the group's members at once.
What arrives, 15_light.md R335, R341 to R343, R347, R349, R351 to R353: a group whose parity fits decodes to its own bytes, and one that
does not decode loses every bulk flit; a flit that passes its checks waits at the landing port of its
core and lands there in its tick; one that does not is discarded with the poison mark, and a short one whose two copies fail lands as
lost; a wire message lands its bytes and tags; LRECV arms an expectation, which is freed when its tag has come and raises SCHED_TAG in
a locked phase when it has not; QPOP frees slots and owes their credits.
Where the spec leaves the point open, the model's choice stands (log entries 37, 38). -/
def Obligations.LightSendsAndReceives : Prop :=
  (∀ (s : State) (a : LsendArgs) (q : QsendArgs) (xa xb xc : XReg) (len : BitVec 9) (grp : BitVec 6) (d : Nat),
     let p := s.partOf s.ctx.core
     let same := fun (t : State) => t.pool = s.pool ∧ t.pend = s.pend ∧ t.hbm = s.hbm
     (let n := a.cnt.toNat + 1
      let words := if a.m = 0 then 16 else a.m.toNat
      let lane := 16 * a.port.toNat + a.lane.toNat
      let dst := (bits (s.xr a.xb) 0 21).toNat
      let x := (s.tick + 12) % 80
      let sn := (s.tick + 12) / 80
      let pos := (x - 6) / 5
      bits (s.xr a.xb) 35 29 = 0 → dst % 128 = 0 → (s.xr a.xa).toNat % 8 = 0 →
      (s.xr a.xa).toNat + (128 * (n - 1) + 8 * words) ≤ s.me.carve.scrlim → s.laneBad lane = none →
      s.rankDev (bits (s.xr a.xb) 30 5).toNat = some d → s.reachable d = true →
       (s.ctx.idx = 1 → ∃ t, exec (.lsend a) s = .next t ∧ same t ∧ t.cores = s.cores ∧
         ∀ e ∈ (t.lane lane).claims, e ∈ (s.lane lane).claims ∨ (s.laneRank lane e.1 = some d ∧ s.tick + 12 ≤ posTick e.1 e.2.1)) ∧
       (s.ctx.idx ≠ 1 → 6 ≤ x → x ≤ 61 → (x - 6) % 5 = 0 → pos + n ≤ 12 → s.laneRank lane sn = some d → (s.lane lane).claims = [] →
         ∃ t l, exec (.lsend a) s = .next t ∧ same t ∧ t.cores = s.cores ∧ (t.lane lane).claims = l ∧ l.length = n ∧
           (t.lane lane).busy = (s.lane lane).busy ++ [(if a.s = true then 80 * sn + 73 else s.tick + 12 + 5 * n - 1, s.src)] ∧
           ∀ j < n, ∃ f : Flit, l[j]? = some (sn, pos + j, f) ∧ f.rank = d ∧ f.line = (dst + 128 * j) / 128 ∧
             f.core = (bits (s.xr a.xb) 21 9).toNat ∧ f.tag = bits (s.xr a.xc) 0 16 ∧ f.cls = (if a.s = true then 2 else 0) ∧
             f.mask = (if j + 1 = n then (1#16 <<< words) - 1 else 0xFFFF) ∧ (f.first = true ↔ j = 0) ∧
             (f.tw = true ↔ j + 1 = n ∨ (dst + 128 * j) / 1024 ≠ (dst + 128 * j + 128) / 1024) ∧
             f.data = ((s.poolRead s.ctx.core (s.xr a.xa).toNat (128 * (n - 1) + 8 * words)).drop (128 * j)).take 128) ∧
       (s.ctx.idx ≠ 1 → x < 6 ∨ 61 < x ∨ (x - 6) % 5 ≠ 0 ∨ s.laneRank lane sn ≠ some d ∨ 12 < pos + n ∨
         (∃ c ∈ (s.lane lane).claims, c.1 = sn ∧ pos ≤ c.2.1 ∧ c.2.1 < pos + n) ∨
         (a.s = true ∧ ∃ c ∈ (s.lane lane).claims, c.1 = sn ∧ 2 ≤ c.2.2.cls) → exec (.lsend a) s = .next (s.raise .wrongSlot 0 0))) ∧
     (let n := q.cnt.toNat + 1
      let lane := 16 * q.port.toNat + q.lane.toNat
      bits (s.xr q.xb) 5 59 = 0 → s.rankDev (bits (s.xr q.xb) 0 5).toNat = some d → (s.xr q.xa).toNat % 8 = 0 →
      (s.xr q.xa).toNat + 128 * n ≤ s.me.carve.scrlim → s.laneBad lane = none → s.reachable d = true →
      ((s.lane lane).closed = false → (s.lane lane).queue.length + n ≤ 64 → ∃ t l, exec (.qsend q) s = .next t ∧
        t.pool = s.pool ∧ t.hbm = s.hbm ∧ t.pend = (s.defer 0 (.queued lane s.src)).pend ∧ t.cores = s.cores ∧
        (t.lane lane).queue = (s.lane lane).queue ++ l ∧ l.length = n ∧ ∀ j < n, ∃ f : Flit, l[j]? = some f ∧ f.rank = d ∧ f.cls = 1 ∧ f.ready = false ∧
          (f.first = true ↔ j = 0) ∧
          f.data = s.poolRead s.ctx.core ((s.xr q.xa).toNat + 128 * j) 128 ∧ f.tag = bits (s.xr q.xc) 0 16 ∧
          (f.wire = true ↔ q.route = .wire ∨ (q.route = .auto ∧ 128 * n < (s.part p).qsendThreshold))) ∧
      ((s.lane lane).closed = true ∨ 64 < (s.lane lane).queue.length + n →
        exec (.qsend q) s = .next (s.hold .room none (some (.qsend q))))) ∧
     ((s.xr xa).toNat + (len.toNat + 1) ≤ s.me.carve.scrlim → s.wireUsed < 16 →
       let bs := s.poolRead s.ctx.core (s.xr xa).toNat (len.toNat + 1)
       (bits (s.xr xb) 35 29 = 0 → s.rankDev (bits (s.xr xb) 30 5).toNat = some d → s.reachable d = true → d ≠ s.devIndex →
         ∃ t, exec (.esend xa xb xc len) s = .next t ∧ same t ∧ t.me.x = s.me.x ∧ t.me.wireBuf.length = s.me.wireBuf.length + 1 ∧
           t.wireOut = (s.tick, d, .bytes p s.devIndex (bits (s.xr xb) 21 9).toNat (bits (s.xr xb) 0 21).toNat (bits (s.xr xc) 0 16) bs) :: s.wireOut) ∧
       (bits (s.xr xb) 21 43 = 0 → ∃ t, exec (.emcast xa xb xc grp len) s = .next t ∧ same t ∧ t.me.x = s.me.x ∧
         t.me.wireBuf.length = s.me.wireBuf.length + 1 ∧
         let w : Instr := .wireDelivery (.replicate p grp.toNat (bits (s.xr xb) 0 21).toNat (bits (s.xr xc) 0 16) s.rankDevs bs)
         t.todo = { instr := w } :: s.todo)) ∧
     (∀ i, s.canSend s.ctx.lane (s.tick / 80) d = true → (s.lane s.ctx.lane).oldest false d = some i →
       let f := (s.lane s.ctx.lane).queue.getD i {}
       let ls := s.laneSet (s.ctx.lane % 16)
       (s.part f.part).credit d ≠ 0 → s.sends f.part = true → ∃ t n, exec .countedFlitDepart s = .next t ∧ same t ∧ n ≤ 256 ∧
         (t.lane s.ctx.lane).queue = (s.lane s.ctx.lane).queue.eraseIdx i ∧ (t.part f.part).credit d = (s.part f.part).credit d - 1 ∧
         (t.lane s.ctx.lane).seq = (s.lane s.ctx.lane).seq + 1 ∧
         let h : FHead := { credits := n, seq := (s.lane s.ctx.lane).seq, tag := f.tag, tw := f.tw, first := f.first, key := ls.cur,
                            cls := f.cls, mask := f.mask, line := f.line, core := f.core, dst := d, srcDev := s.devIndex }
         let b := flitBytes h (ls.key ls.cur) (flitNonce (s.tick / 80) s.devIndex s.ctx.lane s.ctx.idx) f.data
         (d ≠ s.devIndex → (s.lane s.ctx.lane).lostUntil ≤ s.tick → t.lightOut =
           { slot := s.tick / 80, port := s.ctx.lane / 16, lane := s.ctx.lane % 16, line := s.combLine s.ctx.lane d, rank := d,
             what := .flit s.ctx.idx, bytes := b } :: s.lightOut)) ∧
     (∀ ms o, s.canSend s.ctx.lane (s.tick / 80) d = true → (s.lane s.ctx.lane).markers = some ms → d ∈ ms →
       (s.lane s.ctx.lane).queue = [] → (s.lane s.ctx.lane).claims = [] → s.laneOwner s.ctx.lane = some o → s.sends o = true →
       ∃ t, exec .drainMarkerSend s = .next t ∧ same t ∧ (t.lane s.ctx.lane).markers = some (ms.erase d) ∧
         ∃ f, (t.lane s.ctx.lane).claims = [(s.tick / 80, s.ctx.idx, f)] ∧ f.cls = 3 ∧ f.rank = d ∧ f.gone = true) ∧
     (∀ lane i fl, s.oldestWire s.ctx.part s.ctx.idx = some (lane, i, fl) →
       (∀ e ∈ s.lanes, ∀ j, e.2.oldest true s.ctx.idx = some j → (e.2.queue.getD j {}).part = s.ctx.part →
         keyLt (e.2.queue.getD j {}).key fl.key = false) ∧ ((s.part s.ctx.part).credit s.ctx.idx ≠ 0 → s.sends s.ctx.part = true → s.ctx.idx ≠ s.devIndex →
       ∃ t, exec .wireFlitDepart s = .next t ∧ same t ∧
         (t.part s.ctx.part).credit s.ctx.idx = (s.part s.ctx.part).credit s.ctx.idx - 1 ∧
         (t.lane lane).queue = (s.lane lane).queue.eraseIdx i ∧
         t.wireOut = (s.tick, s.ctx.idx, .flit s.ctx.part s.devIndex fl.tag fl.data) :: s.wireOut))) ∧
  (∀ (s : State) (f : FlitIn) (h : FHead) (bs : List Byte) (p c a d n r : Nat) (ru : Run) (g : BitVec 16) (l : Landing)
     (xa xb xc : XReg) (dl : BitVec 20) (x : Expect) (k : CaskSpec) (devs : List (Option Nat)),
     let same := fun (t : State) => t.pool = s.pool ∧ t.hbm = s.hbm ∧ t.cores = s.cores
     (s.laneOwner f.srcLane = some p → (s.part p).open_ = true →
       let rx := 32 * f.port + f.wave
       let cls := (FHead.ofBytes f.bytes).cls
       (parityIs f.group f.parity (groupParity (groupData f.group)) = true → groupDecode f.group f.parity = some (groupData f.group)) ∧
       (flitDecoded f = (groupDecode f.group f.parity).map fun d => (d.drop (156 * (f.pos % 4))).take 156) ∧
       (∀ b, flitDecoded f = some b → s.goodCopy f b false = some (h, bs) → (∀ e, s.goodCopy f f.bytes true = some e → e.1.cls < 2) →
         s.goodCopy f f.replay true = none → h.cls < 2 → h.credits ≤ 256 → h.dst = s.devIndex →
         let c := if h.cls = 1 then ((s.part p).cask.map (·.core)).getD 0 else h.core
         ∃ t m, exec (.flitReceive f) s = .next t ∧ same t ∧ (t.port c).queue = (s.port c).queue ++ [m] ∧
           m.due = posTick f.slot f.pos + 14 + s.flight ∧ m.flit.data = bs ∧ m.flit.line = h.line ∧ m.flit.mask = h.mask ∧
           m.flit.core = h.core ∧ (m.counted = true ↔ h.cls = 1) ∧ m.src = h.srcDev ∧ m.credits = h.credits ∧
           m.flit.tag = if h.first = false ∧ (Table.get {} s.rxs rx).poison = true then 0xFFFF else h.tag) ∧
       (cls < 2 → (∀ b, flitDecoded f = some b → s.goodCopy f b false = none) → s.goodCopy f f.replay true = none → ∃ t, exec (.flitReceive f) s = .next t ∧ same t ∧
         t.linkDiscards = s.linkDiscards + 1 ∧ (Table.get {} t.rxs rx).poison = true ∧ t.ports = s.ports) ∧
       (cls = 2 ∨ cls = 3 → s.goodCopy f f.bytes true = none → s.goodCopy f f.replay true = none → ∃ t m, exec (.flitReceive f) s = .next t ∧
         same t ∧ (t.port (FHead.ofBytes f.bytes).core).queue = (s.port (FHead.ofBytes f.bytes).core).queue ++ [m] ∧ m.lost = true ∧
         m.due = 80 * f.slot + 89 + s.flight) ∧
       (s.goodCopy f f.bytes true = none → s.goodCopy f f.replay true = some (h, bs) → h.cls = 2 ∨ h.cls = 3 → h.credits ≤ 256 →
         h.dst = s.devIndex → ∃ t m, exec (.flitReceive f) s = .next t ∧ same t ∧
           (t.port h.core).queue = (s.port h.core).queue ++ [m] ∧ m.lost = false ∧ m.due = 80 * f.slot + 89 + s.flight ∧
           m.flit.data = bs)) ∧
     ((s.port s.ctx.core).queue = [l] → l.counted = false → l.lost = false → l.flit.cls = 0 → l.flit.tw = false → l.credits = 0 →
       s.landRun l.flit.part s.ctx.core l.src = some (r, ru) → l.due ≤ s.tick →
       (s.tick < l.due + 5 → s.landFits r s.ctx.core (128 * l.flit.line) l = true → ∃ t src, exec .flitLanding s = .next t ∧ same t ∧
         (t.port s.ctx.core).queue = [] ∧ t.linkDiscards = s.linkDiscards ∧
         t.pend = s.pend ++ [⟨.tick, s.tick, .pool s.ctx.core (128 * l.flit.line) (maskedBytes l.flit.mask l.flit.data) false, src⟩]) ∧
       (l.due + 5 ≤ s.tick → ∃ t, exec .flitLanding s = .next t ∧ t.pend = s.pend ∧ t.pool = s.pool ∧ (t.port s.ctx.core).queue = [] ∧
         t.linkDiscards = s.linkDiscards + 1)) ∧
     (s.landRun p c d = none → ∃ t, exec (.wireDelivery (.bytes p d c a g bs)) s = .next t ∧ same t ∧ t.pend = s.pend ∧
       t.linkDiscards = s.linkDiscards + 1) ∧
     (s.landRun p c d = some (r, ru) → (s.core c).run = some r → a + bs.length ≤ (s.core c).carve.scrlim →
       ∃ t src, exec (.wireDelivery (.bytes p d c a g bs)) s = .next t ∧ same t ∧
         t.pend = s.pend ++ ⟨.tick, s.tick, .pool c a (bs.map some) false, src⟩ ::
           (List.range ((a + bs.length - 1) / 1024 + 1 - a / 1024)).map fun i => ⟨.tick, s.tick, .tag c (a / 1024 + i) g, src⟩) ∧
     (s.sends p = true → ∃ t, exec (.wireDelivery (.credit p d n)) s = .next t ∧ same t ∧ (t.part p).credit d = (s.part p).credit d + n) ∧
     (s.sends p = false → ∃ t, exec (.wireDelivery (.credit p d n)) s = .next t ∧ same t ∧ t.parts = s.parts ∧
       t.linkDiscards = s.linkDiscards + 1) ∧
     (∃ t, exec (.wireDelivery (.replicate p n a g devs bs)) s = .next t ∧ same t ∧ t.pend = s.pend ∧
       let e := Table.get (0, 0, 0) (s.part p).mcast n
       let m : BitVec 41 := if s.tick ≤ e.1 then e.2.1 else e.2.2
       ∀ r < 32, ∀ k, m.getLsbD r = true → devs[r]? = some (some k) → (s.part p).reach.getLsbD k = true →
         (k ≠ s.devIndex → (s.tick, k, .bytes p s.devIndex (bits m 32 9).toNat a g bs) ∈ t.wireOut) ∧
         (k = s.devIndex → ∃ u, { due := u, work := { instr := .wireDelivery (.bytes p s.devIndex (bits m 32 9).toNat a g bs) } } ∈ t.inbox)) ∧
     ((s.xr xa).toNat + 1 ≤ s.me.carve.scrlim →
       (s.me.expects.length < 16 → ∃ t e, exec (.lrecv xa xc dl) s = .next t ∧ t.me.expects = s.me.expects ++ [e] ∧
         e.addr = (s.xr xa).toNat ∧ e.tag = bits (s.xr xc) 0 16 ∧ e.e = s.me.cyc + dl.toNat ∧ t.me.x = s.me.x ∧ t.pool = s.pool ∧
         t.pend = s.pend) ∧
       (16 ≤ s.me.expects.length → s.me.elastic = false → exec (.lrecv xa xc dl) s = .next (s.raise .sendqFull 0 0)) ∧
       (16 ≤ s.me.expects.length → s.me.elastic = true →
         exec (.lrecv xa xc dl) s = .next (s.hold .room none (some (.lrecv xa xc dl))))) ∧
     (s.me.expects[s.ctx.idx]? = some x →
       (s.tagOk s.ctx.core x.addr x.tag = true → ∃ t, exec .expectationCheck s = .next t ∧
         t.me.expects = s.me.expects.eraseIdx s.ctx.idx ∧ t.me.x = s.me.x ∧ t.pool = s.pool ∧ t.runs = s.runs) ∧
       (s.tagOk s.ctx.core x.addr x.tag = false → s.me.elastic = true → exec .expectationCheck s = .next s) ∧
       (s.tagOk s.ctx.core x.addr x.tag = false → s.me.elastic = false → ∃ u : State,
         exec .expectationCheck s = .next (u.raiseOn s.ctx.core .schedTag x.src (BitVec.ofNat 64 (x.addr / 1024 * 1024))
           ((s.tagAt s.ctx.core x.addr ++ x.tag).setWidth 64)) ∧
         u.me.expects = s.me.expects.eraseIdx s.ctx.idx ∧ u.runs = s.runs ∧ u.pend = s.pend)) ∧
     ((s.part (s.partOf s.ctx.core)).cask = some k → s.rankDev (bits (s.xr xa) 0 5).toNat = some d →
       let o := s.partOf s.ctx.core
       let rc := (bits (s.xr xa) 0 5).toNat
       let e := Table.get (0, 0) (s.part o).rings rc
       let f := min (s.xr xb).toNat e.2
       ∃ t, exec (.qpopCask xa xb xc) s = .next t ∧ same t ∧
         t.pend = ((s.deferX 0 xc (BitVec.ofNat 64 (e.2 * 65536 + e.1))).defer 0 (.qpop o rc f)).pend ∧
         Table.get [] (t.part o).owed d = Table.get [] (s.part o).owed d ++ if f = 0 then [] else [(f, s.tick)]) ∧
     (let o := Table.get [] (s.part s.ctx.part).owed s.ctx.idx
      let due := o.filter fun e => decide (e.2 + 160 < s.tick)
      (due.map (·.1)).foldl (· + ·) 0 ≠ 0 → (s.part s.ctx.part).drained = false → s.ctx.idx ≠ s.devIndex →
       ∃ t, exec .creditMessage s = .next t ∧ same t ∧
         t.wireOut = (s.tick, s.ctx.idx, .credit s.ctx.part s.devIndex ((due.map (·.1)).foldl (· + ·) 0)) :: s.wireOut ∧
         Table.get [] (t.part s.ctx.part).owed s.ctx.idx = o.filter fun e => !decide (e.2 + 160 < s.tick)))

/-- Drains, repairs, keys and planes, 15_light.md R332, R336, R338, R354 to R358, 18_prog_rings.md R389: the three DRAIN forms and what
they do at the end of their cycle, a link key that comes by wire and the tick of its flip, the timekeeper, what a slot boundary and
failures do to claims, lanes and combs, what ranging does to a path, and a plane's reconfiguration.
Where the spec leaves the point open, the model's choice stands (log entry 38). -/
def Obligations.LightUpkeep : Prop :=
  (∀ (s : State) (xa xc : XReg) (i d slot : Nat) (m : Option (List Nat)) (close : Bool) (rec_ : List Byte),
    let p := s.partOf s.ctx.core
    let ls := s.drainLanes (s.xr xa)
    let same := fun (t : State) => t.pool = s.pool ∧ t.cores = s.cores ∧ t.lanes = s.lanes
    (ls = [] ∨ (s.part p).open_ = true →
      (∃ t, exec (.drainMark xa xc) s = .next t ∧ same t ∧ (t.part p).drained = true ∧
        t.pend = ((s.defer 0 (.drain p (ls.map fun i => (i, some (s.laneRanks i))) true)).deferX 0 xc 0).pend) ∧
      exec (.drainPoll xa xc) s = .next (s.deferX 0 xc (BitVec.ofNat 64 ((s.part p).markersIn * 2 ^ 32 +
        (ls.filter fun i => (s.lane i).closed && (s.lane i).markers == some []).length))) ∧
      (∃ t, exec (.drainRelease xa xc) s = .next t ∧ same t ∧ t.parts = s.parts ∧
        t.pend = ((s.defer 0 (.drain p (ls.map fun i => (i, none)) false)).deferX 0 xc 0).pend)) ∧
    (ls ≠ [] → (s.part p).open_ = false → exec (.drainMark xa xc) s = .next (s.raise .linkLoss 0 0) ∧
      exec (.drainPoll xa xc) s = .next (s.raise .linkLoss 0 0) ∧ exec (.drainRelease xa xc) s = .next (s.raise .linkLoss 0 0)) ∧
    (let t := s.apply (.drain p [(i, m)] close)
     (t.lane i).closed = close ∧ (t.lane i).markers = m ∧ (t.lane i).queue = (s.lane i).queue ∧ (t.part p).drained = close ∧
     (t.part p).markersIn = if close then (s.part p).markersIn else 0) ∧
    ((s.peer d).est = true → ∃ t, exec (.wireDelivery (.linkKey d i slot rec_)) s = .next t ∧
      match Config.openRecord (s.peer d).key rec_ with
      | none => t = s
      | some key => (if (s.laneSet i).cur then (t.laneSet i).key0 else (t.laneSet i).key1) = key ∧
        (t.laneSet i).key (s.laneSet i).cur = (s.laneSet i).key (s.laneSet i).cur ∧
        (t.laneSet i).flip = some slot ∧ (t.laneSet i).cur = (s.laneSet i).cur ∧
        t.agenda = s.agenda ++ [{ due := 80 * slot, work := { ctx := { idx := i }, instr := .keyFlip } }]) ∧
    ((s.peer d).est = false → exec (.wireDelivery (.linkKey d i slot rec_)) s = .next s) ∧
    (∃ t, exec .keyFlip s = .next t ∧ (t.laneSet s.ctx.idx).cur = (!(s.laneSet s.ctx.idx).cur) ∧ t.cores = s.cores) ∧
    (∃ t, exec .timekeeperTakeover s = .next t ∧ t.missed = 0 ∧ t.cores = s.cores ∧
      ∀ k < 32, s.present k = true → s.present t.timekeeper = true ∧ (s.timekeeper < k → s.timekeeper < t.timekeeper ∧ t.timekeeper ≤ k) ∧
        ((∀ j < 32, s.present j = true → j ≤ s.timekeeper) → t.timekeeper ≤ k)) ∧
    (∃ t, exec .slotBoundary s = .next t ∧ t.pool = s.pool ∧ t.slotNow = s.tick / 80 ∧ ∀ i, (t.lane i).sent = [] ∧ (t.lane i).queue = (s.lane i).queue ∧
      (t.lane i).claims = (s.lane i).claims.filter fun c => decide (s.tick / 80 ≤ c.1) || (!c.2.2.gone && s.frozenPart c.2.2.part)) ∧
    (∀ l o r ru, s.lanes = [(i, l)] → l.line = 3 → l.lostUntil = 80 * (s.tick / 80) → s.laneOwner i = some o →
      (s.runs.filter fun e => e.2.part == o && e.2.st == .live) = [(r, ru)] →
      ∃ u : State, exec .slotBoundary s = .next (u.raiseUnit (ru.cores.headD 0) .linkLoss 3 0 0 s.tick) ∧ u.cores = s.cores ∧
        u.runs = s.runs ∧ u.pend = s.pend) ∧
    (∀ l o, (i, l) ∈ s.lanes → l.line = 3 → l.lostUntil = 80 * (s.tick / 80) → s.laneOwner i = some o →
      ∃ t, exec .slotBoundary s = .next t ∧ ∀ e ∈ s.runs, e.2.part = o → e.2.st = .live → (s.core (e.2.cores.headD 0)).run ≠ none →
        (t.core (e.2.cores.headD 0)).faulted ≠ none)) ∧
  (∀ (s : State) (lane port rank flight k w u : Nat),
    let same := fun (t : State) => t.pool = s.pool ∧ t.cores = s.cores
    let r14 := lane / 16 * 16 + 14
    let free := fun (l : Nat) => (s.lane l).carries = none ∧ (s.lane l).line ≠ 3
    let lostAt := fun (t : State) (l n : Nat) => (t.lane l).line = n ∧ (t.lane l).lostUntil = 80 * (s.tick / 80 + 1) ∧ same t ∧
      t.caps.generation = s.caps.generation + 1
    (lane % 16 < 14 → (s.lane lane).line < 2 →
      (w ∉ (s.lane lane).spare → ∃ t, exec (.lineFailure lane (.dead w)) s = .next t ∧ lostAt t lane 1 ∧
        (t.lane lane).spare = w :: (s.lane lane).spare) ∧
      (free r14 →
        (∃ t, exec (.lineFailure lane .slowRetune) s = .next t ∧ lostAt t lane 2 ∧ (t.lane r14).carries = some lane) ∧
        (w ∈ (s.lane lane).spare → ∃ t, exec (.lineFailure lane (.dead w)) s = .next t ∧ lostAt t lane 2 ∧
          (t.lane r14).carries = some lane)) ∧
      (¬ free r14 → ¬ free (r14 + 1) → ∃ t, exec (.lineFailure lane .slowRetune) s = .next t ∧ lostAt t lane 3) ∧
      (∃ t, exec (.lineFailure lane (.heater true)) s = .next t ∧ same t ∧ (t.lane lane).lostUntil = 80 * (s.tick / 80 + 1) ∧
        (t.lane lane).line = (s.lane lane).line)) ∧
    (u ≠ r14 → u ≠ r14 + 1 → (s.lane r14).carries = some u → (s.lane r14).line ≠ 3 →
      (free (r14 + 1) → ∃ t, exec (.lineFailure r14 .slowRetune) s = .next t ∧ (t.lane r14).line = 3 ∧ (t.lane r14).carries = none ∧
        (t.lane (r14 + 1)).carries = some u ∧ lostAt t u 2) ∧
      (¬ free (r14 + 1) → ∃ t, exec (.lineFailure r14 .slowRetune) s = .next t ∧ (t.lane r14).line = 3 ∧ lostAt t u 3) ∧
      (w ∉ (s.lane r14).spare → ∃ t, exec (.lineFailure r14 (.dead w)) s = .next t ∧ (t.lane u).lostUntil = 80 * (s.tick / 80 + 1) ∧
        (t.lane r14).spare = w :: (s.lane r14).spare ∧ same t)) ∧
    ((s.lane lane).line = 3 → exec (.lineFailure lane (.dead w)) s = .next s ∧ exec (.lineFailure lane .slowRetune) s = .next s) ∧
    exec (.lineFailure lane (.heater false)) s = .next s ∧
    (let other := if port % 2 = 0 then port + 1 else port - 1
     (Table.get 0 s.caps.comb other = 0 → ∃ t, exec (.combFailure port) s = .next t ∧ Table.get 0 t.caps.comb port = 1 ∧ same t ∧
       ∀ j < 16, (t.lane (16 * port + j)).lostUntil = 80 * (s.tick / 80 + 2)) ∧
     (Table.get 0 s.caps.comb other ≠ 0 → ∃ t, exec (.combFailure port) s = .next t ∧ same t ∧ ∀ j < 16,
       (t.lane (16 * port + j)).line = 3 ∧ (t.lane (16 * other + j)).line = 3 ∧
       (t.lane (16 * port + j)).lostUntil = 80 * (s.tick / 80 + 1) ∧ (t.lane (16 * other + j)).lostUntil = 80 * (s.tick / 80 + 1))) ∧
    (32 * port + rank < 128 → ∃ t, exec (.linkBringUp port rank flight) s = .next t ∧ same t ∧
      t.caps.paths.getLsbD (32 * port + rank) = decide (flight + 64 ≤ s.flight) ∧
      t.timekeeper = if Config.timekeeper = none ∧ flight + 64 ≤ s.flight ∧ rank < s.timekeeper then rank else s.timekeeper) ∧
    (let q := Table.get {} s.planes s.ctx.plane
     ∃ t, exec .reconfigDarkStart s = .next t ∧ (t.part q.part).reach = q.reach ∧
      (∀ l < 14, (s.part q.part).laneSets.getLsbD l = true →
        Table.get [] (t.laneSet l).tables s.ctx.plane = (q.start.getD 0, q.table) :: Table.get [] (s.laneSet l).tables s.ctx.plane) ∧
      ((k, s.part k) ∈ s.parts → (s.part k).made = true → (s.part k).laneSets ≠ 0 → (s.part k).confidential = true →
        (s.part k).tdi ≠ .unlocked → (t.part k).tdi = .error) ∧
      { due := 80 * (q.start.getD 0 + q.dark) + q.relock, work := { ctx := { plane := s.ctx.plane }, instr := .relockComplete } } ∈ t.agenda) ∧
    (∃ t, exec .relockComplete s = .next t ∧ (Table.get {} t.planes s.ctx.plane).start = none ∧ same t))

/-! ## Launch and host -/

/-- The launch queue, 01_machine.md R11, R13, 04_cycles.md R128, 19_host.md R401, R402, R407: LAUNCH holds issue until the queue's answer,
which enters the last when there is room and its address is aligned and translates, and comes as TIMEOUT at the bound where no
function is bound; each entry gets a tick within 4,096 by which the controller takes it; the controller arms a last that passes every
check and nothing else; the registers of a function that boot has enabled take what the host writes, but for a size out of range.
Where the spec leaves the point open, the model's choice stands (log entries 10, 11). -/
def Obligations.LaunchQueue : Prop :=
  ∀ (s : State) (xd xa : XReg) (v p vf i : Nat) (bs : List Byte) (w : BitVec 32) (a : BitVec 64),
    let same := fun (t : State) => t.pool = s.pool ∧ t.hbm = s.hbm ∧ t.runs = s.runs
    (s.me.inTask = true → s.me.faulted = none → ∃ t, exec (.launch xd xa) s = .next t ∧ same t ∧ t.me.seq = .wait ∧ t.me.x = s.me.x ∧
      t.pend = s.pend ∧ ∃ x ∈ t.me.waits, x.what = .launch ∧ x.xd = some xd ∧ x.base = s.me.cyc + 1 + s.ctx.stall) ∧
    ((s.part (s.partOf s.ctx.core)).vf = some v →
      let q := s.vf v
      let st := fun (o : Out) (n : Nat) (f : State → Prop) => ∃ t, o = .next t ∧ same t ∧ f t ∧
        ∀ x ∈ t.me.waits, x.what = .launch → x.ans = some (BitVec.ofNat 64 n)
      (s.ctx.idx ≠ 0 → st (exec .launchAnswer s) 3 fun t => t.vfs = s.vfs) ∧
      (s.ctx.idx = 0 → s.ctx.req % 64 ≠ 0 ∨ s.readVirt (s.partOf s.ctx.core) 2 s.ctx.req 256 = none →
        st (exec .launchAnswer s) 2 fun t => t.vfs = s.vfs) ∧
      (s.ctx.idx = 0 → s.ctx.req % 64 = 0 → (s.readVirt (s.partOf s.ctx.core) 2 s.ctx.req 256).isSome = true →
        (2 ^ q.n ≤ (q.lqTail - q.lqHead).toNat → st (exec .launchAnswer s) 1 fun t => t.vfs = s.vfs) ∧
        ((q.lqTail - q.lqHead).toNat < 2 ^ q.n → st (exec .launchAnswer s) 0 fun t => (t.vf v).lqTail = q.lqTail + 1 ∧
          (t.vf v).entry q.lqTail.toNat = (s.ctx.req, BitVec.ofNat 64 s.ctx.core, true) ∧
          (t.vf v).dues.length = (q.lqTail + 1 - q.lqHead).toNat ∧
          ∀ k d, q.dues.length ≤ k → (t.vf v).dues[k]? = some d → s.tick < d ∧ d ≤ s.tick + 4096))) ∧
    ((s.part (s.partOf s.ctx.core)).vf = none → s.ctx.idx = 0 → ∃ t, exec .launchAnswer s = .next t ∧ same t ∧ t.me.waits = s.me.waits ∧
      ∃ e ∈ t.me.sched, e.due = s.me.launchBase + 4095 ∧ e.work.instr = .launchAnswer ∧ e.work.ctx.idx = 1) ∧
    (let q := s.vf s.ctx.vf
     let e := q.entry q.lqHead.toNat
     let u0 := s.modVf s.ctx.vf fun q => { q with lqHead := q.lqHead + 1, dues := q.dues.drop 1 }
     let u := if (q.dues.drop 1).head?.any (fun t => decide (t ≤ s.tick)) then
         { u0 with todo := { ctx := { vf := s.ctx.vf }, instr := .lastTaken } :: u0.todo } else u0
     q.lqHead ≠ q.lqTail → q.room = true → q.waiting = [] →
      (u.vfPart s.ctx.vf = none → exec .lastTaken s = .next (u.launchEntry s.ctx.vf e.2.1 2)) ∧
      (u.vfPart s.ctx.vf = some p → e.1 % 64 ≠ 0 ∨ u.readVirt p 2 e.1 256 = none →
        exec .lastTaken s = .next (u.launchEntry s.ctx.vf e.2.1 1)) ∧
      (u.vfPart s.ctx.vf = some p → e.1 % 64 = 0 → u.readVirt p 2 e.1 256 = some bs →
        (∀ n ns, u.statuses p e.1 bs = n :: ns → exec .lastTaken s = .next (u.launchEntry s.ctx.vf e.2.1 (ns.foldl min n))) ∧
        (u.statuses p e.1 bs = [] → ∃ t, exec .lastTaken s = .next t ∧ (t.vf s.ctx.vf).lqHead = q.lqHead + 1 ∧ t.hbm = s.hbm ∧
          ((t.runs = s.runs ∧ ∃ d ∈ t.agenda, d.work.instr = .armDeadline ∧ d.due = max s.tick ((lastOf e.1 bs).t0 - 512)) ∨
            ((t.run s.nextRun).st = .armed ∧ (t.run s.nextRun).part = p ∧ (t.run s.nextRun).tb = (lastOf e.1 bs).t0 ∧
              (t.run s.nextRun).cores = coresOf (lastOf e.1 bs).coreGroups ∧ (t.run s.nextRun).last = lastOf e.1 bs ∧
              ∀ c ∈ coresOf (lastOf e.1 bs).coreGroups, (t.core c).run = some s.nextRun ∧ (t.core c).trap = {} ∧
                (t.core c).seq = .off))))) ∧
    (exec .armDeadline s = .next (s.launchEntry s.ctx.vf (BitVec.ofNat 64 s.ctx.req) 9) ∧
      same (s.launchEntry s.ctx.vf (BitVec.ofNat 64 s.ctx.req) 9)) ∧
    (s.boot = .up →
      ((bits w 0 16 - (s.vf vf).lqHead).toNat ≤ 2 ^ (s.vf vf).n → ∃ t, exec (.lqTailWrite vf w) s = .next t ∧ same t ∧
        (t.vf vf).lqTail = bits w 0 16 ∧ (t.vf vf).dues.length = (bits w 0 16 - (s.vf vf).lqHead).toNat) ∧
      (2 ^ (s.vf vf).n < (bits w 0 16 - (s.vf vf).lqHead).toNat → exec (.lqTailWrite vf w) s = .next (s.errorEvent vf)) ∧
      ((s.vf vf).waiting = [] → ∃ t, exec (.cqHeadWrite vf w) s = .next t ∧ same t ∧ (t.vf vf).cqHead = w) ∧
      (a.toNat % 4096 = 0 → ∃ t, exec (.hostRegisterWrite vf 0x020 a) s = .next t ∧ same t ∧ (t.vf vf).evBase = a) ∧
      (vf ≠ 0 → (a.toNat % 4096 = 0 → ∃ t, exec (.hostRegisterWrite vf 0x018 a) s = .next t ∧ same t ∧ (t.vf vf).cqBase = a) ∧
        (4 ≤ (bits a 0 5).toNat → (bits a 0 5).toNat ≤ 12 → ∃ t, exec (.hostRegisterWrite vf 0x008 a) s = .next t ∧ same t ∧
          (t.vf vf).n = (bits a 0 5).toNat) ∧
        ((bits a 0 5).toNat < 4 ∨ 12 < (bits a 0 5).toNat → exec (.hostRegisterWrite vf 0x008 a) s = .next s) ∧
        (i < 4096 → ∃ t, exec (.hostRegisterWrite vf (0x10000 + 16 * i) a) s = .next t ∧ same t ∧
          ∃ x, Table.get none (t.vf vf).entries i = some (a.toNat, x, false)))) ∧
    (s.boot ≠ .up → exec (.lqTailWrite vf w) s = .next s ∧ exec (.cqHeadWrite vf w) s = .next s ∧
      ∀ o, exec (.hostRegisterWrite vf o a) s = .next s)

/-- Partitions and their functions, 19_host.md R403, R405, R409, 10_channels.md R256: requests of PF0 create, change, delete, bind and
unbind; any other function hears NOT_OWNER once boot has ended, nothing before, and nothing changes. A new partition has a key and
the handlers of 12_order.md Table 12.7, and the tiles allotted to it are sealed first.
Where the spec leaves the point open, the model's choice stands (log entries 39, 44). -/
def Obligations.PartitionRequests : Prop :=
  ∀ (s : State) (part vf v o : Nat) (q : PartSpec),
    let answers := fun (t : State) (n : Nat) => ∃ a, t.answers = a :: s.answers ∧ a.code = n
    let same := fun (t : State) => t.pool = s.pool ∧ t.runs = s.runs ∧ t.cores = s.cores
    let shape := fun (t : State) => (t.part part).made = true ∧ (t.part part).coreGroups = q.coreGroups ∧
      (t.part part).parityGroups = q.parityGroups ∧ (t.part part).laneSets = q.laneSets ∧ (t.part part).confidential = q.confidential
    let sealed := fun (t : State) (g : BitVec 64) => ∃ u : State, u.hbm = s.hbm ∧ u.part part = t.part part ∧
      t.hbm = (u.sealAllotted part g).hbm
    (s.boot = .up → part < 40 → s.liveRun part = false → (s.part part).frozen = false →
      (q.create = true → s.taken part q = false →
        ((s.part part).made = false →
          ∃ t, exec (.partitionCreateDelete .pf0 part q) s = .next t ∧ same t ∧ answers t 0 ∧ shape t ∧ sealed t q.parityGroups ∧
            (t.part part).key0.isSome = true ∧ (t.part part).key1 = none ∧
            t.handlerWord part 64 = 0x0C000000 ∧ t.handlerWord part 65 = 0xB3400000 ∧ t.handlerWord part 66 = 0xC0000001 ∧
            t.handlerWord part 67 = 0x10000000 ∧ t.handlerWord part 68 = 0xF3000000 ∧ ∀ k, k ≠ part → t.part k = s.part k) ∧
        ((s.part part).made = true → (s.part part).confidential = q.confidential →
          ∃ t, exec (.partitionCreateDelete .pf0 part q) s = .next t ∧ same t ∧ answers t 0 ∧ shape t ∧
            sealed t (q.parityGroups &&& ~~~ (s.part part).parityGroups) ∧ (t.part part).key0 = (s.part part).key0)) ∧
      (q.create = true → s.taken part q = true → ∃ t, exec (.partitionCreateDelete .pf0 part q) s = .next t ∧ answers t 1 ∧ t.parts = s.parts) ∧
      ((s.part part).made = true → q.create = false →
        ∃ t, exec (.partitionCreateDelete .pf0 part q) s = .next t ∧ same t ∧ answers t 0 ∧ t.hbm = s.hbm ∧ (t.part part).made = false ∧
          ∀ e ∈ t.racks, e.1 / 2 ^ 32 ≠ part)) ∧
    (s.boot = .up → ∃ t, exec (.partitionCreateDelete (.vf v) part q) s = .next t ∧ same t ∧ answers t 3 ∧ t.parts = s.parts ∧
      t.hbm = s.hbm) ∧
    (s.boot ≠ .up → exec (.partitionCreateDelete (.vf v) part q) s = .next s ∧ exec (.vfBind (.vf v) vf (some part)) s = .next s) ∧
    (1 ≤ vf → vf ≤ 256 →
      ((s.part part).made = true → (s.part part).frozen = false → (s.part part).vf = none → s.vfPart vf = none →
        ∃ t, exec (.vfBind .pf0 vf (some part)) s = .next t ∧ same t ∧ answers t 0 ∧ (t.part part).vf = some vf) ∧
      ((s.part part).vf = some v → v ≠ vf → ∃ t, exec (.vfBind .pf0 vf (some part)) s = .next t ∧ same t ∧ answers t 1 ∧ t.parts = s.parts) ∧
      (s.vfPart vf = some o → (s.part o).frozen = false → ∃ t, exec (.vfBind .pf0 vf none) s = .next t ∧ same t ∧ answers t 0 ∧
        (t.part o).vf = none)) ∧
    (s.boot = .up → ∃ t, exec (.vfBind (.vf v) vf (some part)) s = .next t ∧ same t ∧ answers t 3 ∧ t.parts = s.parts)

/-- Requests of a partition's owner, 12_order.md R279, R289, R293, R301, 10_channels.md R267 to R269, 14_time_power.md R327, 15_light.md
R337, R348, R350, R355, 19_host.md R405, R409, R410: done with their effect on the partition for the owner, refused outside their
ranges, NOT_OWNER for any other function. A migration, a checkpoint and a restore go to the copy engines and are answered at their end.
Where the spec leaves the point open, the model's choice stands (log entries 20, 32, 39). -/
def Obligations.OwnerRequests : Prop :=
  ∀ (s : State) (v part root plane slot table g core commit cn page host va n : Nat) (dark : Option Nat) (pre : List Nat) (ws : List (BitVec 32))
    (k : CaskSpec) (img : List Byte) (reach : BitVec 32) (l : Limits) (key : BitVec 256) (e : BitVec 64) (at_ : Home) (b : Bool),
    s.boot = .up →
    let p := s.part part
    let fn := Fn.vf v
    let still := fun (t : State) => t.hbm = s.hbm ∧ t.runs = s.runs ∧ t.cores = s.cores
    let done := fun (o : Out) (n : Nat) (f : State → Prop) => ∃ t a, o = .next t ∧ t.answers = a :: s.answers ∧ a.code = n ∧ a.fn = fn ∧
      t.pool = s.pool ∧ still t ∧ f t
    let copies := fun (o : Out) (f : State → Move → Prop) => ∃ t m, o = .next t ∧ still t ∧ t.answers = s.answers ∧
      (t.far s.nextFar).kind = .move m ∧ (t.far s.nextFar).part = part ∧ m.fn = fn ∧ f t m
    (s.owns fn part = true →
      (p.open' = true →
        done (exec (.setPageTableRoot fn part root pre) s) 0 (fun t => (t.part part).root = some root ∧ (t.part part).preload = pre ∧
          ∀ u, ∀ x ∈ Table.get [] t.tlbs u, x.1 ≠ part) ∧
        (ws.length = 1024 → done (exec (.loadHandlerTable fn part ws) s) 0 fun t => ∀ i < 1024, t.handlerWord part i = ws.getD i 0) ∧
        (ws.length ≠ 1024 → done (exec (.loadHandlerTable fn part ws) s) 1 fun t => t.parts = s.parts) ∧
        (k.core < 512 → k.base % 128 = 0 → k.n ≠ 0 → k.n ≤ 256 → done (exec (.loadRackingTable fn part [] (some k)) s) 0 fun t =>
          (t.part part).cask = some k) ∧
        (img ≠ [] → badRack p.laneSets.toNat img = false → done (exec (.loadRackingTable fn part img none) s) 0 fun t =>
          let r := Table.get {} t.racks (rackKey part (ofLe ((img.drop 4).take 4)))
          r.rows = rackRows img ∧ r.digest = Config.shake256 img 64 ∧ r.d = (img.getD 3 0).toNat) ∧
        (g < 64 → core < 512 → (Table.get (0, 0, 0) p.mcast g).1 = 0 →
          done (exec (.writeMulticastGroup fn part g reach core commit) s) 0 fun t =>
            Table.get (0, 0, 0) (t.part part).mcast g =
              (max commit s.tick, (Table.get (0, 0, 0) p.mcast g).2.2, BitVec.ofNat 9 core ++ reach))) ∧
      (plane < 4 → s.tick / 80 < slot → (Table.get {} s.planes plane).start = none →
        done (exec (.reconfigurePlane fn part plane (slot, dark) 0 reach) s) (if Config.circuitPlane plane then 0 else 1) fun t =>
          Config.circuitPlane plane = true → let q := Table.get {} t.planes plane
            q.start = some slot ∧ q.reach = reach ∧ q.part = part ∧ q.dark = dark.getD (Config.darkSlots plane) ∧ q.relock ≤ 5120 ∧
            t.agenda = s.agenda ++ [{ due := 80 * slot, work := { ctx := { plane := plane }, instr := .reconfigDarkStart } }]) ∧
      ((∀ n, l.qsendThreshold = some n → 128 ≤ n ∧ n ≤ 4096) →
        done (exec (.setLimits fn part { l with fenceLimit := none, expert := none, votes := none }) s) 0 fun t =>
          (t.part part).qsendThreshold = l.qsendThreshold.getD p.qsendThreshold ∧
          (t.part part).counterThreshold = l.counterThreshold.getD p.counterThreshold ∧ (t.part part).fenceLimit = p.fenceLimit) ∧
      (n < 128 ∨ 4096 < n →
        done (exec (.setLimits fn part { l with qsendThreshold := some n }) s) 1 fun t => t.parts = s.parts) ∧
      (11000 ≤ root → root ≤ 1100000 →
        done (exec (.setLimits fn part { fenceLimit := some root, qsendThreshold := none, counterThreshold := none, expert := none, votes := none })
          s) 0 fun t => (t.part part).fenceLimit = root) ∧
      (s.liveRun part = false → p.frozen = false → pre.length = 4 → (∀ x ∈ pre, x ≤ 7) →
        done (exec (.setLimits fn part { fenceLimit := none, qsendThreshold := none, counterThreshold := none, expert := some b,
                                         votes := some pre }) s) 0 fun t => (t.part part).expert = b ∧ (t.part part).votes = pre) ∧
      (cn < 768 → page < 12192 → p.parityGroups.getLsbD (cn % 64) = true →
        done (exec (.pageCountersMigrate fn part (.clear cn page)) s) 0 (fun t => Table.get 0 t.counters (cn * 12192 + page) = 0) ∧
        done (exec (.pageCountersMigrate fn part (.read cn page)) s) 0 fun t => t.parts = s.parts ∧
          (t.answers.head?.map (·.body)) = some (leBytes 2 (Table.get 0 s.counters (cn * 12192 + page)))) ∧
      (p.resealing = true → done (exec (.pageCountersMigrate fn part (.toHost va host)) s) 2 (fun t => t.parts = s.parts) ∧
        done (exec (.checkpointRestore fn part true host) s) 2 fun t => t.parts = s.parts) ∧
      (p.resealing = false → (p.confidential = true → p.tdi = .run) → s.leafOf part va = some (e, n, at_) → n = 1 ∨ n = 16 →
        (pteHost e = false → pteDev e = s.devIndex → host % 4096 = 0 →
          s.pinned (pteFrame e / 2 ^ 18) (pteFrame e % 2 ^ 18 / 16) = false →
          copies (exec (.pageCountersMigrate fn part (.toHost va host)) s) fun t m => t.pool = s.pool ∧ m.out = true ∧
            m.first = pteFrame e ∧ m.count = n ∧ m.host = host ∧ m.leaf = some (at_, withFrame e true 0 (host / 4096))) ∧
        (pteHost e = true → s.frameOk part table n = true → s.pinned (table / 2 ^ 18) (table % 2 ^ 18 / 16) = false →
          copies (exec (.pageCountersMigrate fn part (.toHbm va table)) s) fun t m => t.pool = s.pool ∧ m.out = false ∧
            m.first = table ∧ m.count = n ∧ m.host = 4096 * pteFrame e ∧ m.leaf = some (at_, withFrame e false s.devIndex table))) ∧
      (s.runs = [] → p.confidential = false → p.resealing = false → (allotment p.parityGroups).length ≠ 0 →
        copies (exec (.checkpointRestore fn part b host) s) fun t m => m.out = !b ∧ m.host = host ∧ m.leaf = none ∧
          m.count = (allotment p.parityGroups).length * Config.tiles ∧ t.pool = (s.movePools part b host).pool ∧
          t.host = (s.movePools part b host).host ∧ (b = false → t.pool = s.pool)) ∧
      (s.session fn = true → p.rotating = none →
        done (exec (.loadMemoryKey fn part (some key) false) s) 0 (fun t =>
          (if p.current then (t.part part).key0 else (t.part part).key1) = some key ∧ (t.part part).current = p.current ∧
          (t.part part).rotating = none) ∧
        done (exec (.loadMemoryKey fn part (some key) true) s) 0 fun t =>
          (if p.current then (t.part part).key0 else (t.part part).key1) = some key ∧ (t.part part).current = p.current ∧
          (t.part part).rotating = some (!p.current) ∧ ∃ d, s.tick < d ∧
            t.agenda = s.agenda ++ [{ due := d, work := { ctx := { part := part }, instr := .keyRotationCommit } }]) ∧
      (s.session fn = true → p.rotating.isSome = true →
        done (exec (.loadMemoryKey fn part (some key) b) s) 2 fun t => t.parts = s.parts)) ∧
    (s.owns fn part = false →
      done (exec (.setPageTableRoot fn part root pre) s) 3 (fun t => t.parts = s.parts) ∧
      done (exec (.loadHandlerTable fn part ws) s) 3 (fun t => t.parts = s.parts) ∧
      done (exec (.loadRackingTable fn part img (some k)) s) 3 (fun t => t.parts = s.parts ∧ t.racks = s.racks) ∧
      done (exec (.setLimits fn part l) s) 3 (fun t => t.parts = s.parts) ∧
      done (exec (.writeMulticastGroup fn part g reach core commit) s) 3 (fun t => t.parts = s.parts) ∧
      done (exec (.pageCountersMigrate fn part (.read cn page)) s) 3 (fun t => t.counters = s.counters) ∧
      done (exec (.checkpointRestore fn part true host) s) 3 (fun t => t.parts = s.parts) ∧
      done (exec (.loadMemoryKey fn part (some key) true) s) 3 (fun t => t.parts = s.parts) ∧
      done (exec (.reconfigurePlane fn part plane (slot, dark) table reach) s) 3 (fun t => t.parts = s.parts ∧ t.planes = s.planes))

/-- Keys, TDISP and resets, 19_host.md R404, R405, R409, R410, 15_light.md R358: a rotation commits to the register it names, once no
copy of the partition is in hand; a scan seals a tile under the new register at version 0, or logs that its verify failed, and ends
when no tile is left under the old one, which is emptied; an interface goes through its states and is measured when it locks; after
boot, a function's reset returns its registers to their defaults and takes a confidential interface to ERROR.
Where the spec leaves the point open, the model's choice stands (log entries 39, 44). -/
def Obligations.KeysAndInterfaces : Prop :=
  ∀ (s : State) (e : Bool) (f o : Nat) (bs : List Byte),
    let p := s.ctx.part
    let q := s.part p
    let moves := fun (o : Out) (n : Tdi) => ∃ t, o = .next t ∧ (t.part p).tdi = n ∧ t.pool = s.pool ∧ t.hbm = s.hbm ∧ t.cores = s.cores ∧
      ∃ a, t.answers = a :: s.answers ∧ a.code = 0
    (q.rotating = some e →
      (s.moving p = false → ∃ t d, exec .keyRotationCommit s = .next t ∧ (t.part p).current = e ∧ s.tick < d ∧
        t.agenda = s.agenda ++ [{ due := d, work := { ctx := { part := p }, instr := .resealScan } }]) ∧
      (s.moving p = true → ∃ t, exec .keyRotationCommit s = .next t ∧ t.parts = s.parts ∧ t.hbm = s.hbm ∧
        t.agenda = s.agenda ++ [{ due := s.tick + 1, work := { ctx := { part := p }, instr := .keyRotationCommit } }]) ∧
      (s.tilesUnder p (2 * p + (!e).toNat) = [] → ∃ t, exec .resealScan s = .next t ∧ (t.part p).rotating = none ∧ t.hbm = s.hbm ∧
        (if e then (t.part p).key0 else (t.part p).key1) = none ∧ (if e then (t.part p).key1 else (t.part p).key0) = if e then q.key1 else q.key0) ∧
      (s.tilesUnder p (2 * p + (!e).toNat) = [f] → s.resealWaits f = false →
        (s.unseal p f = some bs → ∃ t, exec .resealScan s = .next t ∧
          t.hbm = (s.putSealed f 0 (2 * p + e.toNat) ((if e then q.key1 else q.key0).getD 0) bs).hbm) ∧
        (s.unseal p f = none → ∃ t, exec .resealScan s = .next t ∧ t.hbm = s.hbm ∧ (p, f) ∈ t.sealLog)) ∧
      (s.tilesUnder p (2 * p + (!e).toNat) = [f] → s.resealWaits f = true → ∃ t, exec .resealScan s = .next t ∧ t.hbm = s.hbm ∧
        (t.part p).rotating = some e ∧ ∃ d ∈ t.agenda, d.work.instr = .resealScan ∧ s.tick < d.due)) ∧
    (q.rotating = none → exec .keyRotationCommit s = .next s ∧ exec .resealScan s = .next s) ∧
    (s.boot = .up → s.owns s.ctx.fn p = true → s.session s.ctx.fn = true → q.confidential = true →
      (q.tdi = .unlocked → moves (exec .lockInterface s) .locked ∧ ∃ t, exec .lockInterface s = .next t ∧
        (t.part p).measured = some (Config.shake256 (s.tdiItems p) 64)) ∧
      (q.tdi = .locked → moves (exec .startInterface s) .run) ∧
      (q.tdi = .locked ∨ q.tdi = .run ∨ q.tdi = .error → moves (exec .stopInterface s) .unlocked)) ∧
    (s.boot = .up → s.owns s.ctx.fn p = true → s.session s.ctx.fn = false ∨ q.confidential = false ∨ q.tdi ≠ .locked → ∃ t a,
      exec .startInterface s = .next t ∧ t.parts = s.parts ∧ t.answers = a :: s.answers ∧ a.code = 1) ∧
    (s.boot ≠ .up → exec .functionLevelReset s = .next s) ∧
    (s.boot = .up → ∃ t, exec .functionLevelReset s = .next t ∧ t.vf s.ctx.vf = {} ∧ t.tick = s.tick ∧
      (s.vfPart s.ctx.vf = some o → (s.part o).confidential = true → (s.part o).tdi ≠ .unlocked → (t.part o).tdi = .error))

/-- Attestation and sessions, 19_host.md R399, R404, R407, R408, in the model's own codes (log entry 5): a function negotiates version,
capabilities and algorithms in this order; certificates, measurements and key exchanges follow; a session is established by a FINISH
whose verify data fits the transcript, and a 65th is Busy; a session that ends takes with it the rotation of link keys that it
carried; a key of IDE needs a session, and a stream that loses its key, or gets another function's, takes its owner's interface to
ERROR. Towards a peer the controller answers requests, passes over a response that it does not wait for, gives up when the chain,
its digest, the challenge's or the share's signature fails or the peer answers with an error, and has a session once FINISH is
answered; the lowest device sends the link keys that it derives, sealed by the sessions with its peers (15_light.md R357), and each
session goes on with a heartbeat, a key update or its end. -/
def Obligations.Attestation : Prop :=
  ∀ (s : State) (nonce : BitVec 256) (share : BitVec 768) (i stream d code : Nat) (key k : BitVec 256) (q : Session) (body : List Byte),
    s.boot = .up →
    let fn := s.ctx.fn
    let still := fun (t : State) => t.pool = s.pool ∧ t.hbm = s.hbm ∧ t.runs = s.runs ∧ t.cores = s.cores ∧ t.parts = s.parts
    let replies := fun (o : Out) (n : Nat) (f : State → Prop) => ∃ t a, o = .next t ∧ t.answers = a :: s.answers ∧ a.code = n ∧ a.fn = fn ∧
      still t ∧ f t
    replies (exec .getVersion s) 0x04 (fun t => t.spdmAt = 1) ∧
    (1 ≤ s.spdmAt → replies (exec .getCapabilities s) 0x61 fun t => t.spdmAt = 2) ∧
    (2 ≤ s.spdmAt → replies (exec .negotiateAlgorithms s) 0x63 fun t => t.spdmAt = 3) ∧
    (3 ≤ s.spdmAt →
      replies (exec .getDigests s) 0x01 (fun t => t.sessions = s.sessions ∧
        t.answers.head?.map (·.body) = some (Config.sha3 s.aliasChain)) ∧
      replies (exec (.getCertificate fn 0) s) 0x02 (fun t => t.sessions = s.sessions ∧ t.answers.head?.map (·.body) = some s.aliasChain) ∧
      replies (exec (.challenge fn nonce) s) 0x03 (fun t => t.sessions = s.sessions) ∧
      replies (exec (.getMeasurements fn 0) s) 0x60 (fun t => t.measures = s.measures ∧
        t.answers.head?.map (·.body) = some (leBytes 1 s.measures.length)) ∧
      (s.sessions = [] → s.openSessions < 64 → replies (exec (.keyExchange fn share) s) 0x64 fun t => ∃ r, t.sessionAt 0 = some r ∧ r.fn = fn ∧ r.est = false) ∧
      (64 ≤ s.openSessions ∨ (∀ n < 64, (s.sessionAt n).isSome = true) → replies (exec (.keyExchange fn share) s) 0x7F fun t => t.sessions = s.sessions)) ∧
    (s.spdmAt = 0 → replies (exec .getCapabilities s) 0x7F (fun t => t.spdm = s.spdm) ∧
      replies (exec .getDigests s) 0x7F (fun t => t.spdm = s.spdm)) ∧
    (s.sessionAt s.ctx.session = some q → q.fn = fn →
      let h := Config.sha3 s.transcript
      (s.ctx.verify = Config.finishData q.secret h → replies (exec .finish s) 0x65 fun t => ∃ r, t.sessionAt s.ctx.session = some r ∧
        r.est = true ∧ r.fn = fn ∧ r.secret = Config.nextSecret q.secret h) ∧
      (s.ctx.verify ≠ Config.finishData q.secret h → replies (exec .finish s) 0x7F fun t => t.sessionAt s.ctx.session = none) ∧
      (q.est = true → replies (exec .keyUpdate s) 0x69 (fun t => ∃ r, t.sessionAt s.ctx.session = some r ∧ r.updates = q.updates + 1 ∧
          r.secret = Config.nextSecret q.secret []) ∧
        (s.ctx.idx ≠ 1 → replies (exec .heartbeat s) 0x68 (fun t => t.sessions = s.sessions))) ∧
      replies (exec .endSession s) 0x6C (fun t => t.sessionAt s.ctx.session = none)) ∧
    (s.ctx.session < 64 → ∃ t, exec .heartbeatFailure s = .next t ∧ t.sessionAt s.ctx.session = none ∧ still t ∧
      t.laneSets = s.laneSets) ∧
    (s.ctx.idx = 1 → let e := s.ctx.session - 64
      e ∈ s.peerSessions → (s.peer e).stage = 0 → e ≠ s.devIndex → ∃ t c, exec .heartbeat s = .next t ∧ still t ∧
        (c = 0xE8 ∨ c = 0xE9 ∨ c = 0xEC) ∧ t.wireOut = (s.tick, e, .spdm s.devIndex c []) :: s.wireOut) ∧
    (64 ≤ s.ctx.session → let e := s.ctx.session - 64
      ∃ t, exec .heartbeatFailure s = .next t ∧ still t ∧ t.sessions = s.sessions ∧ e ∉ t.peerSessions ∧ (t.peer e).stage = 0 ∧
      (t.peer e).opened = false ∧ (t.peer e).est = false ∧ ∀ l x, (s.laneSet l).keyFrom = e ∨ (s.laneSet l).keyFrom = s.devIndex → (s.laneSet l).flip = some x →
        (t.laneSet l).cur = (s.laneSet l).cur ∧ (t.laneSet l).flip = if s.tick < 80 * x then none else some x) ∧
    (s.sessionAt i = some q → q.fn = fn → q.est = true → stream ≤ 64 →
      Table.get none s.ide stream = none ∨ Table.get none s.ide stream = some (fn, k) →
      replies (exec (.ideKm fn i stream (some key)) s) 0x7E fun t => Table.get none t.ide stream = some (fn, key) ∧ t.msi = s.msi ∧
        t.host = s.host) ∧
    (∀ v o, s.sessionAt i = some q → q.fn = fn → q.est = true → stream < 64 → Table.get none s.ide stream = some (.vf v, k) →
      s.vfPart v = some o → (s.part o).confidential = true → (s.part o).tdi ≠ .unlocked →
      (∃ t, exec (.ideKm fn i stream none) s = .next t ∧ Table.get none t.ide stream = none ∧ (t.part o).tdi = .error) ∧
      (fn ≠ .vf v → ∃ t, exec (.ideKm fn i stream (some key)) s = .next t ∧ Table.get none t.ide stream = some (fn, key) ∧
        (t.part o).tdi = .error)) ∧
    ((∀ r, s.sessionAt i = some r → r.fn ≠ fn ∨ r.est = false) →
      replies (exec (.ideKm fn i stream (some key)) s) 0x7F fun t => t.ide = s.ide) ∧
    (let peer := s.peer d
     let hears := fun (c : Nat) => exec (.wireDelivery (.spdm d c body)) s
     let sends := fun (o : Out) (c : Nat) (bs : List Byte) => ∃ t, o = .next t ∧ still t ∧
       t.wireOut = (s.tick, d, .spdm s.devIndex c bs) :: s.wireOut
     let givesUp := fun (o : Out) => ∃ t, o = .next t ∧ still t ∧ t.wireOut = s.wireOut ∧ d ∉ t.peerSessions ∧ (t.peer d).stage = 0
     (d ≠ s.devIndex → sends (hears 0x84) 0x04 [0x13] ∧
       (3 ≤ peer.heardAt → sends (hears 0x81) 0x01 (Config.sha3 s.aliasChain) ∧ sends (hears 0x82) 0x02 s.aliasChain ∧
         (64 ≤ s.openSessions → sends (hears 0xE4) 0x7F [3])) ∧
       (peer.heardAt < 3 → sends (hears 0x82) 0x7F [4]) ∧
       (peer.stage = 0x82 → Config.sha3 body = peer.digest →
         if chainOk body = true then sends (hears 0x02) 0x83 [] else givesUp (hears 0x02)) ∧
       (peer.stage = 0x83 →
         if body.take 64 = peer.digest ∧ Config.ed448Verify (Config.sha3 (peer.log ++ spdmMsg 0x03 (body.take 64))) (body.drop 64)
             ((peer.chain.drop 1081).take 57) = true
         then sends (hears 0x03) 0xE0 [2] else givesUp (hears 0x03)) ∧
       (peer.stage = 0xE0 → ∃ n, sends (hears 0x60) 0xE4 (Config.dheShare n)) ∧
       (peer.stage = 0xEC → sends (hears 0x6C) 0x84 []) ∧
       (peer.stage = 0xE4 →
         if Config.ed448Verify (Config.sha3 (peer.log ++ spdmMsg 0x64 (body.take 97))) (body.drop 97) ((peer.chain.drop 1081).take 57) = true
         then sends (hears 0x64) 0xE5 (Config.finishData (Config.dheSecret peer.share ((body.drop 1).take 96))
           (Config.sha3 (peer.log ++ spdmMsg 0x64 body)))
         else givesUp (hears 0x64))) ∧
     (code < 0x80 → peer.stage = 0 ∨ (code ≠ peer.stage - 0x80 ∧ code ≠ 0x7F) → hears code = .next s) ∧
     (peer.stage = 0x82 → Config.sha3 body ≠ peer.digest → givesUp (hears 0x02)) ∧
     (peer.stage ≠ 0 → givesUp (hears 0x7F)) ∧
     (let later := fun (t : State) => (t.peer d).stage = 0 ∧ ∃ u, s.tick < u ∧
        { due := u, work := { ctx := { session := 64 + d, idx := 1 }, instr := .heartbeat } } ∈ t.agenda
      (peer.stage = 0xE5 → ∃ t, hears 0x65 = .next t ∧ still t ∧ d ∈ t.peerSessions ∧ later t ∧
        ((∀ e < 32, s.present e = true → e ≠ s.devIndex → s.devIndex < e ∧ (e = d ∨ e ∈ s.peerSessions)) →
          ∀ l < 14, (∀ x, (s.laneSet l).flip = some x → x + 64 ≤ s.tick / 80) → ∃ key x, s.tick + 1536 < 80 * x ∧
            (t.laneSet l).flip = some x ∧ (t.laneSet l).cur = (s.laneSet l).cur ∧
            (if (s.laneSet l).cur then (t.laneSet l).key0 else (t.laneSet l).key1) = key ∧
            ∀ e < 32, s.present e = true → e ≠ s.devIndex →
              (s.tick, e, .linkKey s.devIndex l x (Config.sealRecord (t.peer e).secret key)) ∈ t.wireOut)) ∧
      (peer.stage = 0xE8 → ∃ t, hears 0x68 = .next t ∧ still t ∧ later t) ∧
      (peer.stage = 0xE9 → ∃ t, hears 0x69 = .next t ∧ still t ∧ later t ∧ (t.peer d).secret = Config.nextSecret peer.secret [])))

/-- Power, 15_light.md R332, 19_host.md R399, R406 to R408: power comes up with nothing of the volatile state before, in a pod of 1 to 32
devices, and boot ends within a second; what it leaves is up, or stopped at one of its first three checks; one that is up has measured itself and asks its peers for sessions; a function's
mailbox answers with the retry status until boot has ended, and not at all once it has stopped; power that goes takes all but flash
and host memory with it, and without power no step is made.
Where the spec leaves the point open, the model's choice stands (log entries 5, 39, 40, 42). -/
def Obligations.PowerAndBoot : Prop :=
  ∀ (s : State),
    (s.ctx.idx ≠ 1 → ∃ t u, exec .powerUp s = .next t ∧ t.powered = true ∧ t.boot = .off ∧ t.cores = [] ∧ t.runs = [] ∧ t.pool = [] ∧
      t.hbm = [] ∧ t.parts = [] ∧ t.sessions = [] ∧ t.flash = s.flash ∧ t.firmware = s.firmware ∧ t.host = s.host ∧
      t.podSize = max 1 (min 32 Config.podSize) ∧ s.tick ≤ u ∧ u < s.tick + 1100000000 ∧
      t.agenda = [{ due := u, work := { ctx := { idx := 1 }, instr := .powerUp } }]) ∧
    (s.ctx.idx = 1 → ∃ t, exec .powerUp s = .next t ∧ t.powered = s.powered ∧ t.pool = s.pool ∧ t.hbm = s.hbm ∧ t.parts = s.parts ∧
      (t.boot = .stopped 1 ∨ t.boot = .stopped 2 ∨ t.boot = .stopped 3 ∨ t.boot = .up) ∧
      (s.badConfig = true → t.boot ≠ .up) ∧
      (t.boot = .up → Config.shake256 s.firmware 64 = s.cfg 8 64 ∧ t.devIndex = ofLe (s.cfg 0x49 1) ∧
        t.flight = (if ofLe (s.cfg 0x4A 2) = 0 then 160 else ofLe (s.cfg 0x4A 2)) ∧
        t.floor = (if ofLe (s.cfg 0x48 1) = 0xFF then 5 else ofLe (s.cfg 0x48 1)) ∧
        (∀ k, Config.timekeeper = some k → t.timekeeper = k) ∧
        (Config.timekeeper = none → ∀ k < 32, t.present k = true → t.timekeeper ≤ k ∧ t.present t.timekeeper = true) ∧
        t.measures = [(1, Config.shake256 Config.bootRom 64), (2, Config.shake256 s.firmware 64),
          (3, Config.shake256 (s.cfg 0 0x8C2) 64), (4, Config.shake256 (s.cfg 4 4) 64)] ∧
        ∀ d < t.podSize, d ≠ t.devIndex → (s.tick, d, .spdm t.devIndex 0x84 []) ∈ t.wireOut)) ∧
    (s.powered = true → s.boot = .off → ∃ t, exec .getVersion s = .next t ∧ t.spdm = s.spdm ∧
      t.answers = { fn := s.ctx.fn, code := 0x100, body := [] } :: s.answers) ∧
    (∀ k, s.boot = .stopped k → exec .getVersion s = .next s) ∧
    (∃ t, exec .powerLoss s = .next t ∧ t.powered = false ∧ t.pool = [] ∧ t.hbm = [] ∧ t.cores = [] ∧ t.flash = s.flash ∧ t.host = s.host ∧
      t.parts = [] ∧ (t.inbox.all (fun d => d.work.instr != .powerUp) = true → step t = .fault .noPower))

/-! ## The whole machine -/

/-- Reset, 14_time_power.md R323, 15_light.md R336, 19_host.md R401, R406: power is up and nothing has booted; no core is in a run, no
partition is made, no byte of pool, HBM or host memory is listed, the rails stand at point 7 and F is 160. That bytes that nothing has
written read 0 is the model's choice (log entry 2), the registers' values are (log entry 8), and that the first step is POWER_UP, with
nothing yet booted (log entry 22). -/
def Obligations.ResetState : Prop :=
  let s := State.reset
  s.powered = true ∧ s.boot = .off ∧ s.memWf = true ∧ s.tabWf = true ∧ s.zeroWf = true ∧ s.runs = [] ∧ s.inbox = [] ∧
  s.todo = [{ instr := .powerUp }] ∧ s.flight = 160 ∧ s.floor = 5 ∧ (∀ r < 4, (s.rail r).point = 7) ∧
  (∀ c, (s.core c).run = none ∧ (s.core c).seq = .off ∧ (s.core c).mask = 0xF ∧ (s.core c).elastic = false ∧ (s.core c).n = 16) ∧
  (∀ p, (s.part p).made = false) ∧ (∀ v, (s.vf v).n = 4 ∧ (s.vf v).lqTail = 0 ∧ (s.vf v).cqTail = 0) ∧
  s.pool = [] ∧ s.hbm = [] ∧ s.host = [] ∧ ∀ k, s.hbm.get k = 0 ∧ s.pool.get k = 0

/-- A step runs the decoded instruction: a handler's word runs as it decodes (12_order.md R292, R294), the first step of the tick's list
runs in its context, and with neither the tick goes on to its next part.
Where the spec leaves the point open, the model's choice stands (log entries 1, 42). -/
def Obligations.StepRunsTheInstruction : Prop :=
  ∀ (s : State), s.powered = true →
    (∀ c i, s.cob = some c → c.pc < 32 → decodeCob (s.handlerWord c.part (32 * c.handler + c.pc)) = some i → step s = exec i s) ∧
    (∀ c, s.cob = some c → (32 ≤ c.pc ∨ decodeCob (s.handlerWord c.part (32 * c.handler + c.pc)) = none) → step s = .next s.cobFail) ∧
    (∀ w r, s.cob = none → s.todo = w :: r → step s = exec w.instr { s with todo := r, ctx := w.ctx }) ∧
    (s.cob = none → s.todo = [] → step s = .next s.advance)

/-- The order of a tick's parts, in the model's own order (log entry 1): the parts follow one another, and the last moves to the next
tick, or the one after a forward SLEW step, with OFF moved by 16 for each step (14_time_power.md R316); a SLEW that stepped receives
the new OFF. -/
def Obligations.TickAdvances : Prop :=
  ∀ (s : State), s.powered = true → s.cob = none → s.todo = [] →
    (s.sub < 18 → ∃ t, step s = .next t ∧ t.sub = s.sub + 1 ∧ t.tick = s.tick) ∧
    (18 ≤ s.sub → s.stripe = [] → ∃ t, step s = .next t ∧ t.sub = 0 ∧ t.slew = 0 ∧ t.tick = s.tick + (if 0 < s.slew then 2 else 1) ∧
      t.podoff = clampOff (s.podoff + 16 * s.slew) ∧ t.pool = s.pool ∧ t.hbm = s.hbm ∧ t.pend = s.pend ∧
      ∀ c, t.core c = (s.core c).slewed t.podoff)

/-- Words of the specification decode to what they stand for: handler 2 of 12_order.md R295, and syllables built from the fields of
02_bundles.md Table 2.3 and the opcodes of Tables 2.8 to 2.10. -/
def Obligations.DecodedWords : Prop :=
  decodeCob 0x0C000000 = some (.cobLdw 3 0) ∧ decodeCob 0xB3400000 = some (.cobCeq 3 1) ∧
  decodeCob 0xC0000001 = some (.cobSkipF 1) ∧ decodeCob 0x10000000 = some (.cobStw 0 0) ∧ decodeCob 0xF3000000 = some (.cobRet 3) ∧
  decodeCob 0xF3200000 = none ∧
  decodeSyl .s 0 (BitVec.ofNat 64 (0x02 * 2 ^ 51 + 7 * 2 ^ 46 + 8 * 2 ^ 41 + 9 * 2 ^ 36)) = .ok ⟨false, 0, .add 7 8 9⟩ ∧
  decodeSyl .s 0 0x02114C0B0000000C = .ok ⟨false, 0, .ldk 5 6 true 3 12⟩ ∧
  decodeSyl .s 0 0x0380000000000051 = .ok ⟨false, 0, .abort 0x51⟩ ∧
  Header.dec 0x00000001 = some ⟨false, 0, 0, 0, 0, 1⟩ ∧ Header.dec 0x40000001 = none

/-- Decoding the word of every cobbler micro-instruction gives it back, 12_order.md R294. -/
def Obligations.CobblerRoundTrip : Prop :=
  ∀ i : Instr, i.kind = .cob → ∃ w, encodeCob i = some w ∧ decodeCob w = some i

/-- Decoding the word of every well-formed script command gives it back with its stamp, 10_channels.md R235, R236; a header word gives
back its header, 02_bundles.md Table 2.2. -/
def Obligations.CommandAndHeaderRoundTrip : Prop :=
  (∀ (i : Instr) (d : BitVec 16) (n : Nat), i.kind = .cmd → i.wf n = true →
    ∃ w, encodeCmd d i = some w ∧ decodeCmd w = some i ∧ cmdStamp w = d.toNat) ∧
  (∀ h : Header, h.lastOnly &&& ~~~ h.mask = 0 → h.firstOnly &&& ~~~ h.mask = 0 → Header.dec h.enc = some h)

/-- Decoding the word of every well-formed syllable of class S, whatever its guard, gives it back, 02_bundles.md R45, R47, R52. -/
def Obligations.ScalarRoundTrip : Prop :=
  ∀ (i : Instr) (n : Nat) (gs : Bool) (gp : PReg), i.kind = .syl .s → i.wf n = true →
    ∃ w, encodeSyl ⟨gs, gp, i⟩ = some w ∧ decodeSyl .s n w = .ok ⟨gs, gp, i⟩

/-- Decoding the word of every well-formed syllable of the classes V, M, Z and C gives it back, 02_bundles.md R45, R47 to R51, R53, R54. -/
def Obligations.VectorMatrixCopyRoundTrip : Prop :=
  ∀ (i : Instr) (c : Cls) (n : Nat) (gs : Bool) (gp : PReg), c ≠ .s → i.kind = .syl c → i.wf n = true →
    ∃ w, encodeSyl ⟨gs, gp, i⟩ = some w ∧ decodeSyl c n w = .ok ⟨gs, gp, i⟩

/-- While a handler is in hand, 12_order.md R294, every step keeps the canonical form of the memories and of the state's tables.
That form is the model's own (log entry 2), and no rule of the spec. -/
def Obligations.HandlerStepsKeepMemory : Prop :=
  ∀ (s t : State) (c : Cob), s.powered = true → s.cob = some c → s.memWf = true → s.tabWf = true → step s = .next t →
    t.memWf = true ∧ t.tabWf = true

/-- Performing a write, of those that 04_cycles.md R98 has performed at the end of their cycle, keeps the canonical form of the
memories and of the state's tables and the zero of x0, and changes no memory but the pools; a write of bytes to a pool, an AMOL's and
an accumulator's change their own bytes alone. The canonical form is the model's own (log entry 2), and no rule of the spec. -/
def Obligations.WritesKeepForm : Prop :=
  ∀ (s : State) (u : Upd), s.memWf = true → s.tabWf = true → s.zeroWf = true →
    (s.apply u).memWf = true ∧ (s.apply u).tabWf = true ∧ (s.apply u).zeroWf = true ∧ (s.apply u).hbm = s.hbm ∧
    (s.apply u).host = s.host ∧
    ∀ c a bs, ((∃ w, u = .pool c a bs w) ∨ (∃ n, u = .amol c a bs n) ∨ (∃ b o, u = .acc c b o bs ∧ a = b + o)) →
      ∀ k, (k < poolKey c a ∨ poolKey c a + bs.length ≤ k) → (s.apply u).pool.get k = s.pool.get k

/-- 02_bundles.md R48: what is written to x0, p0 or q0 is discarded, they read zero, true and all ones, and the discarded write still
counts as a destination: two syllables of a bundle that name x0 conflict. -/
def Obligations.HardwiredRegisters : Prop :=
  ∀ (s : State) (k : Core) (v : X) (m : Mask) (b : Bool) (c : Nat),
    k.xr 0 = 0 ∧ k.pr 0 = true ∧ k.qr 0 = BitVec.allOnes 256 ∧
    s.apply (.x c 0 v) = s ∧ s.deferP 0 b = s ∧ s.apply (.q c 0 m) = s ∧
    ∀ (d : XReg) (e : PReg) (f : QReg) (xa xb : XReg) (t : VTy) (va : VReg) (i : BitVec 8) (q g h : QReg),
      slotConflict [(.s, (Instr.add d xa xb).dests), (.v0, (Instr.vext t d va i q).dests)] = some .v0 ∧
      slotConflict [(.s, (Instr.pmov e e).dests), (.v0, (Instr.qany t e q).dests)] = some .v0 ∧
      slotConflict [(.v0, (Instr.qand f g h).dests), (.v1, (Instr.qor f h g).dests)] = some .v1

/-- 05_registers.md R141: the quotient and the remainder for every divisor. -/
def Obligations.DivisionResults : Prop :=
  ∀ (s : State) (d a b : XReg),
    (s.xr b = 0 → ∀ nat,
      exec (.div d a b nat) s = .next ((s.defer 0 (.stat s.ctx.core 2)).deferX 19 d 0xFFFFFFFFFFFFFFFF) ∧
      exec (.rem d a b nat) s = .next ((s.defer 0 (.stat s.ctx.core 2)).deferX 19 d (s.xr a))) ∧
    (s.xr a = 0x8000000000000000 → s.xr b = 0xFFFFFFFFFFFFFFFF →
      exec (.div d a b false) s = .next (s.deferX 19 d 0x8000000000000000) ∧ exec (.rem d a b false) s = .next (s.deferX 19 d 0)) ∧
    (s.xr b ≠ 0 →
      exec (.div d a b true) s = .next (s.deferX 19 d (BitVec.ofNat 64 ((s.xr a).toNat / (s.xr b).toNat))) ∧
      exec (.rem d a b true) s = .next (s.deferX 19 d (BitVec.ofNat 64 ((s.xr a).toNat % (s.xr b).toNat))) ∧
      exec (.div d a b false) s = .next (s.deferX 19 d (BitVec.ofInt 64 ((s.xr a).toInt.tdiv (s.xr b).toInt))) ∧
      exec (.rem d a b false) s = .next (s.deferX 19 d
        (BitVec.ofInt 64 ((s.xr a).toInt - (s.xr a).toInt.tdiv (s.xr b).toInt * (s.xr b).toInt)))) ∧
    ∀ v, (s.apply (.stat s.ctx.core 2)).me.status = s.me.status ||| 2 ∧ (d ≠ 0 → (s.apply (.x s.ctx.core d v)).xr d = v)

/-- 14_time_power.md R315: what RDPOD writes at c0, by its variant; it is no elastic-only form, so no phase kind refuses it (R59),
and `rdpod.run x7` is the words 0x00000001, 0x00000000 and 0x0311C001. -/
def Obligations.RdpodResults : Prop :=
  ∀ (s : State) (xd : XReg) (r : Nat), s.me.run = some r →
    exec (.rdpod xd .pcc) s = .next (s.deferX 0 xd (BitVec.ofNat 64 s.tick)) ∧
    exec (.rdpod xd .run) s = .next (s.deferX 0 xd (BitVec.ofInt 64 ((s.tick : Int) - ((s.run r).tb : Int)))) ∧
    exec (.rdpod xd .slot) s = .next (s.deferX 0 xd (BitVec.ofNat 64 (s.tick / 80))) ∧
    (∀ v, (Instr.rdpod xd v).elasticOnly = false) ∧ Header.dec 0x00000001 = some ⟨false, 0, 0, 0, 0, 1⟩ ∧
    decodeSyl .s 0 0x0311C00100000000 = .ok ⟨false, 0, .rdpod 7 .run⟩

/-- Every step keeps the canonical form of the memories and of the state's tables: of pools, HBM, host memory and the contexts that
pre-empted runs have saved, strictly rising addresses and no byte listed that is 0; of the tables, one record for each unit. The form
is the model's own (log entry 2), and no rule of the spec; the claim covers every work that a step does, from a bundle's issue to
the controller's requests. -/
def Obligations.StepsKeepForm : Prop :=
  ∀ (s t : State), s.memWf = true → s.tabWf = true → step s = .next t → t.memWf = true ∧ t.tabWf = true
end

