-- ==== Sys2Proof/Laws/Ops.lean ====
section
/-! SUPPORT. What each shared operation can do, said once: a proof about an instruction cites these and does not unfold
the operation. -/

namespace Sys2Proof.Machine

/-! ## Messages and faults -/

/-- `t` is `s` but for the runs, the list of steps, the counter of free values and what the messages change. -/
def State.Noted (s t : State) : Prop :=
  ∃ n i o l ru td, t = { s with nonce := n, inbox := i, wireOut := o, wireLast := l, runs := ru, todo := td }

theorem State.Noted.refl (s : State) : s.Noted s := ⟨_, _, _, _, _, _, rfl⟩
theorem State.Noted.trans {s t u : State} (h : s.Noted t) (k : t.Noted u) : s.Noted u := by
  obtain ⟨n, i, o, l, ru, td, rfl⟩ := h
  obtain ⟨n', i', o', l', ru', td', rfl⟩ := k
  exact ⟨_, _, _, _, _, _, rfl⟩
theorem State.Noted.modRun {s t : State} (h : s.Noted t) (r : Nat) (f : Run → Run) : s.Noted (t.modRun r f) :=
  h.trans ⟨_, _, _, _, _, _, rfl⟩
theorem State.Noted.todo {s t : State} (h : s.Noted t) (td : List Work) : s.Noted { t with todo := td } :=
  h.trans ⟨_, _, _, _, _, _, rfl⟩

theorem State.Noted.core {s t : State} (h : s.Noted t) (c : Nat) : t.core c = s.core c := by
  obtain ⟨n, i, o, l, ru, td, rfl⟩ := h
  rfl

theorem State.Noted.me {s t : State} (h : s.Noted t) : t.me = s.me := by
  obtain ⟨n, i, o, l, ru, td, rfl⟩ := h
  rfl
/-- What `Noted` keeps of the rest of the state. -/
theorem State.Noted.keeps {s t : State} (h : s.Noted t) : t.pool = s.pool ∧ t.tags = s.tags ∧ t.hbm = s.hbm ∧
    t.host = s.host ∧ t.pend = s.pend ∧ t.ctx = s.ctx ∧ t.tick = s.tick := by
  obtain ⟨n, i, o, l, ru, td, rfl⟩ := h
  exact ⟨rfl, rfl, rfl, rfl, rfl, rfl, rfl⟩

/-- A wire message changes the counter of free values and the message lists. -/
theorem State.wire_noted (s : State) (d : Nat) (w : Wire) : s.Noted (s.wire d w) := by
  unfold State.wire State.draw
  dsimp only
  split <;> exact ⟨_, _, _, _, _, _, rfl⟩

theorem State.Noted.wires {s t : State} (h : s.Noted t) (ds : List Nat) (w : State → Wire) :
    s.Noted (ds.foldl (fun s d => s.wire d (w s)) t) := by
  induction ds generalizing t with
  | nil => exact h
  | cons d ds ih => exact ih (h.trans (t.wire_noted d (w t)))

/-- Noting a cause changes the runs, the list of steps and what a message changes. -/
theorem State.noteCause_noted (s : State) (r : Nat) (c : Cause) : s.Noted (s.noteCause r c) := by
  have hs := State.Noted.refl s
  unfold State.noteCause
  extract_lets ru a u first v
  have hu : s.Noted u := by
    simp only [u]
    split
    · exact (hs.modRun _ _).wires _ fun _ => .abort ru.part a
    · exact hs
  have hv : s.Noted v := by
    simp only [v]
    split
    · exact hu.modRun _ _
    · exact hu
  repeat' split
  all_goals first | exact hs | exact hv | exact hv.todo _

/-- A fault on core `c` changes the record, the fault, its place, its unit, the sequencer, what it held and the waits, of that core alone. -/
theorem State.raiseOn_noted (s : State) (c : Nat) (code : FCode) (p : Src) (w2 w3 : X) :
    s.Noted (s.raiseOn c code p w2 w3) ∨
    ∃ t q e h f w u, (s.modCore c fun k => { k with trap := t, faulted := q, faultKey := e, held := h, seq := f, waits := w, ue := u }).Noted
      (s.raiseOn c code p w2 w3) := by
  unfold State.raiseOn
  dsimp only
  split
  · exact .inl (State.Noted.refl s)
  · split
    · exact .inl (State.Noted.refl s)
    · split
      · exact .inr ⟨(s.core c).trap, _, _, (s.core c).held, .stopped, (s.core c).waits, (s.core c).ue, ((State.Noted.refl _).modRun _ _).todo _⟩
      · exact .inr ⟨_, _, _, _, _, _, _, State.noteCause_noted _ _ _⟩

/-- What a fault on a core of a run that has not faulted leaves: the core stopped, its record the first fault's. -/
theorem State.raiseOn_core {s : State} {c r : Nat} (code : FCode) (p : Src) (w2 w3 : X) (hr : (s.core c).run = some r)
    (hf : (s.core c).faulted = none) (hv : (s.core c).inRecov = false) :
    (s.raiseOn c code p w2 w3).core c =
      { s.core c with
        seq := .stopped, held := (s.core c).seq, faulted := some ((s.core c).cyc, (s.core c).cycTick)
        faultKey := (s.core c).place c p
        ue := none
        waits := if code == .deadline then [] else (s.core c).waits
        trap := (s.core c).trap.first
          { w0 := trapWord0 code.num (code.resumable && !(s.run r).last.gang) (s.run r).last.gang 0 p.slot p.head c p.delay p.eng
            w1 := BitVec.ofInt 64 (((s.core c).cycTick : Int) - (s.run r).tb)
            w2 := w2
            w3 := w3
            w4 := (s.core c).resumeWord
            w6 := BitVec.ofNat 64 ((s.core c).lcyc % 2 ^ 32 * 2 ^ 32 + (s.core c).taskIx)
            w7 := (s.run r).word7 code (s.core c).cycTick } } := by
  unfold State.raiseOn
  simp only [hr, hf, hv, Core.firstBy, Option.isNone_none, Bool.true_or, Bool.not_true, Bool.false_eq_true, if_false]
  refine ((State.noteCause_noted _ _ _).core c).trans ((State.core_modCore_same s c _).trans ?_)
  simp only [hr, hf, hv, Core.stopAt, Core.record, Option.isSome_none, Bool.false_and, Bool.false_eq_true, if_false]

/-- A fault against the syllable in hand keeps every register, every byte and every pending write. -/
theorem State.raise_keeps (s : State) (code : FCode) (w2 w3 : X) :
    (s.raise code w2 w3).me.x = s.me.x ∧ (s.raise code w2 w3).me.p = s.me.p ∧ (s.raise code w2 w3).me.q = s.me.q ∧
    (s.raise code w2 w3).pool = s.pool ∧ (s.raise code w2 w3).tags = s.tags ∧ (s.raise code w2 w3).hbm = s.hbm ∧
    (s.raise code w2 w3).host = s.host ∧ (s.raise code w2 w3).pend = s.pend ∧ (s.raise code w2 w3).ctx = s.ctx ∧
    (s.raise code w2 w3).tick = s.tick := by
  obtain h | ⟨t, q, e, g, f, w, u, h⟩ := s.raiseOn_noted s.ctx.core code s.src w2 w3
  · exact ⟨congrArg Core.x h.me, congrArg Core.p h.me, congrArg Core.q h.me, h.keeps⟩
  · have hm := h.me.trans (State.me_modMe s fun k =>
      { k with trap := t, faulted := q, faultKey := e, held := g, seq := f, waits := w, ue := u })
    exact ⟨(congrArg Core.x hm :), (congrArg Core.p hm :), (congrArg Core.q hm :), h.keeps⟩

/-! ## Waits, operations and steps to come -/

/-- A syllable that waits adds one wait, and the core waits, or will once it goes on from its fault; past a TEND the task's sequencer
stays as TEND has set it. -/
theorem State.hold_me (s : State) (w : WaitFor) (xd : Option XReg) (i : Option Instr) :
    (s.hold w xd i).me = { s.me with
      waits := s.me.waits ++ [{ base := s.me.cyc + 1 + (if s.me.inTask then s.ctx.stall else 0), what := w, ctx := s.ctx,
                                op := s.ctx.op, xd := xd, src := s.src, instr := i }]
      seq := if s.me.inTask && s.me.faulted.isNone then .wait else s.me.seq
      held := if s.me.inTask && s.me.faulted.isSome then .wait else s.me.held } := by
  unfold State.hold
  rw [State.me_modMe]
  dsimp only
  cases s.me.inTask <;> cases h : s.me.faulted <;> simp

/-- A step filed for a cycle of a core changes that core's list of steps or the steps of the present part. -/
theorem State.at_eq (s : State) (k c : Nat) (w : Work) :
    s.at k c w = { s with todo := s.todo ++ [w] } ∨
    s.at k c w = s.modCore k fun q => { q with sched := q.sched ++ [{ due := c, work := w }] } := by
  unfold State.at
  by_cases h : (decide (10 < s.sub) && decide (c ≤ (s.core k).cyc)) = true
  · exact .inl (if_pos h)
  · exact .inr (if_neg h)

@[simp] theorem State.at_pool (s : State) (k c : Nat) (w : Work) : (s.at k c w).pool = s.pool := by
  obtain h | h := s.at_eq k c w <;> rw [h]
  rfl
@[simp] theorem State.at_pend (s : State) (k c : Nat) (w : Work) : (s.at k c w).pend = s.pend := by
  obtain h | h := s.at_eq k c w <;> rw [h]
  rfl
@[simp] theorem State.at_ctx (s : State) (k c : Nat) (w : Work) : (s.at k c w).ctx = s.ctx := by
  obtain h | h := s.at_eq k c w <;> rw [h]
  rfl
@[simp] theorem State.at_tick (s : State) (k c : Nat) (w : Work) : (s.at k c w).tick = s.tick := by
  obtain h | h := s.at_eq k c w <;> rw [h]
  rfl

/-- An operation is the one last put under its number. -/
@[simp] theorem State.op_setOp_same (s : State) (c o : Nat) (v : Op) : (s.setOp c o (some v)).op c o = v := by
  simp [State.op, State.setOp]

end Sys2Proof.Machine
end

