-- ==== Sys2Proof/Laws/PerInstr.lean ====
section
/-! SUPPORT. Statements about every instruction as syntax, one lemma a constructor. -/

namespace Sys2Proof.Laws.Encodable

/-- The encoder of its kind, and no other, has a word for the instruction: a syllable, a script command or a cobbler
micro-instruction; a step of the device has none (02_bundles.md Tables 2.8 to 2.10, 10_channels.md Table 10.5, 12_order.md
Table 12.6). -/
def Statement (i : Instr) : Prop :=
  (encodeBody i).isSome = (match i.kind with | .syl _ => true | .cmd => false | .cob => false | .step => false) ∧
  (encodeCmd 0 i).isSome = (match i.kind with | .syl _ => false | .cmd => true | .cob => false | .step => false) ∧
  (encodeCob i).isSome = (match i.kind with | .syl _ => false | .cmd => false | .cob => true | .step => false)

theorem lqTailWrite : ∀ a0 a1, Statement (.lqTailWrite a0 a1) := fun _ _ => ⟨rfl, rfl, rfl⟩
theorem cqHeadWrite : ∀ a0 a1, Statement (.cqHeadWrite a0 a1) := fun _ _ => ⟨rfl, rfl, rfl⟩
theorem hostRegisterWrite : ∀ a0 a1 a2, Statement (.hostRegisterWrite a0 a1 a2) := fun _ _ _ => ⟨rfl, rfl, rfl⟩
theorem armMessage : ∀ a0 a1, Statement (.armMessage a0 a1) := fun _ _ => ⟨rfl, rfl, rfl⟩
theorem abortNotice : ∀ a0 a1, Statement (.abortNotice a0 a1) := fun _ _ => ⟨rfl, rfl, rfl⟩
theorem add : ∀ a0 a1 a2, Statement (.add a0 a1 a2) := fun _ _ _ => ⟨rfl, rfl, rfl⟩
theorem addi : ∀ a0 a1 a2, Statement (.addi a0 a1 a2) := fun _ _ _ => ⟨rfl, rfl, rfl⟩
theorem sub : ∀ a0 a1 a2, Statement (.sub a0 a1 a2) := fun _ _ _ => ⟨rfl, rfl, rfl⟩
theorem subi : ∀ a0 a1 a2, Statement (.subi a0 a1 a2) := fun _ _ _ => ⟨rfl, rfl, rfl⟩
theorem mul : ∀ a0 a1 a2, Statement (.mul a0 a1 a2) := fun _ _ _ => ⟨rfl, rfl, rfl⟩
theorem muli : ∀ a0 a1 a2, Statement (.muli a0 a1 a2) := fun _ _ _ => ⟨rfl, rfl, rfl⟩
theorem mulh : ∀ a0 a1 a2 a3, Statement (.mulh a0 a1 a2 a3) := fun _ _ _ _ => ⟨rfl, rfl, rfl⟩
theorem div : ∀ a0 a1 a2 a3, Statement (.div a0 a1 a2 a3) := fun _ _ _ _ => ⟨rfl, rfl, rfl⟩
theorem rem : ∀ a0 a1 a2 a3, Statement (.rem a0 a1 a2 a3) := fun _ _ _ _ => ⟨rfl, rfl, rfl⟩
theorem and : ∀ a0 a1 a2, Statement (.and a0 a1 a2) := fun _ _ _ => ⟨rfl, rfl, rfl⟩
theorem andi : ∀ a0 a1 a2, Statement (.andi a0 a1 a2) := fun _ _ _ => ⟨rfl, rfl, rfl⟩
theorem or : ∀ a0 a1 a2, Statement (.or a0 a1 a2) := fun _ _ _ => ⟨rfl, rfl, rfl⟩
theorem ori : ∀ a0 a1 a2, Statement (.ori a0 a1 a2) := fun _ _ _ => ⟨rfl, rfl, rfl⟩
theorem xor : ∀ a0 a1 a2, Statement (.xor a0 a1 a2) := fun _ _ _ => ⟨rfl, rfl, rfl⟩
theorem xori : ∀ a0 a1 a2, Statement (.xori a0 a1 a2) := fun _ _ _ => ⟨rfl, rfl, rfl⟩
theorem andn : ∀ a0 a1 a2, Statement (.andn a0 a1 a2) := fun _ _ _ => ⟨rfl, rfl, rfl⟩
theorem shl : ∀ a0 a1 a2, Statement (.shl a0 a1 a2) := fun _ _ _ => ⟨rfl, rfl, rfl⟩
theorem shli : ∀ a0 a1 a2, Statement (.shli a0 a1 a2) := fun _ _ _ => ⟨rfl, rfl, rfl⟩
theorem shr : ∀ a0 a1 a2, Statement (.shr a0 a1 a2) := fun _ _ _ => ⟨rfl, rfl, rfl⟩
theorem shri : ∀ a0 a1 a2, Statement (.shri a0 a1 a2) := fun _ _ _ => ⟨rfl, rfl, rfl⟩
theorem sha : ∀ a0 a1 a2, Statement (.sha a0 a1 a2) := fun _ _ _ => ⟨rfl, rfl, rfl⟩
theorem shai : ∀ a0 a1 a2, Statement (.shai a0 a1 a2) := fun _ _ _ => ⟨rfl, rfl, rfl⟩
theorem rot : ∀ a0 a1 a2, Statement (.rot a0 a1 a2) := fun _ _ _ => ⟨rfl, rfl, rfl⟩
theorem roti : ∀ a0 a1 a2, Statement (.roti a0 a1 a2) := fun _ _ _ => ⟨rfl, rfl, rfl⟩
theorem min : ∀ a0 a1 a2 a3, Statement (.min a0 a1 a2 a3) := fun _ _ _ _ => ⟨rfl, rfl, rfl⟩
theorem max : ∀ a0 a1 a2 a3, Statement (.max a0 a1 a2 a3) := fun _ _ _ _ => ⟨rfl, rfl, rfl⟩
theorem clz : ∀ a0 a1, Statement (.clz a0 a1) := fun _ _ => ⟨rfl, rfl, rfl⟩
theorem ctz : ∀ a0 a1, Statement (.ctz a0 a1) := fun _ _ => ⟨rfl, rfl, rfl⟩
theorem popc : ∀ a0 a1, Statement (.popc a0 a1) := fun _ _ => ⟨rfl, rfl, rfl⟩
theorem bfx : ∀ a0 a1 a2 a3 a4, Statement (.bfx a0 a1 a2 a3 a4) := fun _ _ _ _ _ => ⟨rfl, rfl, rfl⟩
theorem bfi : ∀ a0 a1 a2 a3, Statement (.bfi a0 a1 a2 a3) := fun _ _ _ _ => ⟨rfl, rfl, rfl⟩
theorem sel : ∀ a0 a1 a2 a3, Statement (.sel a0 a1 a2 a3) := fun _ _ _ _ => ⟨rfl, rfl, rfl⟩
theorem cmp : ∀ a0 a1 a2 a3, Statement (.cmp a0 a1 a2 a3) := fun _ _ _ _ => ⟨rfl, rfl, rfl⟩
theorem cmpi : ∀ a0 a1 a2 a3, Statement (.cmpi a0 a1 a2 a3) := fun _ _ _ _ => ⟨rfl, rfl, rfl⟩
theorem li : ∀ a0 a1 a2, Statement (.li a0 a1 a2) := fun _ _ _ => ⟨rfl, rfl, rfl⟩
theorem lih : ∀ a0 a1, Statement (.lih a0 a1) := fun _ _ => ⟨rfl, rfl, rfl⟩
theorem lea : ∀ a0 a1 a2 a3 a4, Statement (.lea a0 a1 a2 a3 a4) := fun _ _ _ _ _ => ⟨rfl, rfl, rfl⟩
theorem pand : ∀ a0 a1 a2 a3 a4, Statement (.pand a0 a1 a2 a3 a4) := fun _ _ _ _ _ => ⟨rfl, rfl, rfl⟩
theorem por : ∀ a0 a1 a2 a3 a4, Statement (.por a0 a1 a2 a3 a4) := fun _ _ _ _ _ => ⟨rfl, rfl, rfl⟩
theorem pxor : ∀ a0 a1 a2 a3 a4, Statement (.pxor a0 a1 a2 a3 a4) := fun _ _ _ _ _ => ⟨rfl, rfl, rfl⟩
theorem pnot : ∀ a0 a1, Statement (.pnot a0 a1) := fun _ _ => ⟨rfl, rfl, rfl⟩
theorem pmov : ∀ a0 a1, Statement (.pmov a0 a1) := fun _ _ => ⟨rfl, rfl, rfl⟩
theorem pmovGet : ∀ a0, Statement (.pmovGet a0) := fun _ => ⟨rfl, rfl, rfl⟩
theorem pmovPut : ∀ a0, Statement (.pmovPut a0) := fun _ => ⟨rfl, rfl, rfl⟩
theorem ld : ∀ a0 a1 a2 a3 a4, Statement (.ld a0 a1 a2 a3 a4) := fun _ _ _ _ _ => ⟨rfl, rfl, rfl⟩
theorem st : ∀ a0 a1 a2 a3, Statement (.st a0 a1 a2 a3) := fun _ _ _ _ => ⟨rfl, rfl, rfl⟩
theorem ldk : ∀ a0 a1 a2 a3 a4, Statement (.ldk a0 a1 a2 a3 a4) := fun _ _ _ _ _ => ⟨rfl, rfl, rfl⟩
theorem ldf : ∀ a0 a1 a2 a3 a4 a5, Statement (.ldf a0 a1 a2 a3 a4 a5) := fun _ _ _ _ _ _ => ⟨rfl, rfl, rfl⟩
theorem stf : ∀ a0 a1 a2 a3 a4, Statement (.stf a0 a1 a2 a3 a4) := fun _ _ _ _ _ => ⟨rfl, rfl, rfl⟩
theorem amo : ∀ a0 a1 a2 a3 a4 a5, Statement (.amo a0 a1 a2 a3 a4 a5) := fun _ _ _ _ _ _ => ⟨rfl, rfl, rfl⟩
theorem amol : ∀ a0 a1 a2 a3 a4 a5, Statement (.amol a0 a1 a2 a3 a4 a5) := fun _ _ _ _ _ _ => ⟨rfl, rfl, rfl⟩
theorem fence : ∀ a0 a1 a2, Statement (.fence a0 a1 a2) := fun _ _ _ => ⟨rfl, rfl, rfl⟩
theorem br : ∀ a0 a1, Statement (.br a0 a1) := fun _ _ => ⟨rfl, rfl, rfl⟩
theorem bri : ∀ a0, Statement (.bri a0) := fun _ => ⟨rfl, rfl, rfl⟩
theorem call : ∀ a0 a1 a2, Statement (.call a0 a1 a2) := fun _ _ _ => ⟨rfl, rfl, rfl⟩
theorem calli : ∀ a0 a1, Statement (.calli a0 a1) := fun _ _ => ⟨rfl, rfl, rfl⟩
theorem loop : ∀ a0 a1 a2 a3 a4 a5, Statement (.loop a0 a1 a2 a3 a4 a5) := fun _ _ _ _ _ _ => ⟨rfl, rfl, rfl⟩
theorem loopi : ∀ a0 a1 a2 a3 a4 a5, Statement (.loopi a0 a1 a2 a3 a4 a5) := fun _ _ _ _ _ _ => ⟨rfl, rfl, rfl⟩
theorem rdsr : ∀ a0 a1, Statement (.rdsr a0 a1) := fun _ _ => ⟨rfl, rfl, rfl⟩
theorem wrsr : ∀ a0 a1, Statement (.wrsr a0 a1) := fun _ _ => ⟨rfl, rfl, rfl⟩
theorem rdpod : ∀ a0 a1, Statement (.rdpod a0 a1) := fun _ _ => ⟨rfl, rfl, rfl⟩
theorem slew : ∀ a0 a1, Statement (.slew a0 a1) := fun _ _ => ⟨rfl, rfl, rfl⟩
theorem phase : ∀ a0 a1 a2 a3 a4, Statement (.phase a0 a1 a2 a3 a4) := fun _ _ _ _ _ => ⟨rfl, rfl, rfl⟩
theorem wait : ∀ a0 a1 a2 a3 a4, Statement (.wait a0 a1 a2 a3 a4) := fun _ _ _ _ _ => ⟨rfl, rfl, rfl⟩
theorem barArr : ∀ a0 a1, Statement (.barArr a0 a1) := fun _ _ => ⟨rfl, rfl, rfl⟩
theorem barWait : ∀ a0 a1 a2, Statement (.barWait a0 a1 a2) := fun _ _ _ => ⟨rfl, rfl, rfl⟩
theorem barAw : ∀ a0 a1, Statement (.barAw a0 a1) := fun _ _ => ⟨rfl, rfl, rfl⟩
theorem trap : ∀ a0, Statement (.trap a0) := fun _ => ⟨rfl, rfl, rfl⟩
theorem brk : ∀ a0, Statement (.brk a0) := fun _ => ⟨rfl, rfl, rfl⟩
theorem launch : ∀ a0 a1, Statement (.launch a0 a1) := fun _ _ => ⟨rfl, rfl, rfl⟩
theorem tkwait : ∀ a0 a1, Statement (.tkwait a0 a1) := fun _ _ => ⟨rfl, rfl, rfl⟩
theorem pushm : ∀ a0 a1, Statement (.pushm a0 a1) := fun _ _ => ⟨rfl, rfl, rfl⟩
theorem popm : ∀ a0 a1, Statement (.popm a0 a1) := fun _ _ => ⟨rfl, rfl, rfl⟩
theorem rdfrCore : ∀ a0 a1 a2, Statement (.rdfrCore a0 a1 a2) := fun _ _ _ => ⟨rfl, rfl, rfl⟩
theorem rdfrCause : ∀ a0 a1, Statement (.rdfrCause a0 a1) := fun _ _ => ⟨rfl, rfl, rfl⟩
theorem thaw : ∀ a0, Statement (.thaw a0) := fun _ => ⟨rfl, rfl, rfl⟩
theorem abort : ∀ a0, Statement (.abort a0) := fun _ => ⟨rfl, rfl, rfl⟩
theorem wfld : ∀ a0 a1 a2, Statement (.wfld a0 a1 a2) := fun _ _ _ => ⟨rfl, rfl, rfl⟩
theorem fadd : ∀ a0, Statement (.fadd a0) := fun _ => ⟨rfl, rfl, rfl⟩
theorem fsub : ∀ a0, Statement (.fsub a0) := fun _ => ⟨rfl, rfl, rfl⟩
theorem fmul : ∀ a0, Statement (.fmul a0) := fun _ => ⟨rfl, rfl, rfl⟩
theorem fma : ∀ a0, Statement (.fma a0) := fun _ => ⟨rfl, rfl, rfl⟩
theorem fms : ∀ a0, Statement (.fms a0) := fun _ => ⟨rfl, rfl, rfl⟩
theorem fnma : ∀ a0, Statement (.fnma a0) := fun _ => ⟨rfl, rfl, rfl⟩
theorem fmin : ∀ a0, Statement (.fmin a0) := fun _ => ⟨rfl, rfl, rfl⟩
theorem fmax : ∀ a0, Statement (.fmax a0) := fun _ => ⟨rfl, rfl, rfl⟩
theorem fabs : ∀ a0, Statement (.fabs a0) := fun _ => ⟨rfl, rfl, rfl⟩
theorem fneg : ∀ a0, Statement (.fneg a0) := fun _ => ⟨rfl, rfl, rfl⟩
theorem fcmp : ∀ a0, Statement (.fcmp a0) := fun _ => ⟨rfl, rfl, rfl⟩
theorem frcp : ∀ a0, Statement (.frcp a0) := fun _ => ⟨rfl, rfl, rfl⟩
theorem frsq : ∀ a0, Statement (.frsq a0) := fun _ => ⟨rfl, rfl, rfl⟩
theorem fexp2 : ∀ a0, Statement (.fexp2 a0) := fun _ => ⟨rfl, rfl, rfl⟩
theorem flog2 : ∀ a0, Statement (.flog2 a0) := fun _ => ⟨rfl, rfl, rfl⟩
theorem iadd : ∀ a0, Statement (.iadd a0) := fun _ => ⟨rfl, rfl, rfl⟩
theorem isub : ∀ a0, Statement (.isub a0) := fun _ => ⟨rfl, rfl, rfl⟩
theorem imul : ∀ a0, Statement (.imul a0) := fun _ => ⟨rfl, rfl, rfl⟩
theorem imulh : ∀ a0, Statement (.imulh a0) := fun _ => ⟨rfl, rfl, rfl⟩
theorem imin : ∀ a0, Statement (.imin a0) := fun _ => ⟨rfl, rfl, rfl⟩
theorem imax : ∀ a0, Statement (.imax a0) := fun _ => ⟨rfl, rfl, rfl⟩
theorem iabs : ∀ a0, Statement (.iabs a0) := fun _ => ⟨rfl, rfl, rfl⟩
theorem vand : ∀ a0, Statement (.vand a0) := fun _ => ⟨rfl, rfl, rfl⟩
theorem vor : ∀ a0, Statement (.vor a0) := fun _ => ⟨rfl, rfl, rfl⟩
theorem vxor : ∀ a0, Statement (.vxor a0) := fun _ => ⟨rfl, rfl, rfl⟩
theorem vshl : ∀ a0, Statement (.vshl a0) := fun _ => ⟨rfl, rfl, rfl⟩
theorem vshr : ∀ a0, Statement (.vshr a0) := fun _ => ⟨rfl, rfl, rfl⟩
theorem vsha : ∀ a0, Statement (.vsha a0) := fun _ => ⟨rfl, rfl, rfl⟩
theorem vpopc : ∀ a0, Statement (.vpopc a0) := fun _ => ⟨rfl, rfl, rfl⟩
theorem vclz : ∀ a0, Statement (.vclz a0) := fun _ => ⟨rfl, rfl, rfl⟩
theorem icmp : ∀ a0, Statement (.icmp a0) := fun _ => ⟨rfl, rfl, rfl⟩
theorem iadds : ∀ a0, Statement (.iadds a0) := fun _ => ⟨rfl, rfl, rfl⟩
theorem isubs : ∀ a0, Statement (.isubs a0) := fun _ => ⟨rfl, rfl, rfl⟩
theorem vmov : ∀ a0, Statement (.vmov a0) := fun _ => ⟨rfl, rfl, rfl⟩
theorem cvt : ∀ a0, Statement (.cvt a0) := fun _ => ⟨rfl, rfl, rfl⟩
theorem vsel : ∀ a0 a1, Statement (.vsel a0 a1) := fun _ _ => ⟨rfl, rfl, rfl⟩
theorem viota : ∀ a0, Statement (.viota a0) := fun _ => ⟨rfl, rfl, rfl⟩
theorem perm : ∀ a0, Statement (.perm a0) := fun _ => ⟨rfl, rfl, rfl⟩
theorem rotl : ∀ a0 a1, Statement (.rotl a0 a1) := fun _ _ => ⟨rfl, rfl, rfl⟩
theorem bcast : ∀ a0 a1, Statement (.bcast a0 a1) := fun _ _ => ⟨rfl, rfl, rfl⟩
theorem zip : ∀ a0, Statement (.zip a0) := fun _ => ⟨rfl, rfl, rfl⟩
theorem unzip : ∀ a0, Statement (.unzip a0) := fun _ => ⟨rfl, rfl, rfl⟩
theorem rsum : ∀ a0, Statement (.rsum a0) := fun _ => ⟨rfl, rfl, rfl⟩
theorem rmin : ∀ a0, Statement (.rmin a0) := fun _ => ⟨rfl, rfl, rfl⟩
theorem rmax : ∀ a0, Statement (.rmax a0) := fun _ => ⟨rfl, rfl, rfl⟩
theorem rmini : ∀ a0, Statement (.rmini a0) := fun _ => ⟨rfl, rfl, rfl⟩
theorem scan : ∀ a0, Statement (.scan a0) := fun _ => ⟨rfl, rfl, rfl⟩
theorem vext : ∀ a0 a1 a2 a3 a4, Statement (.vext a0 a1 a2 a3 a4) := fun _ _ _ _ _ => ⟨rfl, rfl, rfl⟩
theorem vins : ∀ a0 a1, Statement (.vins a0 a1) := fun _ _ => ⟨rfl, rfl, rfl⟩
theorem vhash : ∀ a0, Statement (.vhash a0) := fun _ => ⟨rfl, rfl, rfl⟩
theorem vld : ∀ a0, Statement (.vld a0) := fun _ => ⟨rfl, rfl, rfl⟩
theorem vst : ∀ a0, Statement (.vst a0) := fun _ => ⟨rfl, rfl, rfl⟩
theorem vlds : ∀ a0, Statement (.vlds a0) := fun _ => ⟨rfl, rfl, rfl⟩
theorem vsts : ∀ a0, Statement (.vsts a0) := fun _ => ⟨rfl, rfl, rfl⟩
theorem vgath : ∀ a0, Statement (.vgath a0) := fun _ => ⟨rfl, rfl, rfl⟩
theorem vscat : ∀ a0, Statement (.vscat a0) := fun _ => ⟨rfl, rfl, rfl⟩
theorem vgathk : ∀ a0 a1 a2, Statement (.vgathk a0 a1 a2) := fun _ _ _ => ⟨rfl, rfl, rfl⟩
theorem spush : ∀ a0 a1 a2 a3, Statement (.spush a0 a1 a2 a3) := fun _ _ _ _ => ⟨rfl, rfl, rfl⟩
theorem spop : ∀ a0 a1 a2 a3, Statement (.spop a0 a1 a2 a3) := fun _ _ _ _ => ⟨rfl, rfl, rfl⟩
theorem scnt : ∀ a0 a1 a2 a3, Statement (.scnt a0 a1 a2 a3) := fun _ _ _ _ => ⟨rfl, rfl, rfl⟩
theorem qand : ∀ a0 a1 a2, Statement (.qand a0 a1 a2) := fun _ _ _ => ⟨rfl, rfl, rfl⟩
theorem qor : ∀ a0 a1 a2, Statement (.qor a0 a1 a2) := fun _ _ _ => ⟨rfl, rfl, rfl⟩
theorem qxor : ∀ a0 a1 a2, Statement (.qxor a0 a1 a2) := fun _ _ _ => ⟨rfl, rfl, rfl⟩
theorem qnot : ∀ a0 a1, Statement (.qnot a0 a1) := fun _ _ => ⟨rfl, rfl, rfl⟩
theorem qpopMask : ∀ a0 a1 a2, Statement (.qpopMask a0 a1 a2) := fun _ _ _ => ⟨rfl, rfl, rfl⟩
theorem qfirst : ∀ a0 a1 a2, Statement (.qfirst a0 a1 a2) := fun _ _ _ => ⟨rfl, rfl, rfl⟩
theorem qany : ∀ a0 a1 a2, Statement (.qany a0 a1 a2) := fun _ _ _ => ⟨rfl, rfl, rfl⟩
theorem mma : ∀ a0 a1 a2 a3 a4, Statement (.mma a0 a1 a2 a3 a4) := fun _ _ _ _ _ => ⟨rfl, rfl, rfl⟩
theorem mmat : ∀ a0 a1 a2 a3 a4, Statement (.mmat a0 a1 a2 a3 a4) := fun _ _ _ _ _ => ⟨rfl, rfl, rfl⟩
theorem mzero : ∀ a0 a1, Statement (.mzero a0 a1) := fun _ _ => ⟨rfl, rfl, rfl⟩
theorem mld : ∀ a0 a1 a2 a3, Statement (.mld a0 a1 a2 a3) := fun _ _ _ _ => ⟨rfl, rfl, rfl⟩
theorem mst : ∀ a0 a1 a2, Statement (.mst a0 a1 a2) := fun _ _ _ => ⟨rfl, rfl, rfl⟩
theorem macs : ∀ a0 a1 a2, Statement (.macs a0 a1 a2) := fun _ _ _ => ⟨rfl, rfl, rfl⟩
theorem mcvt : ∀ a0 a1 a2 a3 a4, Statement (.mcvt a0 a1 a2 a3 a4) := fun _ _ _ _ _ => ⟨rfl, rfl, rfl⟩
theorem mlda : ∀ a0 a1 a2, Statement (.mlda a0 a1 a2) := fun _ _ _ => ⟨rfl, rfl, rfl⟩
theorem mtrn : ∀ a0 a1, Statement (.mtrn a0 a1) := fun _ _ => ⟨rfl, rfl, rfl⟩
theorem zscla : ∀ a0 a1, Statement (.zscla a0 a1) := fun _ _ => ⟨rfl, rfl, rfl⟩
theorem zsclb : ∀ a0 a1, Statement (.zsclb a0 a1) := fun _ _ => ⟨rfl, rfl, rfl⟩
theorem ztab : ∀ a0 a1, Statement (.ztab a0 a1) := fun _ _ => ⟨rfl, rfl, rfl⟩
theorem zfmt : ∀ a0 a1, Statement (.zfmt a0 a1) := fun _ _ => ⟨rfl, rfl, rfl⟩
theorem zfsel : ∀ a0 a1 a2, Statement (.zfsel a0 a1 a2) := fun _ _ _ => ⟨rfl, rfl, rfl⟩
theorem cpl : ∀ a0, Statement (.cpl a0) := fun _ => ⟨rfl, rfl, rfl⟩
theorem cpv : ∀ a0, Statement (.cpv a0) := fun _ => ⟨rfl, rfl, rfl⟩
theorem cpi : ∀ a0, Statement (.cpi a0) := fun _ => ⟨rfl, rfl, rfl⟩
theorem dtab : ∀ a0 a1, Statement (.dtab a0 a1) := fun _ _ => ⟨rfl, rfl, rfl⟩
theorem spb : ∀ a0, Statement (.spb a0) := fun _ => ⟨rfl, rfl, rfl⟩
theorem fla : ∀ a0, Statement (.fla a0) := fun _ => ⟨rfl, rfl, rfl⟩
theorem chr : ∀ a0, Statement (.chr a0) := fun _ => ⟨rfl, rfl, rfl⟩
theorem chw : ∀ a0, Statement (.chw a0) := fun _ => ⟨rfl, rfl, rfl⟩
theorem act : ∀ a0 a1 a2, Statement (.act a0 a1 a2) := fun _ _ _ => ⟨rfl, rfl, rfl⟩
theorem rd : ∀ a0 a1 a2 a3, Statement (.rd a0 a1 a2 a3) := fun _ _ _ _ => ⟨rfl, rfl, rfl⟩
theorem wr : ∀ a0 a1 a2 a3, Statement (.wr a0 a1 a2 a3) := fun _ _ _ _ => ⟨rfl, rfl, rfl⟩
theorem pre : ∀ a0 a1, Statement (.pre a0 a1) := fun _ _ => ⟨rfl, rfl, rfl⟩
theorem refpb : ∀ a0 a1, Statement (.refpb a0 a1) := fun _ _ => ⟨rfl, rfl, rfl⟩
theorem sealrd : ∀ a0 a1 a2, Statement (.sealrd a0 a1 a2) := fun _ _ _ => ⟨rfl, rfl, rfl⟩
theorem sealwr : ∀ a0 a1 a2, Statement (.sealwr a0 a1 a2) := fun _ _ _ => ⟨rfl, rfl, rfl⟩
theorem parrmw : ∀ a0, Statement (.parrmw a0) := fun _ => ⟨rfl, rfl, rfl⟩
theorem gopen : ∀ a0, Statement (.gopen a0) := fun _ => ⟨rfl, rfl, rfl⟩
theorem fetch : ∀ a0 a1 a2, Statement (.fetch a0 a1 a2) := fun _ _ _ => ⟨rfl, rfl, rfl⟩
theorem rdLanding : ∀ a0 a1 a2 a3, Statement (.rdLanding a0 a1 a2 a3) := fun _ _ _ _ => ⟨rfl, rfl, rfl⟩
theorem cobLdw : ∀ a0 a1, Statement (.cobLdw a0 a1) := fun _ _ => ⟨rfl, rfl, rfl⟩
theorem cobStw : ∀ a0 a1, Statement (.cobStw a0 a1) := fun _ _ => ⟨rfl, rfl, rfl⟩
theorem cobAdd : ∀ a0 a1 a2, Statement (.cobAdd a0 a1 a2) := fun _ _ _ => ⟨rfl, rfl, rfl⟩
theorem cobSub : ∀ a0 a1 a2, Statement (.cobSub a0 a1 a2) := fun _ _ _ => ⟨rfl, rfl, rfl⟩
theorem cobAnd : ∀ a0 a1 a2, Statement (.cobAnd a0 a1 a2) := fun _ _ _ => ⟨rfl, rfl, rfl⟩
theorem cobOr : ∀ a0 a1 a2, Statement (.cobOr a0 a1 a2) := fun _ _ _ => ⟨rfl, rfl, rfl⟩
theorem cobXor : ∀ a0 a1 a2, Statement (.cobXor a0 a1 a2) := fun _ _ _ => ⟨rfl, rfl, rfl⟩
theorem cobMins : ∀ a0 a1 a2, Statement (.cobMins a0 a1 a2) := fun _ _ _ => ⟨rfl, rfl, rfl⟩
theorem cobMaxs : ∀ a0 a1 a2, Statement (.cobMaxs a0 a1 a2) := fun _ _ _ => ⟨rfl, rfl, rfl⟩
theorem cobMinn : ∀ a0 a1 a2, Statement (.cobMinn a0 a1 a2) := fun _ _ _ => ⟨rfl, rfl, rfl⟩
theorem cobMaxn : ∀ a0 a1 a2, Statement (.cobMaxn a0 a1 a2) := fun _ _ _ => ⟨rfl, rfl, rfl⟩
theorem cobCeq : ∀ a0 a1, Statement (.cobCeq a0 a1) := fun _ _ => ⟨rfl, rfl, rfl⟩
theorem cobSkipT : ∀ a0, Statement (.cobSkipT a0) := fun _ => ⟨rfl, rfl, rfl⟩
theorem cobSkipF : ∀ a0, Statement (.cobSkipF a0) := fun _ => ⟨rfl, rfl, rfl⟩
theorem cobMov : ∀ a0 a1, Statement (.cobMov a0 a1) := fun _ _ => ⟨rfl, rfl, rfl⟩
theorem cobMovi : ∀ a0 a1, Statement (.cobMovi a0 a1) := fun _ _ => ⟨rfl, rfl, rfl⟩
theorem cobRet : ∀ a0, Statement (.cobRet a0) := fun _ => ⟨rfl, rfl, rfl⟩
theorem qapp : ∀ a0 a1 a2, Statement (.qapp a0 a1 a2) := fun _ _ _ => ⟨rfl, rfl, rfl⟩
theorem lsend : ∀ a0, Statement (.lsend a0) := fun _ => ⟨rfl, rfl, rfl⟩
theorem lrecv : ∀ a0 a1 a2, Statement (.lrecv a0 a1 a2) := fun _ _ _ => ⟨rfl, rfl, rfl⟩
theorem qsend : ∀ a0, Statement (.qsend a0) := fun _ => ⟨rfl, rfl, rfl⟩
theorem qpopCask : ∀ a0 a1 a2, Statement (.qpopCask a0 a1 a2) := fun _ _ _ => ⟨rfl, rfl, rfl⟩
theorem esend : ∀ a0 a1 a2 a3, Statement (.esend a0 a1 a2 a3) := fun _ _ _ _ => ⟨rfl, rfl, rfl⟩
theorem emcast : ∀ a0 a1 a2 a3 a4, Statement (.emcast a0 a1 a2 a3 a4) := fun _ _ _ _ _ => ⟨rfl, rfl, rfl⟩
theorem drainMark : ∀ a0 a1, Statement (.drainMark a0 a1) := fun _ _ => ⟨rfl, rfl, rfl⟩
theorem drainPoll : ∀ a0 a1, Statement (.drainPoll a0 a1) := fun _ _ => ⟨rfl, rfl, rfl⟩
theorem drainRelease : ∀ a0 a1, Statement (.drainRelease a0 a1) := fun _ _ => ⟨rfl, rfl, rfl⟩
theorem flitReceive : ∀ a0, Statement (.flitReceive a0) := fun _ => ⟨rfl, rfl, rfl⟩
theorem wireDelivery : ∀ a0, Statement (.wireDelivery a0) := fun _ => ⟨rfl, rfl, rfl⟩
theorem beaconUpdate : ∀ a0, Statement (.beaconUpdate a0) := fun _ => ⟨rfl, rfl, rfl⟩
theorem poolUe : ∀ a0 a1 a2 a3, Statement (.poolUe a0 a1 a2 a3) := fun _ _ _ _ => ⟨rfl, rfl, rfl⟩
theorem correctedError : ∀ a0, Statement (.correctedError a0) := fun _ => ⟨rfl, rfl, rfl⟩
theorem selfTestVerdict : ∀ a0 a1, Statement (.selfTestVerdict a0 a1) := fun _ _ => ⟨rfl, rfl, rfl⟩
theorem lineFailure : ∀ a0 a1, Statement (.lineFailure a0 a1) := fun _ _ => ⟨rfl, rfl, rfl⟩
theorem combFailure : ∀ a0, Statement (.combFailure a0) := fun _ => ⟨rfl, rfl, rfl⟩
theorem partitionCreateDelete : ∀ a0 a1 a2, Statement (.partitionCreateDelete a0 a1 a2) := fun _ _ _ => ⟨rfl, rfl, rfl⟩
theorem vfBind : ∀ a0 a1 a2, Statement (.vfBind a0 a1 a2) := fun _ _ _ => ⟨rfl, rfl, rfl⟩
theorem setPageTableRoot : ∀ a0 a1 a2 a3, Statement (.setPageTableRoot a0 a1 a2 a3) := fun _ _ _ _ => ⟨rfl, rfl, rfl⟩
theorem loadHandlerTable : ∀ a0 a1 a2, Statement (.loadHandlerTable a0 a1 a2) := fun _ _ _ => ⟨rfl, rfl, rfl⟩
theorem loadRackingTable : ∀ a0 a1 a2 a3, Statement (.loadRackingTable a0 a1 a2 a3) := fun _ _ _ _ => ⟨rfl, rfl, rfl⟩
theorem reconfigurePlane : ∀ a0 a1 a2 a3 a4 a5, Statement (.reconfigurePlane a0 a1 a2 a3 a4 a5) := fun _ _ _ _ _ _ => ⟨rfl, rfl, rfl⟩
theorem setLimits : ∀ a0 a1 a2, Statement (.setLimits a0 a1 a2) := fun _ _ _ => ⟨rfl, rfl, rfl⟩
theorem writeMulticastGroup : ∀ a0 a1 a2 a3 a4 a5, Statement (.writeMulticastGroup a0 a1 a2 a3 a4 a5) := fun _ _ _ _ _ _ => ⟨rfl, rfl, rfl⟩
theorem pageCountersMigrate : ∀ a0 a1 a2, Statement (.pageCountersMigrate a0 a1 a2) := fun _ _ _ => ⟨rfl, rfl, rfl⟩
theorem checkpointRestore : ∀ a0 a1 a2 a3, Statement (.checkpointRestore a0 a1 a2 a3) := fun _ _ _ _ => ⟨rfl, rfl, rfl⟩
theorem loadMemoryKey : ∀ a0 a1 a2 a3, Statement (.loadMemoryKey a0 a1 a2 a3) := fun _ _ _ _ => ⟨rfl, rfl, rfl⟩
theorem getCertificate : ∀ a0 a1, Statement (.getCertificate a0 a1) := fun _ _ => ⟨rfl, rfl, rfl⟩
theorem challenge : ∀ a0 a1, Statement (.challenge a0 a1) := fun _ _ => ⟨rfl, rfl, rfl⟩
theorem getMeasurements : ∀ a0 a1, Statement (.getMeasurements a0 a1) := fun _ _ => ⟨rfl, rfl, rfl⟩
theorem keyExchange : ∀ a0 a1, Statement (.keyExchange a0 a1) := fun _ _ => ⟨rfl, rfl, rfl⟩
theorem parrmwWrite : ∀ a0 a1 a2, Statement (.parrmwWrite a0 a1 a2) := fun _ _ _ => ⟨rfl, rfl, rfl⟩
theorem linkBringUp : ∀ a0 a1 a2, Statement (.linkBringUp a0 a1 a2) := fun _ _ _ => ⟨rfl, rfl, rfl⟩
theorem ideKm : ∀ a0 a1 a2 a3, Statement (.ideKm a0 a1 a2 a3) := fun _ _ _ _ => ⟨rfl, rfl, rfl⟩
theorem laneFloorRequest : ∀ a0 a1, Statement (.laneFloorRequest a0 a1) := fun _ _ => ⟨rfl, rfl, rfl⟩
theorem powerUp : Statement .powerUp := ⟨rfl, rfl, rfl⟩
theorem lastTaken : Statement .lastTaken := ⟨rfl, rfl, rfl⟩
theorem runStart : Statement .runStart := ⟨rfl, rfl, rfl⟩
theorem quorumCheck : Statement .quorumCheck := ⟨rfl, rfl, rfl⟩
theorem taskStart : Statement .taskStart := ⟨rfl, rfl, rfl⟩
theorem budgetExpiry : Statement .budgetExpiry := ⟨rfl, rfl, rfl⟩
theorem lengthExpiry : Statement .lengthExpiry := ⟨rfl, rfl, rfl⟩
theorem gateTick : Statement .gateTick := ⟨rfl, rfl, rfl⟩
theorem bundleIssue : Statement .bundleIssue := ⟨rfl, rfl, rfl⟩
theorem resultWriteback : Statement .resultWriteback := ⟨rfl, rfl, rfl⟩
theorem runFreeze : Statement .runFreeze := ⟨rfl, rfl, rfl⟩
theorem recoveryStart : Statement .recoveryStart := ⟨rfl, rfl, rfl⟩
theorem runRestart : Statement .runRestart := ⟨rfl, rfl, rfl⟩
theorem gangAbortTick : Statement .gangAbortTick := ⟨rfl, rfl, rfl⟩
theorem runEnd : Statement .runEnd := ⟨rfl, rfl, rfl⟩
theorem preemptRequest : Statement .preemptRequest := ⟨rfl, rfl, rfl⟩
theorem preemptFreeze : Statement .preemptFreeze := ⟨rfl, rfl, rfl⟩
theorem yieldGapExpiry : Statement .yieldGapExpiry := ⟨rfl, rfl, rfl⟩
theorem preemptResume : Statement .preemptResume := ⟨rfl, rfl, rfl⟩
theorem nop : Statement .nop := ⟨rfl, rfl, rfl⟩
theorem vnop : Statement .vnop := ⟨rfl, rfl, rfl⟩
theorem mnop : Statement .mnop := ⟨rfl, rfl, rfl⟩
theorem znop : Statement .znop := ⟨rfl, rfl, rfl⟩
theorem cnop : Statement .cnop := ⟨rfl, rfl, rfl⟩
theorem tend : Statement .tend := ⟨rfl, rfl, rfl⟩
theorem mmaResultWrite : Statement .mmaResultWrite := ⟨rfl, rfl, rfl⟩
theorem followOnIssue : Statement .followOnIssue := ⟨rfl, rfl, rfl⟩
theorem copyBeat : Statement .copyBeat := ⟨rfl, rfl, rfl⟩
theorem decodeContainer : Statement .decodeContainer := ⟨rfl, rfl, rfl⟩
theorem spillFillGroup : Statement .spillFillGroup := ⟨rfl, rfl, rfl⟩
theorem chrCollect : Statement .chrCollect := ⟨rfl, rfl, rfl⟩
theorem chwArrival : Statement .chwArrival := ⟨rfl, rfl, rfl⟩
theorem sealVerdict : Statement .sealVerdict := ⟨rfl, rfl, rfl⟩
theorem sealLatchUpdate : Statement .sealLatchUpdate := ⟨rfl, rfl, rfl⟩
theorem prea : Statement .prea := ⟨rfl, rfl, rfl⟩
theorem ref : Statement .ref := ⟨rfl, rfl, rfl⟩
theorem gclose : Statement .gclose := ⟨rfl, rfl, rfl⟩
theorem gsync : Statement .gsync := ⟨rfl, rfl, rfl⟩
theorem scriptEnd : Statement .scriptEnd := ⟨rfl, rfl, rfl⟩
theorem fetchComplete : Statement .fetchComplete := ⟨rfl, rfl, rfl⟩
theorem epochStart : Statement .epochStart := ⟨rfl, rfl, rfl⟩
theorem slotAgeExpiry : Statement .slotAgeExpiry := ⟨rfl, rfl, rfl⟩
theorem keptCopyExpiry : Statement .keptCopyExpiry := ⟨rfl, rfl, rfl⟩
theorem deltaAgeExpiry : Statement .deltaAgeExpiry := ⟨rfl, rfl, rfl⟩
theorem refreshInterval : Statement .refreshInterval := ⟨rfl, rfl, rfl⟩
theorem guestWindowEnd : Statement .guestWindowEnd := ⟨rfl, rfl, rfl⟩
theorem guestAccess : Statement .guestAccess := ⟨rfl, rfl, rfl⟩
theorem scriptRunonLimit : Statement .scriptRunonLimit := ⟨rfl, rfl, rfl⟩
theorem handlerRun : Statement .handlerRun := ⟨rfl, rfl, rfl⟩
theorem translationAnswer : Statement .translationAnswer := ⟨rfl, rfl, rfl⟩
theorem farDataReturn : Statement .farDataReturn := ⟨rfl, rfl, rfl⟩
theorem farStorePerform : Statement .farStorePerform := ⟨rfl, rfl, rfl⟩
theorem fenceComplete : Statement .fenceComplete := ⟨rfl, rfl, rfl⟩
theorem amoResult : Statement .amoResult := ⟨rfl, rfl, rfl⟩
theorem waitEnd : Statement .waitEnd := ⟨rfl, rfl, rfl⟩
theorem launchAnswer : Statement .launchAnswer := ⟨rfl, rfl, rfl⟩
theorem barrierFlip : Statement .barrierFlip := ⟨rfl, rfl, rfl⟩
theorem qappAnswer : Statement .qappAnswer := ⟨rfl, rfl, rfl⟩
theorem queueDelivery : Statement .queueDelivery := ⟨rfl, rfl, rfl⟩
theorem expectationCheck : Statement .expectationCheck := ⟨rfl, rfl, rfl⟩
theorem slotBoundary : Statement .slotBoundary := ⟨rfl, rfl, rfl⟩
theorem countedFlitDepart : Statement .countedFlitDepart := ⟨rfl, rfl, rfl⟩
theorem wireFlitDepart : Statement .wireFlitDepart := ⟨rfl, rfl, rfl⟩
theorem drainMarkerSend : Statement .drainMarkerSend := ⟨rfl, rfl, rfl⟩
theorem flitLanding : Statement .flitLanding := ⟨rfl, rfl, rfl⟩
theorem creditMessage : Statement .creditMessage := ⟨rfl, rfl, rfl⟩
theorem timekeeperTakeover : Statement .timekeeperTakeover := ⟨rfl, rfl, rfl⟩
theorem slewStep : Statement .slewStep := ⟨rfl, rfl, rfl⟩
theorem railWakeComplete : Statement .railWakeComplete := ⟨rfl, rfl, rfl⟩
theorem voteRiseComplete : Statement .voteRiseComplete := ⟨rfl, rfl, rfl⟩
theorem clockRecompute : Statement .clockRecompute := ⟨rfl, rfl, rfl⟩
theorem keyFlip : Statement .keyFlip := ⟨rfl, rfl, rfl⟩
theorem reconfigDarkStart : Statement .reconfigDarkStart := ⟨rfl, rfl, rfl⟩
theorem relockComplete : Statement .relockComplete := ⟨rfl, rfl, rfl⟩
theorem keyRotationCommit : Statement .keyRotationCommit := ⟨rfl, rfl, rfl⟩
theorem resealScan : Statement .resealScan := ⟨rfl, rfl, rfl⟩
theorem lockInterface : Statement .lockInterface := ⟨rfl, rfl, rfl⟩
theorem startInterface : Statement .startInterface := ⟨rfl, rfl, rfl⟩
theorem stopInterface : Statement .stopInterface := ⟨rfl, rfl, rfl⟩
theorem functionLevelReset : Statement .functionLevelReset := ⟨rfl, rfl, rfl⟩
theorem getVersion : Statement .getVersion := ⟨rfl, rfl, rfl⟩
theorem getCapabilities : Statement .getCapabilities := ⟨rfl, rfl, rfl⟩
theorem negotiateAlgorithms : Statement .negotiateAlgorithms := ⟨rfl, rfl, rfl⟩
theorem getDigests : Statement .getDigests := ⟨rfl, rfl, rfl⟩
theorem finish : Statement .finish := ⟨rfl, rfl, rfl⟩
theorem keyUpdate : Statement .keyUpdate := ⟨rfl, rfl, rfl⟩
theorem heartbeat : Statement .heartbeat := ⟨rfl, rfl, rfl⟩
theorem endSession : Statement .endSession := ⟨rfl, rfl, rfl⟩
theorem armDeadline : Statement .armDeadline := ⟨rfl, rfl, rfl⟩
theorem arraySample : Statement .arraySample := ⟨rfl, rfl, rfl⟩
theorem tileMoverGroup : Statement .tileMoverGroup := ⟨rfl, rfl, rfl⟩
theorem vaultSample : Statement .vaultSample := ⟨rfl, rfl, rfl⟩
theorem codeImageLoad : Statement .codeImageLoad := ⟨rfl, rfl, rfl⟩
theorem decodeTableLoad : Statement .decodeTableLoad := ⟨rfl, rfl, rfl⟩
theorem powerLoss : Statement .powerLoss := ⟨rfl, rfl, rfl⟩
theorem heartbeatFailure : Statement .heartbeatFailure := ⟨rfl, rfl, rfl⟩

end Sys2Proof.Laws.Encodable
end

