-- ==== Sys2Proof/Tests/Slice0.lean ====
section
/-! SUPPORT. Tests: ill-formed terms that the checks refuse, words of the specification that decode to what they stand for,
small states that meet the hypotheses of the statements, and single steps with results taken from the specification. -/

namespace Sys2Proof.Tests

open Sys2Proof Sys2Proof.Machine

/-! ## Well-formed instructions -/

/-- An ill-formed term for each check of a scalar form (05_registers.md R142, R144, R155, 04_cycles.md R109, 14_time_power.md
R319). -/
theorem test_wf_scalar :
    (Instr.bfx 1 2 false 63 2).wf 0 = false ∧ (Instr.bfx 1 2 false 0 0).wf 0 = false ∧ (Instr.bfi 1 2 0 65).wf 0 = false ∧
    (Instr.ld 1 2 true 3 0).wf 0 = false ∧ (Instr.ldf 1 2 none true 3 0).wf 0 = false ∧
    (Instr.loop 0 1 2 false false 9).wf 0 = false ∧ (Instr.loopi 0 2 false false 1 9).wf 0 = false ∧
    (Instr.loopi 0 0 false false 1 0).wf 0 = false ∧ (Instr.phase 3 true 0xF 3 false).wf 0 = false ∧
    (Instr.phase 3 true 0xF 17 false).wf 0 = false ∧ (Instr.phase 3 false 0xF 4 false).wf 0 = false ∧
    (Instr.phase 3 false 0xF 0 true).wf 0 = false ∧ (Instr.wait .lcyc 1 2 3 0).wf 0 = false ∧
    (Instr.pushm 0 0).wf 0 = false ∧ (Instr.pushm 0 33).wf 0 = false ∧ (Instr.popm 31 2).wf 0 = false ∧
    (Instr.wfld 1 false 6).wf 0 = false := by decide

/-- An ill-formed term for each check of a vector form (02_bundles.md R49, R51, 06_vector.md R159, R168 to R173). -/
theorem test_wf_vector :
    (Instr.fadd ⟨.i32, 0, 0, .v 0, 0⟩).wf 0 = false ∧ (Instr.fadd ⟨.f32, 0, 0, .lit 1, 0⟩).wf 1 = false ∧
    (Instr.fma ⟨.n8, 0, 0, .v 0, 0, 0⟩).wf 0 = false ∧ (Instr.fabs ⟨.i8, 0, 0, 0⟩).wf 0 = false ∧
    (Instr.fcmp ⟨.i8, 0, 0, .v 0, .eq, 0⟩).wf 0 = false ∧ (Instr.iadd ⟨.f32, 0, 0, .v 0, 0⟩).wf 0 = false ∧
    (Instr.iabs ⟨.n8, 0, 0, 0⟩).wf 0 = false ∧ (Instr.vclz ⟨.f16, 0, 0, 0⟩).wf 0 = false ∧
    (Instr.icmp ⟨.i32, 0, 0, .v 0, .un, 0⟩).wf 0 = false ∧ (Instr.icmp ⟨.i32, 0, 0, .v 0, .ord, 0⟩).wf 0 = false ∧
    (Instr.vmov ⟨.f32, 0, .lit 0, 0⟩).wf 0 = false ∧ (Instr.cvt ⟨.f32, .fta, false, false, 0, 0, 3, 0⟩).wf 0 = true ∧
    (Instr.cvt ⟨.f32, .f16, false, false, 0, 0, 2, 0⟩).wf 0 = false ∧
    (Instr.cvt ⟨.f16, .f32, false, true, 0, 0, 0, 0⟩).wf 0 = false ∧ (Instr.viota ⟨.f32, 0, .v 0, 0⟩).wf 0 = false ∧
    (Instr.rotl ⟨.f32, 0, 0, 0⟩ 64).wf 0 = false ∧ (Instr.bcast ⟨.f32, 0, 0, 0⟩ 64).wf 0 = false ∧
    (Instr.zip ⟨.f32, 0, 0, .imm 4, true, 0⟩).wf 0 = false ∧ (Instr.rsum ⟨.fta, 0, 0, 0⟩).wf 0 = false ∧
    (Instr.vext .f32 1 0 64 0).wf 0 = false ∧ (Instr.vins ⟨.f32, 0, .v 0, 0⟩ 64).wf 0 = false ∧
    (Instr.vhash ⟨.i16, 0, 0, .v 0, 0⟩).wf 0 = false ∧ (Instr.vst ⟨.f32, 0, 0, some 1, 0, 0⟩).wf 0 = false ∧
    (Instr.vscat ⟨.f32, 0, 0, 0, some 1, 0, 0⟩).wf 0 = false ∧ (Instr.vgathk ⟨.f32, 0, 0, 0⟩ 0 0).wf 0 = false := by decide

/-- An ill-formed term for each check of a matrix, copy, link or script form (08_matrix.md R201, R202, 09_pool.md R215, R218,
05_registers.md R150, 10_channels.md R235, R259, 15_light.md R344). -/
theorem test_wf_other :
    (Instr.mzero false 8).wf 0 = false ∧ (Instr.mcvt 0 0 false true 0).wf 0 = false ∧ (Instr.zfmt 1 0).wf 0 = false ∧
    (Instr.zfsel true 0 6).wf 0 = false ∧ (Instr.cpl ⟨1, 2, 3, none, none, 0⟩).wf 0 = false ∧
    (Instr.cpl ⟨1, 2, 3, none, none, 0x180001⟩).wf 0 = false ∧ (Instr.cpl ⟨1, 2, 3, some 0, none, 64⟩).wf 1 = false ∧
    (Instr.cpl ⟨1, 2, 3, none, some 0, 64⟩).wf 0 = false ∧ (Instr.cpv ⟨1, 2, 3, none, 0, 0, 64⟩).wf 1 = false ∧
    (Instr.cpv ⟨1, 2, 3, some 0, 0, 0, 64⟩).wf 2 = false ∧ (Instr.spb ⟨1, true, 0, 0, 65, 0⟩).wf 0 = false ∧
    (Instr.spb ⟨1, true, 0, 0, 1, 32⟩).wf 0 = false ∧ (Instr.fla ⟨1, false, 0, 31, 2, 0⟩).wf 0 = false ∧
    (Instr.fla ⟨1, false, 0, 0, 1, 4⟩).wf 0 = false ∧ (Instr.chr ⟨1, 2, none, some 0, true, false, 0, 0, 1⟩).wf 0 = false ∧
    (Instr.chr ⟨1, 2, none, none, false, true, 0, 0, 1⟩).wf 0 = false ∧ (Instr.chw ⟨1, false, false, 0, 0, 0⟩).wf 0 = false ∧
    (Instr.rd ⟨0, 0, 0, 31, 2, false⟩ 0 false false).wf 0 = false ∧ (Instr.rd ⟨0, 0, 0, 0, 1, false⟩ 0 true true).wf 0 = false ∧
    (Instr.parrmw ⟨0, 0, 0, 0, 33, true⟩).wf 0 = false ∧ (Instr.fetch 0 0 3).wf 0 = false ∧
    (Instr.lsend ⟨1, 2, 3, true, 0, 0, 1, 0⟩).wf 0 = false ∧ (Instr.lrecv 1 2 0).wf 0 = false ∧
    (Instr.qsend ⟨1, 2, 3, .light, 0, 14, 0⟩).wf 0 = false ∧ (Instr.esend 1 2 3 256).wf 0 = false ∧
    (Instr.emcast 1 2 3 0 256).wf 0 = false := by decide

/-! ## Words of the specification -/

/-- Syllables of class S written out in the chapters: 02_bundles.md, 04_cycles.md, 05_registers.md R141 to R149. -/
theorem test_decode_scalar :
    decodeSyl .s 1 0x00194A0000000040 = .ok ⟨false, 0, .addi 5 5 64⟩ ∧
    decodeSyl .s 0 0x0162400000000000 = .ok ⟨false, 0, .li 9 false 0⟩ ∧
    decodeSyl .s 0 0x0158C80200000011 = .ok ⟨false, 0, .cmpi .lt 3 4 17⟩ ∧
    decodeSyl .s 0 0x00531AE100000000 = .ok ⟨false, 0, .div 12 13 14 true⟩ ∧
    decodeSyl .s 0 0x02014C05FFFFFFFE = .ok ⟨false, 0, .ld 5 6 true 1 0xFFFFFFFE⟩ ∧
    decodeSyl .s 0 0x02114C0B0000000C = .ok ⟨false, 0, .ldk 5 6 true 3 12⟩ ∧
    decodeSyl .s 0 0x0311C00100000000 = .ok ⟨false, 0, .rdpod 7 .run⟩ ∧
    decodeSyl .s 0 0x0319400100000000 = .ok ⟨false, 0, .slew 5 .back⟩ ∧
    decodeSyl .s 0 0x032006010000010F = .ok ⟨false, 0, .phase 3 true 0xF 16 false⟩ ∧
    decodeSyl .s 0 0x032006000000000D = .ok ⟨false, 0, .phase 3 false 0xD 0 false⟩ ∧
    decodeSyl .s 0 0x0371400100000000 = .ok ⟨false, 0, .rdfrCause 5 0⟩ ∧
    decodeSyl .s 0 0x0380000000000051 = .ok ⟨false, 0, .abort 0x51⟩ ∧
    decodeSyl .s 0 0x02A8000200020018 = .ok ⟨false, 0, .loopi 0 0 true false 2 24⟩ := by decide

/-- Far memory and order forms written out in 12_order.md. -/
theorem test_decode_order :
    decodeSyl .s 0 0x02414C1A00000010 = .ok ⟨false, 0, .ldf 5 6 (some .device) false 2 16⟩ ∧
    decodeSyl .s 0 0x02484C7A00000010 = .ok ⟨false, 0, .stf 6 7 (some .device) 2 16⟩ ∧
    decodeSyl .s 0 0x0262400600000000 = .ok ⟨false, 0, .fence 9 .rel .pod⟩ ∧
    decodeSyl .s 0 0x02594C7101000000 = .ok ⟨false, 0, .amol .add 5 6 7 true 0⟩ ∧
    decodeSyl .s 0 0x02514C7D00000001 = .ok ⟨false, 0, .amo 5 6 7 .acqrel .device 1⟩ ∧
    decodeSyl .s 0 0x0330C00200000002 = .ok ⟨false, 0, .barAw 3 2⟩ ∧
    decodeSyl .c 0 0x00C18E9000000000 = .ok ⟨false, 0, .qapp 6 7 9⟩ := by decide

/-- Vector syllables written out in 02_bundles.md and 06_vector.md. -/
theorem test_decode_vector :
    decodeSyl .v 1 0x0042018010000000 = .ok ⟨false, 0, .fma ⟨.f32, 8, 1, .lit 0, 2, 0⟩⟩ ∧
    decodeSyl .v 0 0x91810590029FFFFD = .ok ⟨true, 2, .iadd ⟨.i32, 4, 5, .imm 0xFFFFD, 1⟩⟩ ∧
    decodeSyl .v 2 0x00328B8200000000 = .ok ⟨false, 0, .fmul ⟨.f32, 10, 11, .lit 1, 0⟩⟩ ∧
    decodeSyl .v 2 0x00130D8000000000 = .ok ⟨false, 0, .fadd ⟨.f32, 12, 13, .lit 0, 0⟩⟩ ∧
    decodeSyl .v 0 0x0311460098000001 = .ok ⟨false, 0, .cvt ⟨.f32, .fta, true, false, 5, 6, 1, 0⟩⟩ ∧
    decodeSyl .v 0 0x00B0C6901003F000 = .ok ⟨false, 0, .fcmp ⟨.f32, 3, 6, .imm 0x3F000, .lt, 0⟩⟩ := by decide

/-- Matrix and scale syllables written out in 08_matrix.md and 11_prog_block.md. -/
theorem test_decode_matrix :
    decodeSyl .m 0 0x0008008100000000 = .ok ⟨false, 0, .mma 0 0 1 false true⟩ ∧
    decodeSyl .z 0 0x0009800000000000 = .ok ⟨false, 0, .zscla 12 0⟩ ∧
    decodeSyl .z 0 0x00200200000C318C = .ok ⟨false, 0, .zfmt 1 0x000C318C⟩ ∧
    decodeSyl .m 0 0x0020A28100000000 = .ok ⟨false, 0, .mld 1 (some 4) 5 0⟩ ∧
    decodeSyl .z 0 0x0011000000000000 = .ok ⟨false, 0, .zsclb 8 0⟩ := by decide

/-- Copy, channel and link syllables written out in 05_registers.md, 09_pool.md, 10_channels.md, 11_prog_block.md and
15_light.md. -/
theorem test_decode_copy :
    decodeSyl .c 0 0x00098E8000000800 = .ok ⟨false, 0, .cpl ⟨6, 7, 8, none, none, 2048⟩⟩ ∧
    decodeSyl .c 2 0x00098E8800000800 = .ok ⟨false, 0, .cpl ⟨6, 7, 8, some 0, none, 2048⟩⟩ ∧
    decodeSyl .c 0 0x0041800A05020000 = .ok ⟨false, 0, .spb ⟨6, true, 2, 20, 4, 0⟩⟩ ∧
    decodeSyl .c 0 0x0019808022140001 = .ok ⟨false, 0, .chr ⟨6, 8, none, none, true, false, 133, 0, 1⟩⟩ ∧
    decodeSyl .c 0 0x0021800022140001 = .ok ⟨false, 0, .chw ⟨6, true, false, 133, 0, 1⟩⟩ ∧
    decodeSyl .c 0 0x001B000000240080 = .ok ⟨false, 0, .chr ⟨12, 0, none, none, false, false, 9, 0, 128⟩⟩ ∧
    decodeSyl .c 0 0x0022C00030240001 = .ok ⟨false, 0, .chw ⟨11, true, true, 9, 0, 1⟩⟩ ∧
    decodeSyl .c 0 0x00990A9000000000 = .ok ⟨false, 0, .qpopCask 4 5 9⟩ ∧
    decodeSyl .c 0 0x00818E8000C80000 = .ok ⟨false, 0, .lsend ⟨6, 7, 8, false, 0, 3, 2, 0⟩⟩ ∧
    decodeSyl .c 0 0x008A80B000000029 = .ok ⟨false, 0, .lrecv 10 11 41⟩ := by decide

/-- Script commands written out in 10_channels.md and 11_prog_block.md, and headers of 02_bundles.md. -/
theorem test_decode_commands :
    decodeCmd 0x8001E103F8000000 = some (.sealrd 1 1016 false) ∧ cmdStamp 0x8001E103F8000000 = 30 ∧
    decodeCmd 0x2001F103F807F060 = some (.rd ⟨0, 1, 1016, 0, 127, true⟩ 0 true false) ∧
    decodeCmd 0x303DE107D007F050 = some (.wr ⟨0, 1, 2000, 0, 127, true⟩ 0 true false) ∧ cmdStamp 0x303DE107D007F050 = 990 ∧
    Header.dec 0x00000883 = some ⟨false, 0, 0, 2, 1, 3⟩ ∧ (Header.dec 0x00000883).map Header.length = some 6 ∧
    Header.dec 0x01008005 = some ⟨false, 4, 1, 0, 0, 5⟩ ∧ Header.dec 0x20000506 = some ⟨true, 0, 0, 1, 2, 6⟩ := by decide

/-- Handler 2 of 12_order.md R295 and a word whose must-be-zero field is not zero. -/
theorem test_decode_cobbler :
    decodeTableWord 32 0x0C000000 = some (.cobLdw 3 0) ∧ decodeTableWord 32 0xB3400000 = some (.cobCeq 3 1) ∧
    decodeTableWord 32 0xC0000001 = some (.cobSkipF 1) ∧ decodeTableWord 32 0x10000000 = some (.cobStw 0 0) ∧
    decodeTableWord 32 0xF3000000 = some (.cobRet 3) ∧ decodeTableWord 32 0xF3200000 = none := by decide

/-- Reserved opcodes of every class are refused by their code (02_bundles.md R52 to R54). -/
theorem test_decode_reserved :
    decodeSyl .s 0 (0x01 <<< 51) = .illegalOp ∧ decodeSyl .s 0 (0x73 <<< 51) = .illegalOp ∧
    decodeSyl .v 0 (0x10 <<< 52) = .illegalOp ∧ decodeSyl .v 0 (0x67 <<< 52) = .illegalOp := by decide


/-! ## States that meet the hypotheses of the statements -/

/-- Core 0 in run 0, which is live; booted; nothing to do. -/
def one (k : Core) (r : Run := {}) : State :=
  { cores := [(0, { k with run := some 0 })], runs := [(0, { r with st := .live, cores := [0] })], tick := 100, todo := [], boot := .up }

/-- A core with x1 to x4 written. -/
def regs (a b c d : X) : Core := { x := [(1, a), (2, b), (3, c), (4, d)], cyc := 100, seq := .issue 100 }

/-- A run whose window w0 has two elements of 4 bytes at 0x100. -/
def windowed : Run := { last := { windows := [some (0x100, 2, 4)] } }

theorem test_meets_ScalarCountFieldResults :
    (64 : BitVec 7) ≠ 0 ∧ (0 : BitVec 6).toNat + (64 : BitVec 7).toNat ≤ 64 ∧
    (1 : BitVec 7) ≠ 0 ∧ (63 : BitVec 6).toNat + (1 : BitVec 7).toNat ≤ 64 := by decide

theorem test_meets_PredicateResults : (15 : PReg) ≠ 0 := by decide

/-- A word with a head bit stands at 0x7FFF of core 0's instruction memory, none at 20. -/
theorem test_meets_TransferAndLoopResults :
    let s := { one (regs 3 2 0 0) with imem := [(0x7FFF, (0, true))], ctx := { head := 0x7FF0 } }
    let t := { s with cores := [(0, { regs 3 2 0 0 with loops := [(5, { active := true })] })] }
    s.ctx.idx ≠ 2 ∧ (s.me.loopOf (5 : BitVec 3).toNat).active = false ∧ (5 : BitVec 3).toNat < 6 ∧
    s.ctx.head + (15 : BitVec 32).toNat < 32768 ∧ (s.imemAt s.ctx.core (s.ctx.head + (15 : BitVec 32).toNat)).2 = true ∧
    s.ctx.head + (15 : BitVec 16).toNat < 32768 ∧ (s.imemAt s.ctx.core (s.ctx.head + (15 : BitVec 16).toNat)).2 = true ∧
    s.ctx.inNull = false ∧ 32768 ≤ s.ctx.head + (16 : BitVec 32).toNat ∧
    (s.imemAt s.ctx.core (s.ctx.head + (14 : BitVec 32).toNat)).2 = false ∧
    (t.me.loopOf (5 : BitVec 3).toNat).active = true ∧ (t.imemAt t.ctx.core (t.ctx.head + (15 : BitVec 32).toNat)).2 = true ∧
    { s with ctx := { head := 0x7FF0, inNull := true } }.ctx.inNull = true ∧ (1 : BitVec 16) ≠ 0 ∧ 6 ≤ (6 : BitVec 3).toNat ∧
    (s.imemAt s.ctx.core (s.ctx.head + (14 : BitVec 16).toNat)).2 = false ∧ 32768 ≤ s.ctx.head + (16 : BitVec 16).toNat := by decide

theorem test_meets_SpecialRegisterResults :
    let s := one (regs 31 0x106 0x20000 0x10040)
    srValueBad (0x020 : BitVec 12).toNat (s.xr 1) = false ∧ s.me.loopWriteBad (0x020 : BitVec 12).toNat = false ∧
    srValueBad (0x050 : BitVec 12).toNat (0x105 : X) = false ∧ srValueBad (0x050 : BitVec 12).toNat (s.xr 2) = true ∧
    srValueBad (0x040 : BitVec 12).toNat (s.xr 3) = true ∧ srValueBad (0x04F : BitVec 12).toNat (s.xr 4) = true ∧
    s.me.loopWriteBad (0x02D : BitVec 12).toNat = false ∧
    (let y := one { regs 31 0 0 0 with loops := [(5, { active := true })] }
     srValueBad (0x02D : BitVec 12).toNat (y.xr 1) = false ∧ y.me.loopWriteBad (0x02D : BitVec 12).toNat = true) ∧
    (0x01F : BitVec 12).toNat < 0x020 ∧ 0x030 ≤ (0x030 : BitVec 12).toNat := by decide

theorem test_meets_OwnPoolResults :
    let s := one { regs 0x17EFF8 0 1 2 with spstk := 0x17F000 } windowed
    let e := s.xr 1 + (0 : BitVec 32).signExtend 64
    e.toNat % 2 ^ (3 : BitVec 2).toNat = 0 ∧ e.toNat + 2 ^ (3 : BitVec 2).toNat ≤ s.me.carve.scrlim ∧
    s.me.carve.scrlim ≤ 0x180000 ∧ s.me.early = false ∧ s.me.elastic = false ∧
    s.window (0 : BitVec 3).toNat (s.xr 3 + (0 : BitVec 32).signExtend 64).toNat = some (0, 4, false) ∧
    s.window (0 : BitVec 3).toNat (s.xr 4 + (0 : BitVec 32).signExtend 64).toNat = some (0, 4, true) ∧
    s.me.spstk.toNat % 8 = 0 ∧ s.me.carve.scrlim ≤ s.me.spstk.toNat ∧ s.me.spstk.toNat + 8 * (0 : BitVec 6).toNat ≤ s.me.carve.sb ∧
    s.me.carve.scrlim + 8 * (0 : BitVec 6).toNat ≤ s.me.spstk.toNat := by decide

/-- With the partition word of 05_registers.md Table 5.3 that gives a stack, PUSHM and POPM of 32 registers fit. -/
theorem test_meets_OwnPoolResults_stack :
    let c : Carve := { scrlim := 0x170000, sb := 0x17F000 }
    let s := one { carve := c, spstk := 0x17F000 }
    let t := one { carve := c, spstk := 0x170000 }
    s.me.spstk.toNat % 8 = 0 ∧ s.me.carve.scrlim + 8 * (32 : BitVec 6).toNat ≤ s.me.spstk.toNat ∧ s.me.spstk.toNat ≤ s.me.carve.sb ∧
    t.me.spstk.toNat % 8 = 0 ∧ t.me.carve.scrlim ≤ t.me.spstk.toNat ∧
    t.me.spstk.toNat + 8 * (32 : BitVec 6).toNat ≤ t.me.carve.sb := by decide

theorem test_meets_NopsAndTrap :
    let s := one {}
    s.me.run = some 0 ∧ s.me.faulted = none ∧ s.me.inRecov = false ∧ s.me.trap.w0.getLsbD 8 = false ∧ (s.run 0).st = .live ∧
    (s.run 0).last.gang = false ∧ s.ctx.head < 32768 ∧ s.ctx.core < 512 := by decide

theorem test_meets_WaitsHoldAndEnd :
    let at_ := fun (x : Wait) => one { regs 0x17EFFF 0 0 0 with seq := .wait, waits := [x] }
    let x : Wait := { base := 101, what := .lcyc 101, xd := some 5 }
    let y : Wait := { base := 102, what := .lcyc 102, xd := some 5 }
    let p : Wait := { base := 101, what := .pcc 100, xd := some 5 }
    let k : Wait := { base := 101, what := .tokens 1, xd := some 5 }
    let s := at_ x
    s.me.inTask = false ∧ { s.me with inTask := true }.faulted = none ∧
    (s.xr 1 + (0 : BitVec 32).signExtend 64).toNat + 1 ≤ s.me.carve.scrlim ∧
    s.me.waits = [x] ∧ x.xd = some 5 ∧ x.instr = none ∧ s.me.seq = .wait ∧ s.me.lastX = [] ∧ x.ans = none ∧
    x.what = .lcyc 101 ∧ x.base ≤ s.me.cyc + 1 ∧ 101 ≤ s.me.cyc + 1 - s.me.s ∧ (5 : XReg) ≠ 0 ∧ (6 : XReg) ≠ 5 ∧
    (at_ y).me.waits = [y] ∧ (at_ y).me.cyc + 1 < y.base ∧ (at_ y).me.cyc + 1 - (at_ y).me.s < 102 ∧
    p.what = .pcc 100 ∧ p.base ≤ (at_ p).me.cyc + 1 ∧ 100 ≤ (at_ p).tick ∧ (at_ p).tick < 101 ∧ k.what = .tokens 1 ∧
    (∀ i < 8, (1 : BitVec 8).getLsbD i = true → Table.get 0 (at_ k).me.tok i ≤ (at_ k).me.cyc + 1) ∧
    (0 < 8 ∧ (1 : BitVec 8).getLsbD 0 = true ∧ (at_ k).me.cyc + 1 < Table.get 0 { (at_ k).me with tok := [(0, 102)] }.tok 0) := by decide

theorem test_meets_OperandBForms :
    let s := one {} windowed
    VTy.n8.isInt = true ∧ VTy.fto.isInt = false ∧ s.window (7 : BitVec 3).toNat (0 : BitVec 12).toNat = none ∧
    s.window (0 : BitVec 3).toNat (1 : BitVec 12).toNat = some (0, 4, false) ∧
    s.window (0 : BitVec 3).toNat (2 : BitVec 12).toNat = some (0, 4, true) := by decide

theorem test_meets_VectorWriteTouchesOnlyVd : 63 < VTy.f32.lanes ∧ 3 < VTy.f32.bytes ∧ 255 < VTy.n8.lanes ∧ 0 < VTy.n8.bytes := by
  decide

theorem test_meets_VectorArithmeticResults :
    let s := one {} windowed
    s.boundB (.v 63) ∧ s.boundB (.win 0 4095) ∧ s.boundB (.imm 1) ∧ s.boundB (.lit 0) ∧ s.boundB (.x 31) :=
  ⟨trivial, (by decide : ((one {} windowed).window 0 4095).isSome = true), trivial, trivial, trivial⟩

theorem test_meets_VectorCompareAndMaskResults :
    let f : VCmp := ⟨.i32, 1, 2, .v 3, .eq, 0⟩
    let g : VCmp := ⟨.f32, 1, 2, .win 0 4095, .lt, 0⟩
    (one {}).boundB f.b ∧ (one {} windowed).boundB g.b ∧ 63 < f.t.lanes ∧ (1 : PReg) ≠ 0 :=
  ⟨trivial, (by decide : ((one {} windowed).window 0 4095).isSome = true), by decide, by decide⟩

theorem test_meets_VectorMoveAndConversionResults :
    (one {} windowed).boundB (.win 0 0) ∧ (one {}).boundB (.v 0) ∧
    (3 : BitVec 2).toNat < max VTy.f32.bytes VTy.fta.bytes / min VTy.f32.bytes VTy.fta.bytes ∧
    (0 : BitVec 2).toNat < max VTy.f32.bytes VTy.i32.bytes / min VTy.f32.bytes VTy.i32.bytes ∧
    VTy.n8.isInt = true ∧ VTy.i32.isInt = true :=
  ⟨(by decide : ((one {} windowed).window 0 0).isSome = true), trivial, by decide, by decide, rfl, rfl⟩

theorem test_meets_ReductionAndStreamResults :
    let s := one { q := [(1, 0)], streams := [(3, (0, 16128)), (2, (16383, 16132))] }
    let on := (List.range VTy.n32.lanes).filter fun i => (s.me.qr 0).getLsbD i
    (s.me.stream (3 : BitVec 2).toNat).2 + on.length * VTy.n32.bytes ≤ 16384 ∧
    16384 < (s.me.stream (2 : BitVec 2).toNat).2 + on.length * VTy.n32.bytes := by decide

theorem test_meets_VectorMemoryResults :
    let s := one (regs 0x100 4 0x17EF00 7) windowed
    let all := (List.range 64).map fun i => some (0x100 + 4 * i)
    (s.vecPlace 4 (addrOf (s.xr 1) 0 0) (s.lanesQ .f32 0) = some (0, all, false)) ∧
    (s.vecPlace 4 (addrOf (s.xr 3) 0 0) (s.lanesQ .f32 0)).isSome = true ∧ s.me.early = false ∧
    s.badTag s.ctx.core (granules 4 all) (BitVec.ofNat 16 (s.xr 0).toNat) = none ∧
    s.ownLanes 4 (laneAddrs (s.lanesQ .f32 0) (s.xr 1) 0 fun i => i * (s.xr 2).toInt) = some all ∧
    s.ownLanes 4 (laneAddrs (s.lanesQ .f32 0) (s.xr 1) 0 fun i => (s.lanesV .f32 1).getD i 0 * 4) =
      some (List.replicate 64 (some 0x100)) ∧
    (s.window (0 : BitVec 3).toNat 0).isSome = true ∧
    s.badTag s.ctx.core (granules 4 all) (BitVec.ofNat 16 (s.xr 4).toNat) = some 0 ∧ s.me.elastic = false := by decide +kernel

/-- Block lanes up to the end of scratch, strided lanes on one address and an indexed lane fit; a byte further they do not. -/
theorem test_meets_VectorMemoryResults_fits :
    let s := one (regs 0x17EF00 0x17EF04 0 0x17EF01)
    (∀ i, (decide (i < VTy.f32.lanes) && (s.me.qr 0).getLsbD i) = true →
      ((s.xr 1).toNat + i * 4) % 4 = 0 ∧ (s.xr 1).toNat + i * 4 + 4 ≤ s.me.carve.scrlim) ∧
    (s.xr 1).toNat < 0x180000 ∧ s.me.early = false ∧
    ((decide (63 < VTy.f32.lanes) && (s.me.qr 0).getLsbD 63) = true ∧ ¬ (s.xr 2).toNat + 63 * 4 + 4 ≤ s.me.carve.scrlim) ∧
    (s.xr 4).toNat % 4 ≠ 0 ∧ (s.xr 2).toNat < 0x180000 ∧
    (s.xr 1 + (0 : BitVec 20).signExtend 64 + BitVec.ofInt 64 (63 * (s.xr 3).toInt)).toNat = 0x17EF00 := by
  refine ⟨?_, by decide, by decide, by decide, by decide, by decide, by decide⟩
  intro i h
  have : i < 64 := by
    simp only [Bool.and_eq_true, decide_eq_true_eq] at h
    exact h.1
  show (0x17EF00 + i * 4) % 4 = 0 ∧ 0x17EF00 + i * 4 + 4 ≤ 0x17F000
  omega

theorem test_meets_VectorMemoryResults_windows :
    let s := one (regs 0x100 0 0 0) windowed
    (s.runOf s.ctx.core).isSome = true ∧ (((s.runOf s.ctx.core).map (·.last.windows)).getD []).getD (0 : BitVec 3).toNat none = some (0x100, 2, 4) ∧
    s.window (7 : BitVec 3).toNat 0 = none ∧ s.tagOk s.ctx.core 0x100 0 = true ∧ s.tagOk s.ctx.core 0x100 7 = false ∧
    (decide (0 < VTy.f32.lanes) && (s.me.qr 0).getLsbD 0) = true ∧ (s.me.elastic = false ∧ (one { elastic := true }).me.elastic = true) := by
  decide

/-- Cores 0 and 1 in run 0. -/
def two (k l : Core) : State :=
  { one k with cores := [(0, { k with run := some 0 }), (1, { l with run := some 0 })],
               runs := [(0, { st := .live, cores := [0, 1] })] }

theorem test_meets_VaultAccesses :
    let s := two (regs 0x40200100 0x4037FFF8 0x4037FF00 0) {}
    let e := two { regs 0x40200100 0 0 0 with elastic := true } {}
    s.me.rails.getLsbD 3 = true ∧
    (let a := s.xr 2 + (0 : BitVec 32).signExtend 64
     a.toNat / 2 ^ 30 = 1 ∧ a.toNat % 2 ^ (3 : BitVec 2).toNat = 0 ∧ a.toNat % 2 ^ 21 + 8 ≤ 0x180000 ∧
     s.sameRun s.ctx.core (a.toNat / 2 ^ 21 % 512) = true) ∧
    (let a := s.xr 3 + (0 : BitVec 20).signExtend 64
     a.toNat / 2 ^ 30 = 1 ∧ a.toNat % VTy.f32.bytes = 0 ∧ a.toNat % 2 ^ 21 < 0x180000 ∧ s.sameRun s.ctx.core (a.toNat / 2 ^ 21 % 512) = true ∧
     a.toNat % 2 ^ 21 + 63 * 4 + 4 ≤ 0x180000) ∧
    e.me.elastic = true ∧ (some (1 : XReg)).isSome = true := by decide

theorem test_meets_VaultAccesses_sample :
    let i : Instr := .ld 5 1 false 3 0
    let j : Instr := .st 1 2 3 0
    let l : Instr := .vld ⟨.f32, 1, 2, some 1, 0, 0⟩
    let v : Instr := .vst ⟨.f32, 1, 2, none, 0, 0⟩
    let m : Instr := .amol .add 5 1 2 true 0
    let at_ := fun (o : Op) => two { ops := [(0, some o)] } {}
    let s := at_ { instr := i, cs := 1, as := 0x17EFF8, hs := 1 }
    let t := at_ { instr := i, cs := 1, as := 0x17EFF9, hs := 1 }
    let u := at_ { instr := j, cd := 1, ad := 0x17EFF8, buf := leBytes 8 7 }
    let w := at_ { instr := j, cd := 1, ad := 0x17EFF9, buf := leBytes 8 7 }
    let a := at_ { instr := m, cs := 1, as := 0x17EFF8 }
    let c := at_ { instr := l, cs := 1, x0 := 0x40200000, lanes := [some 0x17EFFC], hd := 4, regs := [0x17EC00], tag := 3 }
    let b := at_ { instr := v, cd := 1, lanes := (List.range 64).map fun k => some (0x17EF00 + 4 * k), hd := 4, buf := List.replicate 256 1 }
    s.myOp.instr = i ∧ s.myOp.as + 8 ≤ (s.core s.myOp.cs).carve.scrlim ∧ (s.core s.myOp.cs).rails.getLsbD 2 = true ∧
    (s.core s.myOp.cs).early = false ∧ (s.core s.myOp.src.core).early = false ∧
    t.myOp.instr = i ∧ (t.core t.myOp.cs).carve.scrlim < t.myOp.as + 2 ^ 3 ∧
    u.myOp.instr = j ∧ u.myOp.ad + u.myOp.buf.length ≤ (u.core u.myOp.cd).carve.scrlim ∧
    w.myOp.instr = j ∧ (w.core w.myOp.cd).carve.scrlim < w.myOp.ad + w.myOp.buf.length ∧
    a.myOp.instr = m ∧ a.myOp.as + 8 ≤ (a.core a.myOp.cs).carve.scrlim ∧ a.me.elastic = false ∧
    c.myOp.instr = l ∧ c.myOp.x0 ≠ 0 ∧ (∀ x ∈ c.myOp.lanes, ∀ y, x = some y → ¬ (c.core c.myOp.cs).carve.scrlim < y + c.myOp.hd) ∧
    c.myOp.regs.find? (fun g => !c.tagOk c.myOp.cs g c.myOp.tag) = some 0x17EC00 ∧
    b.myOp.instr = v ∧ b.myOp.lanes.length = VTy.f32.lanes ∧ b.myOp.buf.length = 256 ∧ b.myOp.hd = VTy.f32.bytes ∧
    (b.myOp.lanes.filterMap id).Nodup ∧ (b.myOp.lanes.filterMap id).all (fun y => decide (y + 4 ≤ (b.core b.myOp.cd).carve.scrlim)) = true := by
  refine ⟨rfl, by decide, by decide, rfl, rfl, rfl, by decide, rfl, by decide, rfl, by decide, rfl, by decide, rfl, rfl, by decide, ?_,
    by decide +kernel, rfl, by decide +kernel, by decide +kernel, rfl, by decide +kernel, by decide +kernel⟩
  intro x h y e
  cases List.mem_singleton.mp h
  cases e
  decide

/-- A lane of a vault load or store that ends one byte beyond the SCRLIM there. -/
theorem test_meets_VaultAccesses_past :
    let s := two { ops := [(0, some { cs := 1, cd := 1, lanes := [some 0x17EFFD], hd := 4 })] } {}
    some 0x17EFFD ∈ s.myOp.lanes ∧ (s.core s.myOp.cs).carve.scrlim < 0x17EFFD + s.myOp.hd ∧ s.myOp.cd = 1 := by decide

theorem test_meets_MatrixMultiply :
    let s := one { cyc := 100 }
    let b := one { cyc := 100, arrayFree := 101 }
    let n := { s with ctx := { exec := false } }
    b.me.arrayBusy = true ∧ s.me.arrayBusy = false ∧ n.me.arrayBusy = false ∧ n.ctx.exec = false ∧ s.ctx.exec = true ∧
    (let a := shapeOf (s.me.shape (0 : BitVec 4).toNat)
     a.2.2 = 1 ∧ a.1 = a.2.1 ∧ a.2.1 % 32 = 0 ∧ a.2.2 ≠ 2) ∧ s.sub ≤ 10 := by decide

/-- K is 128 in the default shape; 32 x 1 by 1 in the result. -/
theorem test_meets_MatrixMultiply_stages :
    let i : Instr := .mma 0 0 1 false true
    let st := one { ops := [(0, some { instr := i, shA := 0x7F7F, shB := 0x7F7F })] }
    let last := { st with ctx := { idx := 127 } }
    let fin := { st with ctx := { idx := 128 } }
    let o : Op := { instr := .mmat 0 0 1 false true, shA := 0x001F, shB := 0x001F, cols := List.replicate 32 ([1], [2]), regs := [0] }
    let r := one { ops := [(0, some o)] }
    st.myOp.instr = (if false then .mmat 0 0 1 false true else i) ∧ st.me.early = false ∧ st.sub ≤ 10 ∧
    last.ctx.idx < (shapeOf last.myOp.shA).2.1 ∧ (shapeOf fin.myOp.shA).2.1 ≤ fin.ctx.idx ∧
    r.myOp.instr = (if true then .mmat 0 0 1 false true else i) ∧ r.myOp.cols.length = (shapeOf r.myOp.shA).2.1 ∧
    (∀ q ∈ r.myOp.cols, q.1.length = (shapeOf r.myOp.shA).1 * 1 ∧ q.2.length = (shapeOf r.myOp.shB).1 * 1) ∧
    (shapeOf r.myOp.shA).2.1 % 32 = 0 := by decide

theorem test_meets_TileMovers :
    let s := one (regs 0x17B000 0x16F000 0x40 0x17B080)
    let b := one { cyc := 100, moverFree := 101 }
    let bf := one { tshape := [(2, 0x13F3F)] }
    let n := { s with ctx := { exec := false } }
    let e := fun (x : BitVec 4) => s.xr (0#1 ++ x) + (0 : BitVec 32).signExtend 64
    b.me.moverBusy = true ∧ s.me.moverBusy = false ∧ n.me.moverBusy = false ∧ n.ctx.exec = false ∧ s.ctx.exec = true ∧ s.sub ≤ 10 ∧
    (e 1).toNat % 128 = 0 ∧ (e 1).toNat + 16384 ≤ s.me.carve.scrlim ∧ (e 2).toNat % 128 = 0 ∧ (e 2).toNat + 65536 ≤ s.me.carve.scrlim ∧
    (e 3).toNat % 128 ≠ 0 ∧ (e 4).toNat % 128 = 0 ∧ s.me.carve.scrlim < (e 4).toNat + 16384 ∧ s.me.carve.scrlim < (e 1).toNat + 65536 ∧
    (shapeOf (s.me.shape 0)).1 = (shapeOf (s.me.shape 1)).2.1 ∧ (shapeOf (s.me.shape 0)).2.1 = (shapeOf (s.me.shape 1)).1 ∧
    (shapeOf (s.me.shape 0)).2.2 = (shapeOf (s.me.shape 1)).2.2 ∧ (shapeOf (bf.me.shape 2)).1 ≠ (shapeOf (bf.me.shape 1)).2.1 ∧
    s.me.early = false ∧ (shapeOf (s.me.shape 0)).2.2 = (if false then 2 else 1) ∧ (shapeOf (s.me.shape 0)).2.2 ≠ (if true then 2 else 1) ∧
    (shapeOf (bf.me.shape 2)).2.2 = (if true then 2 else 1) := by decide

/-- The granules of a tile load from 0x178400 to scratch's end, all with tag 0, or the last with tag 5. -/
theorem test_meets_TileMovers_tags :
    let s := one (regs 0x178C00 0 0 0)
    let u := { s with tags := [(0x17C800 / 1024, 5)] }
    let gs := (List.range 17).filterMap fun i => if (0x178C00 : Nat) / 1024 * 1024 + 1024 * i < 0x178C00 + 16384 then
      some (0x178C00 / 1024 * 1024 + 1024 * i) else none
    (s.xr (0#1 ++ (1 : BitVec 4)) + (0 : BitVec 32).signExtend 64).toNat = 0x178C00 ∧ gs.length = 16 ∧
    (∀ g ∈ gs, s.tagOk s.ctx.core g 0 = true) ∧ gs.find? (fun g => !u.tagOk u.ctx.core g 0) = some 0x17C800 ∧ s.me.elastic = false ∧
    (one { elastic := true }).me.elastic = true := by decide +kernel

theorem test_meets_TileMovers_groups :
    let on := fun (o : Op) (g : Nat) => { one { ops := [(0, some { o with st := some 0 })] } with ctx := { idx := g } }
    let w : Op := { instr := .mld 0 (some 1) 1 0 }
    let t := one { ops := [(0, some w)] }
    let b := one { ops := [(0, some w)], cyc := 100, moverFree := 101 }
    (on { instr := .mld 0 none 1 0 } 30).myOp.st.isSome = true ∧ (on { instr := .mld 0 none 1 0 } 30).me.early = false ∧
    (on { instr := .mld 0 none 1 0 } 30).myOp.instr = .mld 0 none 1 0 ∧ (on { instr := .mld 0 none 1 0 } 30).ctx.idx + 1 < 32 ∧
    (on { instr := .mst 0 1 0 } 31).myOp.instr = .mst 0 1 0 ∧ (on { instr := .mst 0 1 0 } 31).myOp.st.isSome = true ∧
    (on { instr := .macs 1 0 0 } 126).myOp.instr = .macs 1 0 0 ∧ (on { instr := .macs 1 0 0 } 126).ctx.idx + 1 < 128 ∧
    (on { instr := .mlda 0 1 0 } 127).myOp.instr = .mlda 0 1 0 ∧ (on { instr := .mlda 0 1 0 } 127).sub ≤ 10 ∧
    t.myOp.st = none ∧ t.myOp.instr = .mld 0 (some 1) 1 0 ∧ t.me.moverBusy = false ∧ b.myOp.st = none ∧ b.me.moverBusy = true := by decide

/-- MTRN's last group of a 128 x 128 tile, one past a 4-row result, MCVT's last row and one past it. -/
theorem test_meets_TileMovers_converts :
    let on := fun (o : Op) (g : Nat) => { one { ops := [(0, some { o with st := some 0 })] } with ctx := { idx := g } }
    let m : Op := { instr := .mtrn 0 1, shA := 0x7F7F, buf := List.replicate 16384 0 }
    let c : Op := { instr := .mcvt 0 0 false false 0, shD := 0x7F7F }
    (on m 31).myOp.instr = .mtrn 0 1 ∧ (on m 31).myOp.buf.length = 16384 ∧ 4 * (on m 31).ctx.idx < (shapeOf (on m 31).myOp.shA).2.1 ∧
    (shapeOf (on m 31).myOp.shA).1 * (shapeOf (on m 31).myOp.shA).2.2 ≤ 128 ∧
    (shapeOf (on m 31).myOp.shA).2.1 * (shapeOf (on m 31).myOp.shA).2.2 ≤ 128 ∧
    (shapeOf (on { m with shA := 0x7F03 } 1).myOp.shA).2.1 ≤ 4 * (on { m with shA := 0x7F03 } 1).ctx.idx ∧
    (on c 127).myOp.instr = .mcvt 0 0 false false 0 ∧ (on c 127).ctx.idx < (shapeOf (on c 127).myOp.shD).1 ∧
    (shapeOf (on c 127).myOp.shD).2.1 * 1 ≤ 128 ∧ (shapeOf (on { c with shD := 0x007F } 1).myOp.shD).1 ≤ (on { c with shD := 0x007F } 1).ctx.idx := by
  refine ⟨rfl, List.length_replicate, by decide, by decide, by decide, by decide, rfl, by decide, by decide, by decide⟩

theorem test_meets_ScaleSlotsAndFollowOns :
    let y : Syllable := ⟨false, 0, .mzero true 1⟩
    let z : Syllable := ⟨true, 0, .mzero true 1⟩
    let s := one { ops := [(0, some { follow := some y })] }
    let t := one { ops := [(0, some { follow := some z })] }
    (one {}).myOp.follow = none ∧ s.myOp.follow = some y ∧ s.me.pr y.gp ≠ y.gs ∧ t.myOp.follow = some z ∧ t.me.pr z.gp = z.gs := by decide

theorem test_meets_CopyEngines :
    let s := { one (regs 0x1000 0x2000 0x17EFF0 0x17EEE0) with ctx := { slot := .c0, lits := [256, 512] } }
    let w := { one (regs 0x1000 0x40202000 0x17EFF0 0) with ctx := { slot := .c1 } }
    s.me.queued s.myEngine < 8 ∧
    s.rowsAt (s.xr 2) 0 1 (64 : BitVec 28).toNat = .ok (0, [0x2000]) ∧ s.rowsAt (s.xr 1) 0 1 (64 : BitVec 28).toNat = .ok (0, [0x1000]) ∧
    s.rowAt (s.xr 2) 1 = some (0, 0x2000) ∧ s.rowAt (s.xr 1) (4096 : BitVec 28).toNat = some (0, 0x1000) ∧
    s.rowsAt (s.xr 2) (s.ctx.lits.getD 0 0).toInt 2 64 = .ok (0, [0x2000, 0x2100]) ∧
    s.rowsAt (s.xr 1) (s.ctx.lits.getD 1 0).toInt 2 64 = .ok (0, [0x1000, 0x1200]) ∧
    (s.xr 3).toNat % 4 = 0 ∧ (s.xr 3).toNat + 16 ≤ s.me.carve.scrlim ∧ (s.xr 4).toNat + 288 ≤ s.me.carve.scrlim ∧
    { two (regs 0 0x40202000 0 0) {} with ctx := w.ctx }.rowAt 0x40202000 64 = some (1, 0x2000) := by decide

theorem test_meets_CopyEngines_full :
    let o := fun (i : Nat) => (i, some { src := { slot := 5 }, instr := .cpl ⟨1, 2, 3, none, none, 64⟩ : Op })
    let s := { one { ops := (List.range 8).map o } with ctx := { slot := .c0 } }
    let e := { one { ops := (List.range 8).map o, elastic := true } with ctx := { slot := .c0 } }
    8 ≤ s.me.queued s.myEngine ∧ s.me.elastic = false ∧ 8 ≤ e.me.queued e.myEngine ∧ e.me.elastic = true := by decide

theorem test_meets_CopyEngines_beats :
    let o : Op := { st := some 0, x0 := 200, regs := [0x1000], rowsD := [0x2000] }
    let s := { one { ops := [(0, some { o with outs := [([], false, false)] })] } with ctx := { idx := 1 } }
    let t := { one { ops := [(0, some o)] } with ctx := { idx := 2 } }
    let u := one { ops := [(0, some { o with st := none })] }
    s.myOp.st.isSome = true ∧ s.ctx.idx < s.myOp.beats ∧ s.myOp.outs.length = s.ctx.idx ∧ (s.core s.myOp.cs).early = false ∧
    (s.core s.myOp.src.core).early = false ∧ (s.core s.myOp.cs).rails.getLsbD 2 = true ∧ t.myOp.st.isSome = true ∧ t.myOp.beats ≤ t.ctx.idx ∧
    u.myOp.st = none ∧ u.sub ≤ 10 := by decide

theorem test_meets_TableAndImageLoads :
    let on := fun (o : Op) (g p : Nat) => { one { ops := [(0, some o)] } with ctx := { idx := g, plane := p } }
    let q := one { ops := [(0, some { as := 0x17EFC0, mask := 4096 })], dectab := [(0, some { z := 1 })] }
    let d : Op := { st := some 0, tab := some { z := 3 } }
    q.myOp.st = none ∧ q.sub ≤ 10 ∧
    q.myOp.as + q.myOp.mask.toNat / 4096 * (64 * ((Table.get none q.me.dectab q.myOp.x1.toNat).map (·.z)).getD 0) ≤
      (q.core q.myOp.cs).carve.scrlim ∧
    Table.get none (one {}).me.dectab 3 = none ∧
    (on d 0 0).myOp.st.isSome = true ∧ (on d 0 0).ctx.plane = 0 ∧ ((on d 0 0).core (on d 0 0).myOp.cs).early = false ∧
    ((on d 0 0).core (on d 0 0).myOp.src.core).early = false ∧ (on d 0 0).myOp.tab.isSome = true ∧
    ((on d 0 0).core (on d 0 0).myOp.cs).rails.getLsbD 2 = true ∧ (on d 0 1).ctx.plane = 1 ∧ (on d 0 2).ctx.plane = 2 := by decide

/-- A table's second and last third; an image of 32 words at pool address 0x1000 with a good header, a bad one, its one group, and its
end. -/
theorem test_meets_TableAndImageLoads_images :
    let on := fun (o : Op) (g : Nat) => { one { ops := [(0, some o)] } with ctx := { idx := g }, pool := [(0x1000, 1), (0x1004, 32)] }
    let e : Op := { st := some 0, instr := .dtab 1 2 }
    let f : Op := { st := some 0, instr := .cpi 1, hs := 33 }
    let n : Op := { instr := .cpi 1, as := 0x1000 }
    let b : Op := { instr := .cpi 1, as := 0x2000 }
    (on e 1).me.early = false ∧ ((on e 1).core (on e 1).myOp.src.core).early = false ∧ (on e 1).myOp.instr = .dtab 1 2 ∧ (on e 1).ctx.idx < 2 ∧
    (on e 2).ctx.idx = 2 ∧ (on e 2).myOp.st.isSome = true ∧ (on n 0).myOp.st = none ∧
    imageHeader ((on n 0).poolRead 0 (on n 0).myOp.as 16) = some (32, 0) ∧ 32 % 32 = 0 ∧
    (on n 0).myOp.as + 16 + 4 * 32 + 4 * ceilDiv 32 32 ≤ (on n 0).me.carve.scrlim ∧
    imageHeader ((on b 0).poolRead 0 (on b 0).myOp.as 16) = none ∧ (on b 0).myOp.st = none ∧
    (on f 1).myOp.instr = .cpi 1 ∧ (on f 1).myOp.st.isSome = true ∧ (on f 1).ctx.idx < ceilDiv (on f 1).myOp.hs 32 ∧
    ceilDiv (on f 2).myOp.hs 32 ≤ (on f 2).ctx.idx := by decide +kernel

theorem test_meets_SpillsAndFills :
    let a : SpillArgs := ⟨1, true, 0, 0, 64, 0⟩
    let x : SpillArgs := ⟨1, false, 0, 0, 32, 0⟩
    let s := one { regs 0x17B000 0 0 0 with tok := [(0, 100)] }
    let b := one { regs 0x17B000 0 0 0 with tok := [(0, 101)] }
    let e := one { regs 0x17B100 0 0 0 with tok := [(0, 101)], elastic := true }
    let o := one (regs 0x17B100 0 0 0)
    let p := fun (s : State) => s.xr a.xa + a.off.setWidth 64
    let t := { one { ops := [(0, some { instr := .spb a, regs := [0x17F000] })] } with ctx := { idx := 0 } }
    let u := { one { ops := [(0, some { instr := .fla a })] } with ctx := { idx := 63 } }
    let v := { one { ops := [(0, some { instr := .fla x })] } with ctx := { idx := 3 } }
    (p s).toNat + a.n.toNat * 256 ≤ s.me.carve.scrlim ∧ (p s).toNat < 0x180000 ∧ ¬ s.me.cyc < Table.get 0 s.me.tok a.tok.toNat ∧
    b.me.cyc < Table.get 0 b.me.tok a.tok.toNat ∧ b.me.elastic = false ∧ (p b).toNat + a.n.toNat * 256 ≤ b.me.carve.scrlim ∧
    e.me.elastic = true ∧ ¬ (p e).toNat + a.n.toNat * 256 ≤ e.me.carve.scrlim ∧ (p e).toNat + x.n.toNat * 8 ≤ e.me.carve.scrlim ∧
    e.me.cyc < Table.get 0 e.me.tok x.tok.toNat ∧ ¬ (p o).toNat + a.n.toNat * 256 ≤ o.me.carve.scrlim ∧
    ¬ o.me.cyc < Table.get 0 o.me.tok a.tok.toNat ∧ t.myOp.instr = .spb a ∧ a.vec = true ∧ u.myOp.instr = .fla a ∧
    v.myOp.instr = .fla x ∧ x.vec = false := by decide

/-- Channel 0 with the record `c`, allotted to run 0 which began at tick 0. -/
def chan (c : Chan) : State := { one {} with chans := [(0, c)], tick := 1000 }

theorem test_meets_ChannelRowCommands :
    let s := chan {}
    let u := { chan {} with caps := { rows := [(0, 5, 5)] } }
    s.myChan.guest = none ∧ s.myChan.rowAt ≠ some s.now ∧ (49148 : BitVec 16).toNat < 49149 ∧ s.retiredRow 0 49148 = false ∧
    s.myChan.lastRef = none ∧ s.myChan.acts = [] ∧ (s.myChan.bank 15).row = none ∧ s.myChan.closable 15 s.now = true ∧
    (∀ j < 16, s.myChan.closable j s.now = true) ∧ s.myChan.idle [15] s.now = true ∧ -8 < (s.myChan.bank 15).debt ∧
    s.myChan.idle (List.range 16) s.now = true ∧ (∀ j < 16, -8 < (s.myChan.bank j).debt) ∧
    gap s.myChan.lastRef s.now 385 = true ∧ 49149 ≤ (49149 : BitVec 16).toNat ∧
    (chan { guest := some none }).myChan.guest ≠ none ∧ (chan { guest := some none }).ctx.idx = 0 ∧ u.retiredRow u.ctx.chan (5 : BitVec 16).toNat = true ∧ u.myChan.guest = none ∧
    u.myChan.rowAt ≠ some u.now ∧ (chan { run := some 0, rowAt := some 1000 }).myChan.rowAt = some (chan { run := some 0 }).now := by decide

theorem test_meets_ChannelRowCommands_banks :
    let s := chan {}
    (∀ j, (s.myChan.bank j).pre = none ∧ (s.myChan.bank j).act = none ∧ (s.myChan.bank j).refpb = none) ∧
    ∀ j, j ≠ 15 → (s.myChan.bank j).refpb = none :=
  ⟨fun _ => ⟨rfl, rfl, rfl⟩, fun _ _ => rfl⟩

/-- The last burst of a command, whatever its row; the first of an RD and of a WR of row 1; a kept copy; an RD.K and a WR.P. -/
theorem test_meets_ChannelBursts :
    let d : QSlot := { data := List.replicate 32 7 }
    let s := { chan { slots := [(31, some d)] } with ctx := { idx := 127 } }
    let a : Burst := ⟨3, 3, 49151, 0, 127, true⟩
    let b : Burst := ⟨0, 0, 1, 0, 0, false⟩
    let f := chan { run := some 0, banks := [(0, { row := some 1, act := some 900 })], slots := [(0, some d)] }
    let k := { chan { slots := [(31, some d)], keep := [(s.burstOf a 127, List.replicate 32 0, 500)] } with ctx := { idx := 127 } }
    s.ctx.idx ≠ 0 ∧ s.ctx.idx = a.cnt.toNat ∧ ((0 : BitVec 5).toNat + s.ctx.idx) % 32 = 31 ∧
    Table.get none s.myChan.slots 31 = some d ∧ { d with poison := true }.poison = true ∧
    Table.get none { s with chans := [] }.myChan.slots 31 = none ∧ s.lostStack ≠ some (parityStack a.row.toNat (burstPlace a 127).1) ∧
    f.ctx.idx = 0 ∧ f.myChan.guest = none ∧ b.row.toNat < 48768 ∧ f.retiredRow f.ctx.chan b.row.toNat = false ∧
    (f.myChan.book (cmdBursts b f.now false)).isSome = true ∧ (f.myChan.book (cmdBursts b f.now true)).isSome = true ∧
    parityStack b.row.toNat b.b.toNat ≠ f.ctx.chan / 64 ∧ Table.get none f.myChan.slots 0 = some d ∧
    (k.myChan.keep.find? fun e => e.1 == k.burstOf a 127).isSome = true ∧
    (Table.get [] k.deltas (k.ctx.chan % 64)).length < 256 ∧ 0 < (127 : BitVec 7).toNat := by decide

/-- First bursts: of RD.X and a degraded WR.X with stack 5 retired, of WR.P with a kept copy, of WR.X in a parity burst of stack 0. -/
theorem test_meets_ChannelBursts_begin :
    let d : QSlot := { data := List.replicate 32 7 }
    let at_ := fun (row : Nat) (c : Chan) =>
      chan ({ c with run := some 0, banks := [(0, { row := some row, act := some 900 })], slots := [(0, some d)] } : Chan)
    let b : Burst := ⟨0, 0, 1, 0, 0, false⟩
    let p : Burst := ⟨0, 0, 12, 0, 0, false⟩
    let lost := fun (s : State) => { s with caps := { stackSt := [(5, 1)] } }
    let x := lost (at_ 1 {})
    let k := at_ 1 { keep := [((at_ 1 {}).burstOf b 0, List.replicate 32 0, 500)] }
    let w := at_ 12 {}
    let y := { lost w with chans := w.chans ++ [(64 * 5, ({ slots := [(0, some d)] } : Chan))] }
    x.ctx.idx = 0 ∧ x.myChan.guest = none ∧ b.row.toNat < 49149 ∧ x.retiredRow x.ctx.chan b.row.toNat = false ∧
    (x.myChan.book (cmdBursts b x.now false)).isSome = true ∧ x.lostStack = some 5 ∧ 5 ≠ x.ctx.chan / 64 ∧
    (k.myChan.book (cmdBursts b k.now true)).isSome = true ∧ parityStack b.row.toNat b.b.toNat ≠ k.ctx.chan / 64 ∧
    k.lostStack ≠ some (k.ctx.chan / 64) ∧ (k.myChan.keep.find? fun e => e.1 == k.burstOf b 0).isSome = true ∧
    (Table.get [] k.deltas (k.ctx.chan % 64)).length < 256 ∧ Table.get none k.myChan.slots 0 = some d ∧
    w.lostStack = none ∧ w.myChan.guest = none ∧ p.row.toNat < 48768 ∧ w.retiredRow w.ctx.chan p.row.toNat = false ∧
    (w.myChan.book (cmdBursts p w.now true)).isSome = true ∧ parityStack p.row.toNat p.b.toNat = w.ctx.chan / 64 ∧
    y.lostStack = some 5 ∧ 5 ≠ parityStack p.row.toNat (burstPlace p 0).1 ∧ Table.get none (y.chan (64 * 5 + y.ctx.chan % 64)).slots 0 = some d ∧
    (y.myChan.book (cmdBursts p y.now true)).isSome = true ∧ parityStack p.row.toNat p.b.toNat = y.ctx.chan / 64 ∧ 5 ≠ y.ctx.chan / 64 := by
  decide

theorem test_meets_ChannelBursts_records :
    let c : Chan := { run := some 0, banks := [(0, { row := some 48768, act := some 900 })] }
    let s := chan c
    s.ctx.idx = 0 ∧ s.myChan.guest = none ∧ (0 : BitVec 16).toNat < 48768 ∧ s.retiredRow s.ctx.chan (0 : BitVec 16).toNat = false ∧
    s.retiredRow s.ctx.chan (sealPlace 3 0).2.1 = false ∧
    (s.myChan.book [(s.now, false, (sealPlace 3 0).1, (sealPlace 3 0).2.1)]).isSome = true ∧ (s.myChan.latch 0).st = .empty ∧
    { s with ctx := { idx := 1 } }.ctx.idx ≠ 0 := by decide

theorem test_meets_SealAndParity :
    let v : Latch := { st := .sealed, tile := 3, cur := List.replicate 32 1 }
    let c : Chan := { run := some 0, latches := [(1, v)], banks := [(0, { row := some 48768, act := some 900 })] }
    let s := { chan {} with chans := [(64, c)], ctx := { chan := 64 } }
    let o : Op := { instr := .chr ⟨1, 2, none, none, true, false, 64, 0, 1⟩, cs := 64 }
    let p : Op := { instr := .chw ⟨1, true, false, 64, 0, 1⟩, seals := [some (5, 3, 2, 1)] }
    let t := { s with cores := [(0, { ops := [(0, some o)] })] }
    let u := { s with cores := [(0, { ops := [(0, some p)] })] }
    s.myChan.guest = none ∧ (0 : BitVec 16).toNat < 48768 ∧ s.retiredRow 64 (0 : BitVec 16).toNat = false ∧
    s.retiredRow 64 (sealPlace 3 0).2.1 = false ∧
    (s.myChan.book [(s.now, true, (sealPlace 3 0).1, (sealPlace 3 0).2.1)]).isSome = true ∧
    parityStack (sealPlace 3 0).2.1 (sealPlace 3 0).1 ≠ s.ctx.chan / 64 ∧ s.lostStack ≠ some (s.ctx.chan / 64) ∧
    (s.myChan.latch 1).st = .sealed ∧
    (s.myChan.latch 1).tile = 4 * (0 : BitVec 16).toNat + (3 : BitVec 2).toNat ∧ (Table.get [] s.deltas (64 % 64)).length < 256 ∧
    { s with ctx := { chan := 64, idx := 1 } }.ctx.idx ≠ 0 ∧ t.myOp.instr = o.instr ∧ ((t.chan t.myOp.cs).latch 0).st = .empty ∧
    u.myOp.instr = p.instr ∧ u.myOp.seals.getD 0 none = some (5, 3, 2, 1) := by decide

/-- A PARRMW begins in row 12 of stack 0, whose bank 0 holds parity there. -/
theorem test_meets_SealAndParity_parrmw :
    let s := chan { run := some 0, banks := [(0, { row := some 12, act := some 900 })] }
    let a : Burst := ⟨0, 0, 12, 0, 0, false⟩
    s.ctx.idx = 0 ∧ s.myChan.guest = none ∧ a.row.toNat < 49149 ∧ s.retiredRow s.ctx.chan a.row.toNat = false ∧
    parityStack a.row.toNat a.b.toNat = s.ctx.chan / 64 ∧
    (s.myChan.book (cmdBursts a s.now false ++ cmdBursts a (s.now + 40) true)).isSome = true := by decide

theorem test_meets_SealAndParity_tile :
    let s : State := { parts := [(63, { key1 := some 7 })] }
    63 < 64 ∧ 0xFFFFFFFF < 2 ^ 32 ∧ (List.replicate 16 (0 : Byte)).length = 16 ∧
    (if true then (s.part 63).key1 else (s.part 63).key0) = some 7 :=
  ⟨by decide, by decide, List.length_replicate, rfl⟩

theorem test_meets_ScriptsAndAges :
    let s := { chan { run := some 0, fetch := some (1, 5) } with ctx := { head := 3 } }
    let b : Block := { index := 1 }
    let t := chan { run := some 0, next := some b, script := .running }
    let d := chan { run := some 0, script := .running, banks := [(7, { debt := 8 })] }
    s.myChan.guest = none ∧ s.myChan.idle (List.range 16) s.now = true ∧ { s with ctx := {} }.ctx.head = s.myChan.cur.count ∧
    { s with ctx := { idx := 16 } }.ctx.idx ≠ 0 ∧ s.myChan.fetch = some (1, 5) ∧ s.myChan.script ≠ .running ∧
    t.myChan.next = some b ∧ s.myChan.next = none ∧ s.chanOpen 0 = true ∧ t.chanOpen 0 = false ∧
    (∀ k < 16, (t.myChan.bank k).debt < 8) ∧ d.chanOpen 0 = false ∧ (7 < 16 ∧ 8 ≤ (d.myChan.bank 7).debt) := by decide

/-- A FETCH in column 28 reads the next tile's first columns; a block ends with GSYNC; one whose command comes later than now. -/
theorem test_meets_ScriptsAndAges_fetch :
    let open_ := fun (row : Nat) => chan { run := some 0, banks := (List.range 16).map fun k => (k, { row := some row, act := some 900 }) }
    let s := open_ 1
    let t0 := 4 * (0 : BitVec 16).toNat + (3 : BitVec 2).toNat + (28 : BitVec 5).toNat / 16
    let g : Block := { hdr := 1 <<< 50, words := [0xE000000000000000] }
    s.ctx.idx = 0 ∧ s.myChan.guest = none ∧ t0 / 4 < 48768 ∧ s.retiredRow s.ctx.chan (t0 / 4) = false ∧ s.myChan.fetch = none ∧
    s.myChan.next = none ∧ ((s.myChan.book ((List.range 16).map fun i => (s.now + i, false, 4 * (i % 4) + t0 % 4, t0 / 4))).isSome = true) ∧
    g.opcode g.count = 14 ∧ (0 : Nat) < (Block.stamp { hdr := 5 } (0 + 1)) := by decide

theorem test_meets_ChannelTransfers :
    let r : Run := { last := { channels := 1 } }
    let s := { one (regs 0x17E000 0x400 0 0) r with ctx := { slot := .c0 } }
    let a : ChrArgs := ⟨1, 0, none, none, true, false, 64, 0, 1⟩
    let w : ChwArgs := ⟨1, false, false, 704, 31, 128⟩
    s.me.queued s.myEngine < 8 ∧ s.allotted s.ctx.core a.chan.toNat = true ∧
    (s.xr a.xa).toNat + a.n.toNat * 4096 ≤ s.me.carve.scrlim ∧ (s.xr a.xa).toNat % 1024 = 0 ∧
    s.allotted s.ctx.core w.chan.toNat = true ∧ (s.xr w.xa).toNat + w.n.toNat * 32 ≤ s.me.carve.scrlim ∧
    s.allotted s.ctx.core 1 = false ∧ s.allotted s.ctx.core 768 = false := by decide

theorem test_meets_ChannelTransfers_cycles :
    let a : ChrArgs := ⟨1, 0, none, none, false, false, 0, 31, 2⟩
    let w : ChwArgs := ⟨1, false, false, 0, 31, 2⟩
    let d : QSlot := { data := List.replicate 32 9 }
    let s := { one { ops := [(0, some { instr := .chr a, st := some 0 })] } with
      ctx := { idx := 1 }, chans := [(0, { slots := [(0, some d)] })] }
    let f := { one { ops := [(0, some { instr := .chr a, st := some 0, cols := [([1], []), ([2], [])] })] } with ctx := { idx := 3 } }
    let t := { one { ops := [(0, some { instr := .chw w, st := some 0, cols := [([1], []), ([2], [])] })] } with ctx := { idx := 2 } }
    s.myOp.st.isSome = true ∧ s.myOp.instr = .chr a ∧ s.ctx.plane = 0 ∧ chrTakes a s.myOp s.ctx.idx = some 1 ∧
    Table.get none (s.chan s.myOp.cs).slots ((a.q.toNat + 1) % 32) = some d ∧ d.poison = false ∧
    f.myOp.instr = .chr a ∧ a.s = false ∧ a.dec = none ∧ a.n.toNat ≤ f.ctx.idx ∧ f.ctx.idx = 2 + f.myOp.hs + 1 ∧ 1 < a.n.toNat ∧
    f.myOp.cols.getD 1 ([], []) = ([2], []) ∧ ([2] : List Byte) ≠ [] ∧
    t.myOp.st.isSome = true ∧ t.myOp.instr = .chw w ∧ t.myOp.waiting = false ∧ t.me.early = false ∧
    (t.core t.myOp.src.core).early = false ∧ w.s = false ∧ 2 + t.myOp.hs ≤ t.ctx.idx ∧ t.ctx.idx ≤ 1 + w.n.toNat + t.myOp.hs ∧
    ¬ t.ctx.idx < w.n.toNat ∧ { t with ctx := { idx := 1 } }.ctx.idx < chwN w := by decide

theorem test_meets_PodTimeAndClocks :
    let d : Wait := { what := .slew 1 }
    let e := fun (w : Wait) => one { elastic := true, seq := .wait, waits := [w] }
    let s := e d
    let u : State := { tick := 159, podSize := 2, timekeeper := 1, missed := 3 }
    let b : Beacon := ⟨80, 1, 15⟩
    let r := { one {} with rails := [(2, { point := 3, rise := [(90, 5), (101, 7)] })] }
    ({ podoff := 8 } : State).podoff ≤ 8 ∧ -8 ≤ ({ podoff := -8 } : State).podoff ∧ 8 < ({ podoff := 9 } : State).podoff ∧
    ({ podoff := -9 } : State).podoff < -8 ∧
    s.slews = [1] ∧ s.slewFree = true ∧ 0 < s.slews.sum ∧ (e { d with what := .slew (-1) }).slews.sum < 0 ∧ (one {}).slews = [] ∧
    (one { seq := .wait, waits := [d] }).slewFree = false ∧
    u.tick % 80 = 79 ∧ { u with flight := 0 }.goodBeacon b = true ∧ u.goodBeacon b = false ∧ (max (-127) (min 127 b.off)).natAbs < 16 ∧
    16 ≤ (max (-127) (min 127 (16 : Int))).natAbs ∧ (one { seq := .issue 3, taskSeq := 1 }).lockedCore 0 = true ∧
    (∃ e ∈ (r.rail 2).rise, e.1 ≤ r.tick ∧ e.2 = 5) ∧
    u.missed = 3 ∧ u.timekeeper ≠ u.devIndex ∧ { u with missed := 2 }.missed ≠ 3 ∧ { u with tick := 158 }.tick % 80 ≠ 79 ∧
    (⟨80, 2, 15⟩ : Beacon).rank ≠ u.timekeeper ∧ u.beaconSlot ≠ u.tick / 80 + 1 ∧ { u with beaconSlot := 2 }.beaconSlot = u.tick / 80 + 1 ∧
    s.me.elastic = true := by decide

/-- A core in an elastic phase whose state a recovery task has set aside. -/
theorem test_meets_PodTimeAndClocks_recovery :
    let q : Recovery := { saved := { elastic := true } }
    ((one {} { recov := some q }).run 0).recov = some q ∧ q.saved.elastic = true ∧ q.saved.mask.getLsbD 2 = true :=
  ⟨rfl, rfl, by decide⟩

theorem test_meets_GatesAndTasks :
    let g : Gate := { elastic := true, g := 200, n := 4 }
    let h : Gate := { g := 200, mask := 0xF }
    let s := one { regs 101 100 0 0 with seq := .gate 100, gate := some g }
    let t := one { seq := .gate 101, gate := some h }
    let k := one { seq := .gate 100, gate := some h, waits := [{}] }
    s.myRunTick < (s.xr 1).toNat ∧ (s.xr 2).toNat ≤ s.myRunTick ∧ s.me.gate = some g ∧ s.me.run = some 0 ∧ s.me.seq = .gate 100 ∧
    100 ≤ s.tick ∧ (∀ e ∈ s.me.ops, ∀ q, e.2 = some q → q.waiting = false) ∧ s.me.waits = [] ∧ g.elastic = true ∧
    t.me.seq = .gate 101 ∧ t.tick < 101 ∧ t.podoff.natAbs ≤ 12 ∧ t.rising h.mask = false ∧ t.railLimit h.mask = 16 ∧ h.elastic = false ∧
    k.me.waits ≠ [] ∧ (∀ b, (one { gate := some h }).me.seq ≠ .gate b) := by
  refine ⟨by decide, by decide, rfl, rfl, rfl, by decide, ?_, rfl, rfl, rfl, by decide, by decide, by decide, by decide, rfl,
    by decide, fun b h => by cases h⟩
  intro e h; cases h

/-- A PHASE in the cycle in which a declared length runs out; a rail that an earlier gate still wakes. -/
theorem test_meets_GatesAndTasks_phase :
    let s := one { regs 101 100 0 0 with tasks := [{ rule := .after, len := 50 }], cyc := 150, s := 100, inTask := true }
    let w := one { seq := .gate 100, gate := some { g := 200, mask := 0xF }, wake := [(4, 120)] }
    (s.xr 2).toNat ≤ s.myRunTick ∧ s.lengthEnds = true ∧ (one (regs 101 100 0 0)).lengthEnds = false ∧
    (4, 120) ∈ w.me.wake ∧ (4 : BitVec 4) &&& 0xF ≠ 0 ∧ (one { gate := some {} }).me.wake = [] := by decide

theorem test_meets_GatesAndTasks_tasks :
    let e : Task := { rule := .after, len := 50, code := 7 }
    let f : Task := { rule := .fin }
    let s := one { tasks := [e, f], seq := .atTick 100, cyc := 150, s := 100 }
    let n := one { tasks := [f], seq := .atCycle 151, cyc := 150 }
    let l := one { tasks := [{ rule := .at, v := 101 }], seq := .atCycle 151, cyc := 150 }
    let t := one { tasks := [{ rule := .at, v := 101 }], elastic := true, inTask := true }
    let u := one { tasks := [e, { rule := .at, v := 101 }], cyc := 151, s := 100 }
    let r := one { inRecov := true, inTask := true }
    let a := one { tasks := [e], seq := .atCycle 151, cyc := 150 }
    let h := one { tasks := [{ rule := .gate }], seq := .atCycle 151, cyc := 150 }
    let v := one { tasks := [e, { rule := .gate }], gate := some {}, elastic := true }
    let w := one { tasks := [e, { rule := .gate }], elastic := true }
    let b := one { waits := [{}] }
    s.me.seq = .atTick 100 ∧ e.rule ≠ .fin ∧ (∀ w ∈ s.engineWrites, w.2.1 ≠ s.ctx.core) ∧ s.me.inRecov = false ∧
    s.me.faulted = none ∧ e.len ≠ 0xFFFFFFFF ∧ s.me.lcyc = e.len.toNat ∧
    n.me.seq = .atCycle 151 ∧ (n.me.tasks.getD 0 {}).rule = .fin ∧ n.overhangEnd n.ctx.core = none ∧
    l.me.seq = .atCycle 151 ∧ (l.me.tasks.getD 0 {}).rule = .at ∧
    a.me.seq = .atCycle 151 ∧ (a.me.tasks.getD 0 {}).rule = .after ∧ (∀ w ∈ a.engineWrites, w.2.1 ≠ a.ctx.core) ∧
    h.me.seq = .atCycle 151 ∧ (h.me.tasks.getD 0 {}).rule = .gate ∧ (v.me.tasks.getD 1 {}).rule = .gate ∧ v.me.gate ≠ none ∧
    (w.me.tasks.getD 1 {}).rule = .gate ∧ w.me.gate = none ∧ b.me.inTask = false ∧ b.me.waits ≠ [] ∧ a.me.inTask = false ∧ a.me.waits = [] ∧
    t.me.elastic = true ∧ t.me.inTask = true ∧ t.me.expects = [] ∧ u.me.elastic = false ∧ u.me.lcyc ≠ e.len.toNat ∧
    r.me.inRecov = true ∧ s.me.inTask = false ∧ s.myRunTick < (101 : X).toNat := by decide

/-! ### A flit that passes its checks -/

/-- The header of a timed flit of device 1 to core 0 of device 0. -/
def flitHead : FHead := { mask := 0xFFFF, first := true, line := 2, core := 0, dst := 0, srcDev := 1 }
/-- Its payload. -/
def flitData : List Byte := List.replicate 128 5
/-- The group in which `bs` is the only flit, at its first position, with its check field, and its parity beat. -/
def groupOf (bs : List Byte) : List (List Byte) × List Byte :=
  let p := groupParity (groupData [bs])
  ([bs ++ leBytes 4 (p / 2 ^ 256 % 2048)], leBytes 32 p)
/-- A flit heard in slot 3 at position 0 of lane 0, alone in its group. -/
def heard (bs replay : List Byte) : FlitIn :=
  { port := 0, wave := 0, slot := 3, pos := 0, srcLane := 0, bytes := bs, replay := replay, group := (groupOf bs).1,
    parity := (groupOf bs).2 }
/-- The flit as heard under the reset key. -/
def flitIn : FlitIn := heard (flitBytes flitHead 0 (flitNonce 3 1 0 0) flitData) []

/-- Such a group arrives whole. -/
theorem groupOf_whole (bs : List Byte) (h : bs.length = 156) :
    groupData (groupOf bs).1 = groupData [bs] ∧ parityIs (groupOf bs).1 (groupOf bs).2 (groupParity (groupData (groupOf bs).1)) = true := by
  have e : groupData (groupOf bs).1 = groupData [bs] := by
    have hl : ∀ x : List Byte, (bs ++ x).take 156 = bs := fun x => List.take_left' h
    simp only [groupData, groupOf, List.range, List.range.loop, List.flatMap_cons, List.getD_cons_zero, List.append_assoc, hl]
    rfl
  refine ⟨e, ?_⟩
  rw [e]
  unfold groupOf parityIs
  simp [List.drop_left' h, List.range, List.range.loop]

theorem heard_whole (bs replay : List Byte) (h : bs.length = 156) :
    parityIs (heard bs replay).group (heard bs replay).parity (groupParity (groupData (heard bs replay).group)) = true :=
  (groupOf_whole bs h).2

/-- What it decodes to. -/
theorem heard_decodes (bs replay : List Byte) (h : bs.length = 156) : flitDecoded (heard bs replay) = some bs := by
  obtain ⟨e, p⟩ := groupOf_whole bs h
  have hd : groupDecode (heard bs replay).group (heard bs replay).parity = some (groupData [bs]) := by
    rw [e] at p
    simp only [heard, groupDecode, p, if_true, e]
  have ht : ((groupData [bs]).drop (156 * ((heard bs replay).pos % 4))).take 156 = bs := by
    have hl : ∀ x : List Byte, (bs ++ x).take 156 = bs := fun x => List.take_left' h
    have hz : 156 * ((heard bs replay).pos % 4) = 0 := rfl
    rw [hz, List.drop_zero]
    simp only [groupData, List.range, List.range.loop, List.flatMap_cons, List.getD_cons_zero, hl]
  rw [flitDecoded, hd, Option.map_some, ht]
/-- The keystream of its payload. -/
def flitStream : List Byte :=
  (List.range 8).flatMap fun i => ctrBlock (roundKeys (leBytes 32 0)) (flitNonce 3 1 0 0) (0 + i + 1)

theorem xorBytes_twice : ∀ (a k : List Byte), a.length ≤ k.length → xorBytes (xorBytes a k) k = a := by
  intro a
  induction a with
  | nil => intro k _; rfl
  | cons x a ih =>
    intro k h
    cases k with
    | nil => simp at h
    | cons y k =>
      simp only [List.length_cons, Nat.add_le_add_iff_right] at h
      have := ih k h
      simp only [xorBytes, List.zipWith_cons_cons] at this ⊢
      rw [this, BitVec.xor_assoc, BitVec.xor_self, BitVec.xor_zero]

theorem flitStream_length : flitStream.length = 128 := by decide +kernel

theorem crypt_flitData (bs : List Byte) (h : bs.length = 128) : gcmCrypt 0 (flitNonce 3 1 0 0) bs 0 = xorBytes bs flitStream := by
  simp only [gcmCrypt, h]; rfl

theorem flitCipher_length : (xorBytes flitData flitStream).length = 128 := by
  rw [xorBytes, List.length_zipWith, flitStream_length, flitData, List.length_replicate]; rfl

/-- The tag of a flit with header `h`. -/
def flitTag (h : FHead) : List Byte := gcmTag 0 (flitNonce 3 1 0 0) h.bytes (xorBytes flitData flitStream)

theorem flitTag_length : (flitTag flitHead).length = 16 ∧ (flitTag { flitHead with cls := 2 }).length = 16 := by decide +kernel

/-- The flit with header `h`, but for a short one's last check. -/
def flitCore (h : FHead) : List Byte := h.bytes ++ (xorBytes flitData flitStream ++ (flitTag h).take 12)

theorem flit_bytes (h : FHead) : flitBytes h 0 (flitNonce 3 1 0 0) flitData =
    if 2 ≤ h.cls then flitCore h ++ leBytes 4 (crc32 (flitCore h)).toNat else flitCore h := by
  have hp : flitData ++ List.replicate (128 - flitData.length) (0 : Byte) = flitData := by
    rw [show flitData.length = 128 from List.length_replicate, show List.replicate (128 - 128) (0 : Byte) = [] from rfl, List.append_nil]
  simp only [flitBytes, hp, crypt_flitData flitData List.length_replicate, flitCore, flitTag, List.append_assoc]

/-- A flit of device 1 opens to its payload, whatever follows it. -/
theorem flit_opens (h : FHead) (hl : h.bytes.length = 16) (ht : (flitTag h).length = 16) (tail : List Byte) :
    openFlit 0 (flitNonce 3 1 0 0) (flitCore h ++ tail) = some flitData := by
  unfold flitCore
  generalize hg : flitTag h = g at ht ⊢
  have hc := flitCipher_length
  have hx := crypt_flitData _ flitCipher_length
  have hy := xorBytes_twice flitData flitStream (by rw [flitStream_length, flitData, List.length_replicate])
  have hgt : gcmTag 0 (flitNonce 3 1 0 0) h.bytes (xorBytes flitData flitStream) = g := hg
  generalize xorBytes flitData flitStream = c at hc hx hy hgt ⊢
  generalize h.bytes = b at hl hgt ⊢
  have h1 : (b ++ (c ++ g.take 12) ++ tail).take 16 = b := by rw [List.append_assoc, List.take_left' hl]
  have h2 : ((b ++ (c ++ g.take 12) ++ tail).drop 16).take 128 = c := by
    rw [List.append_assoc, List.drop_left' hl, List.append_assoc, List.take_left' hc]
  have h3 : ((b ++ (c ++ g.take 12) ++ tail).drop 144).take 12 = g.take 12 := by
    rw [show (144 : Nat) = 16 + 128 from rfl, ← List.drop_drop, List.append_assoc, List.drop_left' hl, List.append_assoc,
      List.drop_left' hc, List.take_left' (by rw [List.length_take, ht]; rfl)]
  simp only [openFlit, h1, h2, h3, hgt, hx, hy, if_true]

/-- The header's bytes come back as the header. -/
theorem flit_header (h : FHead) (hl : h.bytes.length = 16) (he : FHead.ofBytes h.bytes = h) (tail : List Byte) :
    FHead.ofBytes (flitCore h ++ tail) = h := by
  rw [flitCore, List.append_assoc]
  refine Eq.trans ?_ he
  unfold FHead.ofBytes
  rw [List.take_left' hl, List.take_of_length_le (Nat.le_of_eq hl)]

/-- Core 0's run is partition 0's, which is made, plain and owns lane set 0; two devices in the run's gang. -/
def lit (k : Core) : State :=
  { one k { last := { gang := true, bitmap := 3, rankMap := [0, 1] } } with
    parts := [(0, { made := true, laneSets := 1, credits := [(1, 2)], rings := [(1, (5, 3))], cask := some ⟨0, 0, 16⟩ })], podSize := 2 }

theorem lit_good (f : FlitIn) (hf : f.slot = 3 ∧ f.srcLane = 0 ∧ f.pos = 0) (b : List Byte) (h : FHead) (short : Bool)
    (hz : h.zero = 0 ∧ h.key = false ∧ h.srcDev = 1) (hh : FHead.ofBytes b = h) (ho : openFlit 0 (flitNonce 3 1 0 0) b = some flitData)
    (hs : short = true → leBytes 4 (crc32 (b.take 156)).toNat = (b.drop 156).take 4) :
    (lit {}).goodCopy f b short = some (h, flitData) := by
  have hk : ((lit {}).laneSet 0).accepts (lit {}).tick 3 false = true := by decide
  have hy : ((lit {}).laneSet 0).key false = 0 := by decide
  unfold State.goodCopy
  rw [hh]
  simp only [hf.1, hf.2.1, hf.2.2, hz.1, hz.2.1, hz.2.2, Nat.zero_mod, hk, hy, ho]
  cases short
  · rfl
  · rw [hs rfl]; simp

theorem flitIn_good : (lit {}).goodCopy flitIn flitIn.bytes false = some (flitHead, flitData) := by
  have ho := flit_opens flitHead (by decide) flitTag_length.1 []
  have hh := flit_header flitHead (by decide) (by decide) []
  rw [List.append_nil] at ho hh
  refine lit_good flitIn ⟨rfl, rfl, rfl⟩ _ _ false ⟨rfl, rfl, rfl⟩ ?_ ?_ (fun h => by cases h)
  · exact (congrArg FHead.ofBytes (flit_bytes flitHead)).trans hh
  · exact (congrArg (openFlit 0 _) (flit_bytes flitHead)).trans ho

/-- The short form of the flit. -/
def shortBytes : List Byte := flitBytes { flitHead with cls := 2 } 0 (flitNonce 3 1 0 0) flitData

theorem shortBytes_good (f : FlitIn) (hf : f.slot = 3 ∧ f.srcLane = 0 ∧ f.pos = 0) :
    (lit {}).goodCopy f shortBytes true = some ({ flitHead with cls := 2 }, flitData) := by
  have hb : ({ flitHead with cls := 2 } : FHead).bytes.length = 16 := by decide
  have hs : shortBytes = flitCore { flitHead with cls := 2 } ++ leBytes 4 (crc32 (flitCore { flitHead with cls := 2 })).toNat :=
    flit_bytes { flitHead with cls := 2 }
  rw [hs]
  refine lit_good f hf _ _ true ⟨rfl, rfl, rfl⟩ (flit_header _ hb (by decide) _) (flit_opens _ hb flitTag_length.2 _) fun _ => ?_
  have hl : (flitCore { flitHead with cls := 2 }).length = 156 := by
    rw [flitCore, List.length_append, List.length_append, List.length_take, flitTag_length.2, flitCipher_length, hb]; rfl
  generalize flitCore { flitHead with cls := 2 } = b at hl ⊢
  rw [List.take_left' hl, List.drop_left' hl]
  rfl

/-- The flit's bytes are 156. -/
theorem flitIn_length : flitIn.bytes.length = 156 := by
  rw [show flitIn.bytes = flitCore flitHead from flit_bytes flitHead, flitCore, List.length_append, List.length_append, List.length_take,
    flitTag_length.1, flitCipher_length, show flitHead.bytes.length = 16 by decide]
  rfl

/-- Read as a short flit it is none. -/
theorem flitIn_bulk (e : FHead × List Byte) (h : (lit {}).goodCopy flitIn flitIn.bytes true = some e) : e.1.cls < 2 := by
  have hh := flit_header flitHead (by decide) (by decide) []
  rw [List.append_nil] at hh
  have hb : FHead.ofBytes flitIn.bytes = flitHead := (congrArg FHead.ofBytes (flit_bytes flitHead)).trans hh
  unfold State.goodCopy at h
  rw [hb] at h
  dsimp only at h
  split at h
  · cases h
  · obtain ⟨p, -, rfl⟩ := Option.map_eq_some_iff.1 h
    exact (by decide : flitHead.cls < 2)

theorem flitIn_decodes : flitDecoded flitIn = some flitIn.bytes := heard_decodes _ _ flitIn_length

theorem flitIn_whole : parityIs flitIn.group flitIn.parity (groupParity (groupData flitIn.group)) = true :=
  heard_whole _ _ flitIn_length

theorem test_meets_LightSendsAndReceives_flit :
    (lit {}).laneOwner flitIn.srcLane = some 0 ∧ ((lit {}).part 0).open_ = true ∧ flitDecoded flitIn = some flitIn.bytes ∧
    parityIs flitIn.group flitIn.parity (groupParity (groupData flitIn.group)) = true ∧
    (lit {}).goodCopy flitIn flitIn.bytes false = some (flitHead, flitData) ∧
    (∀ e, (lit {}).goodCopy flitIn flitIn.bytes true = some e → e.1.cls < 2) ∧ (lit {}).goodCopy flitIn flitIn.replay true = none ∧
    flitHead.cls = 0 ∧ flitHead.credits ≤ 256 ∧ flitHead.dst = (lit {}).devIndex :=
  ⟨by decide, by decide, flitIn_decodes, flitIn_whole, flitIn_good, flitIn_bulk, by decide, by decide, by decide, by decide⟩

/-- A bulk flit whose group decodes and whose header has a reserved bit set. -/
theorem test_meets_LightSendsAndReceives_bad :
    let b : List Byte := [0, 0, 0, 0, 0, 0, 0, 0, 0, 0, 0, 0, 1] ++ List.replicate 143 0
    let f := heard b []
    (lit {}).laneOwner f.srcLane = some 0 ∧ (FHead.ofBytes f.bytes).cls < 2 ∧ flitDecoded f = some b ∧
    (lit {}).goodCopy f b false = none ∧ (lit {}).goodCopy f f.replay true = none :=
  ⟨by decide, by decide, heard_decodes _ _ (by simp), by decide, by decide⟩

theorem test_meets_LightSendsAndReceives_sends :
    let s := { lit (regs 0x17E800 (2 ^ 30 + 0x80) 0x17E800 1) with tick := 80 + 6 + 5 * 11 - 12 }
    s.xr 2 = 0x40000080 ∧ bits (s.xr 2) 35 29 = 0 ∧ (bits (s.xr 2) 0 21).toNat % 128 = 0 ∧ (s.xr 1).toNat % 8 = 0 ∧
    (s.xr 1).toNat + (128 * 0 + 8 * 16) ≤ s.me.carve.scrlim ∧ s.laneBad 0 = none ∧ s.rankDev (bits (s.xr 2) 30 5).toNat = some 1 ∧
    s.reachable 1 = true ∧ (s.tick + 12) % 80 = 61 ∧ (61 - 6) % 5 = 0 ∧ (61 - 6) / 5 + 1 ≤ 12 ∧ s.laneRank 0 ((s.tick + 12) / 80) = some 1 ∧
    (s.lane 0).claims = [] ∧ ({ s with tick := 80 + 62 - 12 }.tick + 12) % 80 = 62 ∧ ({ s with tick := 80 + 7 - 12 }.tick + 12) % 80 = 7 ∧
    ({ s with tick := 80 + 5 - 12 }.tick + 12) % 80 = 5 ∧ s.laneRank 1 2 ≠ some 1 ∧
    (s.lane 0).closed = false ∧ (s.lane 0).queue.length + 16 ≤ 64 ∧ bits (s.xr 4) 5 59 = 0 ∧
    s.rankDev (bits (s.xr 4) 0 5).toNat = some 1 ∧ (s.xr 3).toNat % 8 = 0 ∧ (s.xr 3).toNat + 128 * 16 ≤ s.me.carve.scrlim ∧
    (s.xr 1).toNat + ((255 : BitVec 9).toNat + 1) ≤ s.me.carve.scrlim ∧ s.wireUsed < 16 ∧ 1 ≠ s.devIndex ∧
    bits (s.xr 4) 21 43 = 0 ∧ s.ctx.idx ≠ 1 ∧ { s with ctx := { idx := 1 } }.ctx.idx = 1 := by decide

/-- Positions already claimed in slot 2, and a short flit beside another; a closed lane, a full queue. -/
theorem test_meets_LightSendsAndReceives_busy :
    let at_ := fun (l : Lane) => { lit (regs 0x17E800 0x40000080 0x17E800 1) with lanes := [(0, l)] }
    let s := at_ { claims := [(2, 11, {})] }
    let h := at_ { claims := [(2, 0, { cls := 2 })] }
    let c := at_ { closed := true }
    let f := at_ { queue := List.replicate 50 {} }
    (∃ c ∈ (s.lane 0).claims, c.1 = 2 ∧ 11 ≤ c.2.1 ∧ c.2.1 < 11 + 1) ∧ (∃ c ∈ (h.lane 0).claims, c.1 = 2 ∧ 2 ≤ c.2.2.cls) ∧
    (c.lane 0).closed = true ∧ 64 < (f.lane 0).queue.length + 16 ∧ 12 < 11 + 2 := by decide

theorem test_meets_LightSendsAndReceives_multicast :
    let s := { lit {} with parts := [(0, { made := true, laneSets := 1, mcast := [(63, (90, 0, 3))] })] }
    let e := Table.get (0, 0, 0) (s.part 0).mcast (63 : BitVec 6).toNat
    let m : BitVec 41 := if s.tick ≤ e.1 then e.2.1 else e.2.2
    m.getLsbD 1 = true ∧ m.getLsbD 0 = true ∧ [some 0, some 1][1]? = some (some 1) ∧ (s.part 0).reach.getLsbD 1 = true ∧
    1 ≠ s.devIndex ∧ 0 = s.devIndex ∧ (s.part 0).reach.getLsbD 0 = true := by decide

theorem test_meets_LightSendsAndReceives_departures :
    let s := { lit {} with lanes := [(0, { queue := [{ cls := 1, rank := 1, ready := true }] })] }
    let m := { lit {} with lanes := [(0, { markers := some [1] })] }
    let f : Flit := { cls := 1, rank := 1, wire := true, ready := true, readyAt := 9 }
    let w := { lit {} with lanes := [(0, { queue := [f] }), (3, { queue := [{ f with readyAt := 7 }] })], ctx := { idx := 1 } }
    s.canSend s.ctx.lane (s.tick / 80) 1 = true ∧ (s.lane s.ctx.lane).oldest false 1 = some 0 ∧
    (s.part ((s.lane s.ctx.lane).queue.getD 0 {}).part).credit 1 ≠ 0 ∧ s.sends ((s.lane s.ctx.lane).queue.getD 0 {}).part = true ∧
    1 ≠ s.devIndex ∧ (s.lane s.ctx.lane).lostUntil ≤ s.tick ∧ m.canSend m.ctx.lane (m.tick / 80) 1 = true ∧
    (m.lane m.ctx.lane).markers = some [1] ∧ (m.lane m.ctx.lane).queue = [] ∧ (m.lane m.ctx.lane).claims = [] ∧
    m.laneOwner m.ctx.lane = some 0 ∧ m.sends 0 = true ∧ { m with runs := [] }.sends 0 = false ∧
    w.oldestWire w.ctx.part w.ctx.idx = some (3, 0, { cls := 1, rank := 1, wire := true, ready := true, readyAt := 7 }) ∧
    (w.lane 0).oldest true w.ctx.idx = some 0 ∧ ((w.lane 0).queue.getD 0 {}).part = w.ctx.part ∧
    (w.part w.ctx.part).credit w.ctx.idx ≠ 0 ∧ w.sends w.ctx.part = true ∧ w.ctx.idx ≠ w.devIndex := by decide

theorem test_meets_LightSendsAndReceives_landings :
    let l : Landing := { due := 96, flit := { line := 1, mask := 0xFFFF, data := List.replicate 128 3 } }
    let k : Landing := { due := 95, flit := { line := 1, mask := 0xFFFF, data := List.replicate 128 3 } }
    let s := { lit {} with ports := [(0, { queue := [l] })] }
    let late := { lit {} with ports := [(0, { queue := [k] })] }
    (s.port s.ctx.core).queue = [l] ∧ l.counted = false ∧ l.lost = false ∧ l.flit.cls = 0 ∧ l.flit.tw = false ∧ l.credits = 0 ∧
    (s.landRun l.flit.part s.ctx.core l.src).map (·.1) = some 0 ∧ (s.landRun 0 0 1).map (·.1) = some 0 ∧ s.landRun 0 0 7 = none ∧ l.due ≤ s.tick ∧ s.tick < l.due + 5 ∧
    s.landFits 0 s.ctx.core (128 * l.flit.line) l = true ∧
    (late.port 0).queue = [k] ∧ k.due + 5 ≤ late.tick ∧ (s.core 0).run = some 0 ∧
    0x17EFFF + [(0 : Byte)].length ≤ (s.core 0).carve.scrlim := by decide +kernel

/-- A short flit none of whose two copies passes its check, and one whose replay does. -/
theorem test_meets_LightSendsAndReceives_short :
    let b : List Byte := [0, 0, 0, 0, 0, 0, 4]
    let f : FlitIn := { flitIn with bytes := b, replay := b }
    let g : FlitIn := { flitIn with bytes := b, replay := shortBytes }
    (lit {}).laneOwner f.srcLane = some 0 ∧ ((lit {}).part 0).open_ = true ∧ (FHead.ofBytes f.bytes).cls = 2 ∧
    (lit {}).goodCopy f f.bytes true = none ∧ (lit {}).goodCopy f f.replay true = none ∧
    (lit {}).goodCopy g g.bytes true = none ∧ (lit {}).goodCopy g g.replay true = some ({ flitHead with cls := 2 }, flitData) ∧
    flitHead.credits ≤ 256 ∧ flitHead.dst = (lit {}).devIndex :=
  ⟨by decide, by decide, by decide, by decide, by decide, by decide, shortBytes_good _ ⟨rfl, rfl, rfl⟩, by decide, rfl⟩

theorem test_meets_LightSendsAndReceives_rest :
    let x : Expect := { addr := 0x400, tag := 0 }
    let y : Expect := { addr := 0x400, tag := 9 }
    let s := lit { regs 0x17EFFF 1 0 0 with expects := [x] }
    let t := lit { expects := [y] }
    let e := lit { expects := [y], elastic := true }
    let full := lit { expects := List.replicate 16 x }
    let o := { lit {} with parts := [(0, { made := true, owed := [(1, [(3, 0)])] })], tick := 161, ctx := { idx := 1 } }
    (s.xr 1).toNat + 1 ≤ s.me.carve.scrlim ∧ s.me.expects.length < 16 ∧ 16 ≤ full.me.expects.length ∧ full.me.elastic = false ∧
    s.me.expects[s.ctx.idx]? = some x ∧ s.tagOk s.ctx.core x.addr x.tag = true ∧ t.me.expects[t.ctx.idx]? = some y ∧
    t.tagOk t.ctx.core y.addr y.tag = false ∧ t.me.elastic = false ∧ e.tagOk e.ctx.core y.addr y.tag = false ∧ e.me.elastic = true ∧
    (s.part (s.partOf s.ctx.core)).cask = some ⟨0, 0, 16⟩ ∧ s.rankDev (bits (s.xr 2) 0 5).toNat = some 1 ∧
    (((Table.get [] (o.part o.ctx.part).owed o.ctx.idx).filter fun (e : Nat × Nat) => decide (e.2 + 160 < o.tick)).map (·.1)).foldl (· + ·) 0 ≠ 0 ∧
    (o.part o.ctx.part).drained = false ∧ o.ctx.idx ≠ o.devIndex := by decide

theorem test_meets_LightUpkeep :
    let s := lit (regs 1 0 0 0)
    let c := { s with parts := [(0, { made := true, laneSets := 1, confidential := true })] }
    let p := { s with peers := [(31, { est := true })] }
    let b := { s with lanes := [(0, { line := 3, lostUntil := 80 })] }
    let m := { s with timekeeper := 1, podSize := 32 }
    s.drainLanes (s.xr 1) = [0] ∧ (s.part (s.partOf s.ctx.core)).open_ = true ∧ (c.part (c.partOf c.ctx.core)).open_ = false ∧
    c.drainLanes (c.xr 1) ≠ [] ∧ s.drainLanes (s.xr 2) = [] ∧ (p.peer 31).est = true ∧ (s.peer 31).est = false ∧
    m.present 31 = true ∧ m.timekeeper < 31 ∧ m.present 0 = true ∧ (∀ j < 32, { m with timekeeper := 31 }.present j = true → j ≤ 31) ∧
    b.lanes = [(0, { line := 3, lostUntil := 80 })] ∧ 80 = 80 * (b.tick / 80) ∧ b.laneOwner 0 = some 0 ∧ (b.partRun 0).map (·.1) = some 0 ∧
    (b.runs.filter fun e => e.2.part == 0 && e.2.st == .live) = [(0, b.run 0)] ∧ (b.core ((b.run 0).cores.headD 0)).run ≠ none := by
  decide

theorem test_meets_LightUpkeep_failures :
    let s := lit {}
    let r := { s with lanes := [(1, { line := 2 }), (3, { line := 1, spare := [5] }), (14, { carries := some 1 }), (15, { line := 3 })] }
    let f := { s with lanes := [(1, { line := 2 }), (14, { carries := some 1 })] }
    let q := { s with parts := [(0, { made := true, laneSets := 1, confidential := true, tdi := .run })] }
    let free := fun (s : State) (l : Nat) => (s.lane l).carries = none ∧ (s.lane l).line ≠ 3
    (s.lane 3).line < 2 ∧ 3 % 16 < 14 ∧ 3 / 16 * 16 + 14 = 14 ∧ 31 ∉ (s.lane 3).spare ∧ free s 14 ∧ (r.lane 3).line < 2 ∧ 5 ∈ (r.lane 3).spare ∧
    ¬ free r 14 ∧ ¬ free r 15 ∧ (r.lane 14).carries = some 1 ∧ (r.lane 14).line ≠ 3 ∧ 1 ≠ 14 ∧ 1 ≠ 15 ∧ 5 ∉ (r.lane 14).spare ∧
    (f.lane 14).carries = some 1 ∧ (f.lane 14).line ≠ 3 ∧ free f 15 ∧ (r.lane 15).line = 3 ∧
    Table.get 0 s.caps.comb 1 = 0 ∧ Table.get 0 { s.caps with comb := [(1, 2)] }.comb 1 ≠ 0 ∧
    32 * 3 + 31 < 128 ∧ (s.part 0).laneSets.getLsbD 0 = true ∧
    (q.part 0).made = true ∧ (q.part 0).laneSets ≠ 0 ∧ (q.part 0).confidential = true ∧ (q.part 0).tdi ≠ .unlocked := by decide

/-- Bundle one of 02_bundles.md at word 0 of core 0, with the head bit on its header alone. -/
def bundleOne : State :=
  { one { nextPc := 0, cyc := 100, seq := .issue 100 } with
    imem := [(0, (0x00000883, true)), (1, (0x40, false)), (2, (0x00194A00, false)), (3, (0x10000000, false)), (4, (0x00420180, false)),
      (5, (0x3FC00000, false))] }

/-- Its two syllables. -/
def bundleSyls : List SylAt :=
  [⟨.s, 0x00194A0000000040, .ok ⟨false, 0, .addi 5 5 64⟩⟩, ⟨.v0, 0x0042018010000000, .ok ⟨false, 0, .fma ⟨.f32, 8, 1, .lit 0, 2, 0⟩⟩⟩]

theorem test_meets_BundleIssues :
    let s := bundleOne
    let h : Header := ⟨false, 0, 0, 2, 1, 3⟩
    let rest := (List.range (h.length - 1)).map fun i => s.imemAt s.ctx.core (s.me.nextPc + 1 + i)
    let t := { s with cores := [(0, { nextPc := 5 })] }
    let b := { s with badWords := [0] }
    let o := { s with cores := [(0, { nextPc := 32768 })] }
    let z := { s with cores := [(0, { nextPc := 32767 })], imem := [(32767, (0x00000883, true))] }
    s.ctx.idx ≠ 1 ∧ s.me.nextPc < 32768 ∧ (s.imemAt s.ctx.core s.me.nextPc).2 = true ∧
    Header.dec (s.imemAt s.ctx.core s.me.nextPc).1 = some h ∧ s.badWords = [] ∧ s.me.nextPc + h.length ≤ 32768 ∧
    rest.map (·.2) = List.replicate 5 false ∧
    rest.map (·.1) = [0x40, 0x00194A00, 0x10000000, 0x00420180, 0x3FC00000] ∧ h.nlit.toNat = 1 ∧ h.slots = [.s, .v0] ∧
    s.me.delayLeft = 0 ∧ s.me.endsAt s.me.nextPc = [] ∧ (∀ y ∈ bundleSyls, h.firstOnly.getLsbD y.slot.num = false ∧
      h.lastOnly.getLsbD y.slot.num = false) ∧ (t.imemAt t.ctx.core t.me.nextPc).2 = false ∧
    32768 ≤ o.me.nextPc ∧ z.me.nextPc < 32768 ∧ (z.imemAt z.ctx.core z.me.nextPc).2 = true ∧
    Header.dec (z.imemAt z.ctx.core z.me.nextPc).1 = some h ∧ 32768 < z.me.nextPc + h.length ∧
    (0 ∈ b.badWords ∧ b.ctx.core * 32768 + b.me.nextPc ≤ 0 ∧ 0 < b.ctx.core * 32768 + b.me.nextPc + 1) ∧ b.me.faulted = none := by decide

theorem test_meets_BundleIssues_syllables :
    sylsOf 1 [.s, .v0] [0x40, 0x00194A00, 0x10000000, 0x00420180, 0x3FC00000] = bundleSyls := by decide

/-- Bundle one at word 0 of a core in state `k`; the words it reads are those of `test_meets_BundleIssues`. -/
def bundleWith (k : Core) : State := { bundleOne with cores := [(0, { k with run := some 0, cyc := 100, seq := .issue 100 })] }

/-- The second delay bundle of a transfer; a loop-end bundle where level 5 exits and level 0 loops back, one where both exit, one in a
delay bundle. -/
theorem test_meets_BundleIssues_sequencing :
    let d := bundleWith { delayLeft := 1, target := some 0x7FFF }
    let back : Loop := { active := true, lc := 2, le := 0, lsx := 3, lsd := 8, rotate := true }
    let last : Loop := { active := true, lc := 1, le := 0 }
    let l := bundleWith { loops := [(5, last), (0, back)] }
    let e := bundleWith { loops := [(5, last), (0, last)] }
    let b := bundleWith { loops := [(0, back)], delayLeft := 1 }
    d.ctx.idx ≠ 1 ∧ d.me.nextPc = 0 ∧ d.me.delayLeft = 1 ∧ d.me.endsAt d.me.nextPc = [] ∧ (0 ≤ d.me.target.getD 0 ∧ d.me.target.getD 0 ≤ 0x7FFF) ∧
    l.me.endsAt l.me.nextPc = [5] ++ 0 :: [] ∧ (∀ m ∈ [5], (l.me.loopOf m).lc.toNat ≤ 1) ∧ 1 < (l.me.loopOf 0).lc.toNat ∧
    l.me.delayLeft = 0 ∧ (∀ y ∈ bundleSyls, y.instr.branch = false) ∧ e.me.endsAt e.me.nextPc = [5, 0] ∧
    (∀ m ∈ [5, 0], (e.me.loopOf m).lc.toNat ≤ 1) ∧ b.me.endsAt b.me.nextPc ≠ [] ∧ b.me.delayLeft ≠ 0 ∧
    (b.run 0).st = .live ∧ b.me.run = some 0 ∧ b.me.inRecov = false ∧ b.me.faulted = none ∧ b.me.trap.w0.getLsbD 8 = false := by decide

/-- A bundle with a syllable of no defined opcode; a BR in a delay bundle; a nullified iteration of a padded level and an M syllable in
it; an uncorrectable error in a later word; the check of the syllable that stands next. -/
theorem test_meets_BundleIssues_faults :
    let k : Core := { delayLeft := 1, elastic := true }
    let br : SylAt := ⟨.s, 0, .ok ⟨false, 0, .br 1 0⟩⟩
    let bad := sylsOf 1 [.s, .v0] [0x40, 0xFFFFFFFF, 0x10000000, 0x00420180, 0x3FC00000]
    let n : Core := { loops := [(5, { active := true, padded := true, la := 0, lb := 0, le := 9 })] }
    let m : SylAt := ⟨.m, 0, .ok ⟨false, 0, .mnop⟩⟩
    let b := { bundleOne with badWords := [5] }
    let w : Work := { ctx := { idx := 0 }, instr := .vmov ⟨.f32, 1, .v 2, 0⟩ }
    let c := { bundleWith { rails := 0 } with todo := [w], ctx := { idx := 1 } }
    let g := { bundleWith {} with todo := [w], ctx := { idx := 1 } }
    bundleFault {} 6 [0x3FC00000] false bad = some (.illegalOp, .s) ∧ bundleFault k 6 [] true [br] = some (.delayBranch, .s) ∧
    k.delayLeft ≠ 0 ∧ (∀ y ∈ [br], sylFault k 6 [] y = none) ∧ slotConflict ([br].map fun y => (y.slot, y.instr.dests)) = none ∧
    br.instr.transfer = true ∧ n.nullIter 0 = true ∧ (n.loopOf 5).padded = true ∧ (Instr.mnop).kind = .syl .m ∧ m.dec = .ok ⟨false, 0, .mnop⟩ ∧
    (Instr.li 1 false 0).kind ≠ .syl .m ∧ (5 ∈ b.badWords ∧ b.ctx.core * 32768 + b.me.nextPc ≤ 5 ∧ 5 < b.ctx.core * 32768 + b.me.nextPc + 6) ∧
    ¬ (5 < b.ctx.core * 32768 + b.me.nextPc + 1) ∧ c.ctx.idx = 1 ∧ c.todo = [w] ∧
    c.preFault w.ctx.core (BitVec.ofNat 4 w.ctx.req) w.instr = some .railDown ∧
    (g.core w.ctx.core).early = false ∧ w.instr.rails &&& (g.core w.ctx.core).rails = w.instr.rails ∧ ({ g with todo := [] }).todo = [] := by decide

theorem test_meets_BundleIssues_checks : bundleFault bundleOne.me 6 [0x3FC00000] false bundleSyls = none := by decide

theorem test_meets_WritebackPerforms :
    let w : PWrite := { clk := .tick, due := 99, upd := .x 0 31 7 }
    let v : PWrite := { clk := .tick, due := 99, upd := .x 0 31 8 }
    let p : PWrite := { clk := .core 0, due := 100, upd := .pool 0 0x17FFF8 (someBytes (leBytes 8 1)) false }
    let q : PWrite := { clk := .core 0, due := 101, upd := .x 0 5 1 }
    let s := { one {} with pend := [w] }
    let s2 := { one {} with pend := [w, v] }
    let t := { one { cyc := 100, running := true, seq := .issue 101 } with pend := [p] }
    let u := { t with pend := [q] }
    s.pend = [w] ∧ s.ripe s.closing w = true ∧ (31 : XReg) ≠ 0 ∧ t.pend = [p] ∧ t.ripe t.closing p = true ∧ p.src.core = 0 ∧
    p.src.rx = none ∧ (t.core 0).rails.getLsbD 2 = true ∧ u.pend = [q] ∧ u.ripe u.closing q = false ∧ s2.pend = [w, v] ∧
    s2.ripe s2.closing w = true ∧ s2.ripe s2.closing v = true ∧ w.src.rx = none ∧ v.src.rx = none ∧ v.upd = .x 0 31 8 ∧
    (s2.core 0).run = some 0 ∧ (s2.core 0).faulted = none ∧ (s2.core 0).inRecov = false ∧ (s2.core 0).trap.w0.getLsbD 8 = false := by
  decide

theorem test_meets_RunsStartAndEnd :
    let g : Run := { last := { gang := true, bitmap := 3, rankMap := [0, 1] } }
    let s := { one {} with runs := [(0, { st := .armed, cores := [0] })] }
    let m := one {} g
    let o := { one {} g with arms := [(0, 1, 0)] }
    let d := one { seq := .done }
    let b := one { seq := .issue 3 }
    let u := { one {} with runs := [(0, { st := .runon 100 })] }
    (s.run s.ctx.run).st = .armed ∧ (m.run 0).last.gang = true ∧ m.missing (m.run 0) ≠ [] ∧ o.missing (o.run 0) = [] ∧
    (d.run 0).st = .live ∧ (d.run 0).cause = none ∧
    (∀ c ∈ (d.run 0).cores, (d.core c).inBarrier = false) ∧
    (∀ cn ∈ (d.run 0).chans, (d.chan cn).run ≠ some 0 ∨ (d.chan cn).script ≠ .running) ∧
    (∃ c ∈ (b.run 0).cores, (b.core c).inBarrier = true) ∧ (u.run 0).st = .runon 100 := by decide +kernel

/-- Channel 3's script still runs when the run's one core is done. -/
theorem test_meets_RunsStartAndEnd_scripts :
    let s := { one { seq := .done } { last := { channels := 8 } } with chans := [(3, { run := some 0, script := .running })] }
    (s.run 0).st = .live ∧ (s.run 0).cause = none ∧ (∀ c ∈ (s.run 0).cores, (s.core c).inBarrier = false) ∧
    3 ∈ (s.run 0).chans ∧ ¬ ((s.chan 3).run ≠ some 0 ∨ (s.chan 3).script ≠ .running) := by decide +kernel

theorem test_meets_FreezesRecoveryPreemption :
    let c : Cause := { code := 38, tau := 5 }
    let at_ := fun (u : Run) => { one {} with runs := [(0, { u with cores := [0] })] }
    let s := one {} { cause := some c, last := { recovery := true } }
    let n := one {} { cause := some c }
    let f := at_ { st := .frozen 100, cause := some c }
    let g := at_ { st := .frozen 100, cause := some c, restartAt := some 100 }
    let a := { one {} { last := { gang := true } } with ctx := {} }
    let y := one {} { last := { yieldGap := 1000 } }
    (s.run s.ctx.run).st = .live ∧ (s.run 0).cause = some c ∧ (s.run 0).last.recovery = true ∧ (n.run 0).last.recovery = false ∧
    (n.run 0).last.gang = false ∧ (f.run 0).st = .frozen 100 ∧ (f.run 0).cause = some c ∧ s.me.run = some 0 ∧
    (a.run 0).last.gang = true ∧ a.me.run = some 0 ∧ (f.run 0).last.gang = false ∧ f.me.run = some 0 ∧
    f.resumable (f.run 0) = false ∧ (a.run 0).part = 0 ∧ (a.run 0).st = .live ∧ a.runs = [(0, a.run 0)] ∧ (a.run 0).abortAt = none ∧
    (a.run 0).cause = none ∧ (y.run 0).last.yieldGap ≠ 0 ∧ (y.run 0).last.gang = false ∧ c.code = 38 ∧ (0x24 : Nat) ≠ 38 ∧ f.contextFree (f.run 0) = true ∧
    (f.run 0).restartAt = none ∧ g.contextFree (g.run 0) = true ∧ (g.run 0).restartAt = some 100 ∧ 100 ≤ g.tick := by decide

/-- A recovery task that has ended; a pre-empted run with no saved context, and one whose core another run has given back. -/
theorem test_meets_FreezesRecoveryPreemption_context :
    let x : Context := { cores := [(0, { cyc := 7 })] }
    let v := { one { seq := .stopped, inRecov := true } with runs := [(0, { st := .frozen 20, cores := [0], recov := some {} })] }
    let n := { one {} with runs := [(0, { st := .frozen 20, cores := [0], cause := some { code := 38 } })] }
    let s := { one {} with cores := [], runs := [(0, { st := .frozen 20, cores := [0], cause := some { code := 38 }, context := some x })] }
    (v.run 0).st = .frozen 20 ∧ (v.run 0).recov = some {} ∧ (v.core 0).seq = .stopped ∧ (v.run 0).restartAt = none ∧
    (n.run 0).st = .frozen 20 ∧ (n.run 0).context = none ∧
    (s.run 0).st = .frozen 20 ∧ s.contextFree (s.run 0) = true ∧ (s.run 0).context = some x ∧ x.cores = [(0, { cyc := 7 })] ∧
    (s.run 0).contextChans = [] ∧ (s.run 0).restartAt = none :=
  ⟨rfl, rfl, rfl, rfl, rfl, rfl, rfl, by decide, rfl, rfl, rfl, rfl⟩

/-- A pre-emption requested of a frozen run, of an ended one and of one without a yield gap; a gap that has run out and one that has not. -/
theorem test_meets_FreezesRecoveryPreemption_yields :
    let at_ := fun (u : Run) => { one {} with runs := [(0, { u with cores := [0] })] }
    let f := at_ { st := .frozen 20, last := { yieldGap := 99 } }
    let y := one { cyc := 100 } { last := { yieldGap := 99 } }
    let z := one { cyc := 100 } { last := { yieldGap := 100 } }
    (f.run 0).st ≠ .ended ∧ (f.run 0).last.yieldGap ≠ 0 ∧ (f.run 0).last.gang = false ∧ ((at_ { st := .ended }).run 0).st = .ended ∧
    ((one {}).run 0).last.yieldGap = 0 ∧ (y.run 0).cores = [] ++ 0 :: [] ∧ (y.run 0).last.yieldGap < y.gapOf (y.run 0) 0 ∧
    (∀ c ∈ (z.run 0).cores, z.gapOf (z.run 0) c ≤ (z.run 0).last.yieldGap) := by decide

/-- A run whose only cause is a soft trap of core 0 can be resumed. -/
theorem test_meets_FreezesRecoveryPreemption_resumable :
    let w : Trap := { w0 := trapWord0 0x24 true false 0 0 0 0 false false }
    let f := { one {} with runs := [(0, { st := .frozen 100, cores := [0], cause := some { code := 0x24, trap := w }, record := w })] }
    f.me.run = some 0 ∧ (f.run 0).last.gang = false ∧ f.resumable (f.run 0) = true := by decide

theorem test_meets_ErrorsAndVerdicts :
    let b : Unit' := .poolBank 0 23
    let x : Test := { unit := b, run := some 0 }
    let w : Trap := { w0 := trapWord0 0x1F true false 0 0 0 0 false false }
    let s := one {}
    let t := { one {} { record := w } with testing := [{ x with started := true }], lowTests := [b] }
    let j := { one { ue := some b } { record := w, cause := some { byCore := some (0, 7) } } with testing := [{ x with started := true }] }
    let l : Test := { unit := b, limit := some 200 }
    let z := { one {} with runs := [(0, { st := .frozen 100, cores := [0] })], rails := [(2, { point := 7 })] }
    let d := { one {} with testing := [{ x with started := false }] }
    let e := { one {} with errors := [(.coreState 511, 15), (.coreState 0, 15)] }
    let k := 767 * (49152 * 512) + 5
    let h := { one {} with testing := [{ unit := .hbmBurst 767 5, started := true }], poisoned := [k] }
    (s.core 0).run = some 0 ∧ (s.core 0).faulted = none ∧ (s.core 0).inRecov = false ∧ (s.core 0).trap.w0.getLsbD 8 = false ∧
    (e.errors.find? fun y => y.1 == .coreState 511).map (·.2) = some 15 ∧ e.unitBusy (.coreState 511) = false ∧
    e.unitBusy (.coreState 0) = true ∧ (e.errors.find? fun y => y.1 == .coreState 0).map (·.2) = some 15 ∧
    (∀ y ∈ d.testing, ¬ (y.unit = b ∧ y.started = true)) ∧ (∃ y ∈ t.testing, y.unit = b ∧ y.started = true) ∧ t.unitBusy b = true ∧
    h.isPoisoned k = true ∧ h.protected_ k = true ∧ (∃ y ∈ h.testing, y.unit = .hbmBurst 767 5 ∧ y.started = true) ∧
    b ∈ t.lowTests ∧ t.floor < 7 ∧ j.testing = [{ x with started := true }] ∧ x.run = some 0 ∧ (j.run 0).record.w0.toNat % 512 = 256 + 31 ∧
    (∃ y ∈ j.testing, y.unit = b ∧ y.started = true) ∧ (j.run 0).cores = [0] ∧ (j.frozenCore 0).ue = some b ∧
    (j.run 0).cause = some { byCore := some (0, 7) } ∧ (j.run 0).record.w5 = 0 ∧ l.started = false ∧ z.testable l.unit = true ∧
    7 ≤ z.railPoint 2 ∧ z.tick < 200 ∧ s.testable l.unit = false ∧ { z with rails := [(2, { point := 5 })] }.railPoint 2 < 7 := by
  decide +kernel

/-- Partition 0 with a page of HBM at virtual page 0 (tile 0 of channel 0), 512 pages of host memory from virtual page 512 and a page
of device 1 at page 1024, as every translation unit holds them (12_order.md R279); core 0 in a task. -/
def mapped (k : Core) : State :=
  { one { k with inTask := true } with
    parts := [(0, { made := true, parityGroups := 1, root := some 0, vf := some 1, coreGroups := 1 })], podSize := 2,
    tlbs := (List.range 13).map fun u => (u, [(0, 0, 0x39, 1), (0, 512, 0x1000000000010019, 512), (0, 1024, 0x80000000000039, 1)]) }

theorem test_meets_FarRequests :
    let s := mapped (regs 0xFFFFFFFFFFF8 0xFFFFFFFFFFF9 0x1000000000000 0)
    s.me.inTask = true ∧ s.me.faulted = none ∧ (s.xr 1 + (0 : BitVec 32).signExtend 64).toNat < 2 ^ 48 ∧
    (s.xr 1 + (0 : BitVec 32).signExtend 64).toNat % 2 ^ (3 : BitVec 2).toNat = 0 ∧ (s.xr 1).toNat % 8 = 0 ∧
    (s.xr 2 + (0 : BitVec 32).signExtend 64).toNat % 2 ^ (1 : BitVec 2).toNat ≠ 0 ∧
    2 ^ 48 ≤ (s.xr 3 + (0 : BitVec 32).signExtend 64).toNat ∧ (s.cached (coreUnit 0) 0 (s.xr 4).toNat).isSome = true ∧
    s.cached (coreUnit 0) 0 (s.xr 1).toNat = none := by decide +kernel

theorem test_meets_FarRequests_stages :
    let at_ := fun (f : Far) => { mapped { waits := [{ what := .far 0 }] } with fars := [(0, some f)] }
    let l := at_ { kind := .load false, va := 8, size := 8, stage := .translating }
    let r := at_ { va := 0x200000, size := 8, rel := some .pod, stage := .translating }
    let x := at_ { va := 0x1000, stage := .translating, fail := some .xlate, run := some 0 }
    let u := at_ { va := 0x1000, stage := .translating }
    let p := at_ { va := 0x400000, stage := .translating }
    let w := at_ { va := 8, stage := .walking }
    l.translated (l.far 0) = some (.ok { off := 8 }) ∧ (l.far 0).rel = none ∧ ({ off := 8 } : Home).dev = l.devIndex ∧
    r.translated (r.far 0) = some (.ok { host := true, frame := 16 }) ∧ (r.far 0).rel.isSome = true ∧
    p.translated (p.far 0) = some (.ok { dev := 1 }) ∧ 1 ≠ p.devIndex ∧ (p.part 0).reach.getLsbD 1 = true ∧
    x.translated (x.far 0) = some (.error .xlate) ∧ (x.far 0).origin ≠ 32 ∧ x.farAlive (x.far 0) = true ∧
    u.translated (u.far 0) = none ∧ (l.core 0).waitsFor 0 = true ∧
    Table.get none w.fars 0 = some (w.far 0) ∧ (w.far 0).stage = .walking ∧ w.walkLeft (w.far 0) = [] ∧ (w.far 0).chan = none ∧
    (w.far 0).origin = w.devIndex ∧ (w.far 0).kind ≠ .qapp := by
  refine ⟨rfl, rfl, rfl, rfl, rfl, rfl, by decide, by decide, rfl, by decide, by decide, rfl, by decide, rfl, rfl, by decide +kernel, rfl, rfl,
    by decide⟩

theorem test_meets_FarRequests_service :
    let at_ := fun (f : Far) => { mapped { waits := [{ what := .far 0 }] } with fars := [(0, some f)] }
    let g := at_ { kind := .load true, size := 8, stage := .sent }
    let st := at_ { kind := .store, stage := .sent, host := true, frame := 16, data := [1] }
    let cut := at_ { kind := .store, stage := .sent, dev := 1, cut := true, run := some 0 }
    let am := at_ { kind := .amo, stage := .sent, handler := 31 }
    let busy := { am with cobFree := [((am.far 0).home.unit, 101)] }
    let fa := at_ { kind := .amo, stage := .sent, handler := 34, origin := 32 }
    let se := { at_ { kind := .store, stage := .sent, frame := 4 * 2 ^ 18 * 16, data := [1] } with
      hbm := [(32 * recordBurst 64 0, 1)] }
    Table.get none g.fars 0 = some (g.far 0) ∧ (g.far 0).stage = .sent ∧ (g.far 0).kind = .load true ∧
    g.homeRead 0 (g.far 0).home 8 = some (List.replicate 8 0) ∧ (g.far 0).size ≤ 8 ∧ (g.far 0).origin = g.devIndex ∧
    (st.far 0).kind = .store ∧ (st.far 0).stage ≠ .served ∧ (st.far 0).host = true ∧ (g.far 0).host = false ∧
    g.sealedTile (g.far 0).frame = false ∧ g.gone 0 = false ∧ (g.far 0).cut = false ∧
    cut.gone 0 = false ∧ (cut.far 0).cut = true ∧ (cut.far 0).stage = .sent ∧ cut.farAlive (cut.far 0) = true ∧ { g with fars := [] }.gone 0 = true ∧
    Table.get 0 am.cobFree (am.far 0).home.unit ≤ am.tick ∧ busy.tick < Table.get 0 busy.cobFree (busy.far 0).home.unit ∧ (am.far 0).kind = .amo ∧ (am.far 0).stage = .sent ∧ g.farHeld 0 (g.far 0) = false ∧
    (g.far 0).err = 0 ∧ (g.core (g.far 0).core).waitsFor 0 = true ∧ (am.far 0).handler < 32 ∧
    am.homeRead 0 { (am.far 0).home with off := (am.far 0).off / 64 * 64 } 64 = some (List.replicate 64 0) ∧
    (se.far 0).host = false ∧ se.sealedTile (se.far 0).frame = true ∧ se.unseal 0 (se.far 0).frame = none ∧
    (fa.far 0).origin = 32 ∧ fa.devIndex ≠ 32 ∧ fa.sealedTile (fa.far 0).frame = false ∧ (fa.far 0).handler = 34 := by decide +kernel

theorem test_meets_Cobblers :
    let c : Cob := { line := List.replicate 64 1 }
    let w : Cob := { line := List.replicate 64 1, wrote := true }
    let s := { mapped {} with fars := [(0, some {})], cob := some c }
    let t := { mapped {} with fars := [(0, some { host := true })], cob := some w }
    s.cob = some c ∧ c.line.length = 64 ∧ (31 : BitVec 5) ≠ 0 ∧ Table.get none s.fars c.req = some {} ∧ (s.far 0).origin = s.devIndex ∧
    c.wrote = false ∧ w.wrote = true ∧ (t.far 0).host = true ∧ Table.get none t.fars w.req = some { host := true } ∧
    (s.far 0).host = false ∧ s.sealedTile (s.far 0).frame = false ∧ 0 / 8 ≠ (c.w0 + (1 : BitVec 16).toNat) % 8 := by decide +kernel

theorem test_meets_FencesAndBarriers :
    let w : Wait := { base := 101, what := .fence .rel .pod 105 }
    let f : Wait := { base := 101, what := .fence .acqrel .system 105, flush := some 0, src := { tick := 90 } }
    let b : Wait := { base := 101, what := .barArrive 7 false }
    let c : Wait := { base := 101, what := .barArrive 7 true }
    let at_ := fun (x : Wait) => one { cyc := 100, seq := .wait, waits := [x] }
    let s := at_ w
    let t := at_ b
    let u := { at_ f with fars := [(3, some { run := some 0 })] }
    let a := { t with runs := [(0, { st := .live, cores := [0], arrived := [(7, [0])] })] }
    s.me.faulted = none ∧ s.me.waits = [w] ∧ w.ans = none ∧ w.base ≤ s.me.cyc + 1 ∧ w.what = .fence .rel .pod 105 ∧
    s.unperformed s.ctx.core w.src.tick .pod = false ∧ Scope.pod ≠ .system ∧ FenceOrd.rel ≠ .acq ∧
    (at_ f).unperformed 0 f.src.tick .system = false ∧ (at_ f).gone 0 = true ∧ { f with flush := none }.flush = none ∧
    u.unperformed u.ctx.core f.src.tick .system = true ∧ u.tick < 105 ∧ 100 ≤ u.tick ∧
    t.me.waits = [b] ∧ b.what = .barArrive 7 false ∧
    t.unperformed t.ctx.core b.src.tick .device = false ∧ t.me.run = some 0 ∧
    t.ctx.core ∉ Table.get [] (t.run 0).arrived 7 ∧ a.ctx.core ∈ Table.get [] (a.run 0).arrived 7 ∧
    (at_ c).me.waits = [c] ∧ c.what = .barArrive 7 true ∧ (t.run t.ctx.run).cores.Nodup := by decide

theorem test_meets_FencesAndBarriers_release :
    let w : Wait := { base := 101, what := .far 3 }
    let s := { one { cyc := 100, seq := .wait, waits := [w] } with
      fars := [(3, some { stage := .held, rel := some .pod, host := true, run := some 0 })] }
    s.me.waits = [w] ∧ w.ans = none ∧ w.what = .far 3 ∧ (s.far 3).stage = .held ∧ (s.far 3).kind = .store ∧ (s.far 3).rel = some .pod ∧
    s.unperformed s.ctx.core w.src.tick .pod = false ∧ (s.far 3).host = true := by decide

/-- A queue header at virtual address 0 whose packet 0 stands at 128 (12_order.md Table 12.8). -/
theorem test_meets_SharedQueues :
    let s := { mapped (regs 0x17EFC0 0 0 1) with hbm := [(0, 1), (16, 128), (24, 1), (25, 1), (27, 1), (32, 1), (4096, 64)] }
    let a := { mapped { waits := [{ what := .qapp 0 }] } with fars := [(0, some { kind := .qapp, stage := .served })] }
    let b := { mapped { waits := [{ what := .qapp 0 }] } with fars := [(0, some { kind := .qapp, stage := .sent })] }
    let d : Far := { kind := .deliver 0 3, stage := .served, h0 := 0x17EFC0, data := leBytes 8 4 ++ List.replicate 56 7 }
    let e := { mapped {} with fars := [(9, some d)] }
    let w := { s with chans := [(0, { run := some 0, script := .running })] }
    s.me.inTask = true ∧ s.me.faulted = none ∧ (s.xr 1).toNat % 64 = 0 ∧ (s.xr 1).toNat + 64 ≤ s.me.carve.scrlim ∧
    (s.xr 4).toNat % 64 ≠ 0 ∧ Table.get none a.fars 0 = some (a.far 0) ∧ (a.far 0).stage = .served ∧ (a.far 0).err = 0 ∧
    (a.core (a.far 0).core).waitsFor 0 = true ∧ (b.far 0).stage ≠ .served ∧ (b.far 0).kind ≠ .store ∧
    (b.core (b.far 0).core).waitsFor 0 = true ∧ s.delivery 0 0 = none ∧ (s.queueReady 0 0).isSome = true ∧
    w.delivery w.ctx.part w.ctx.idx = none ∧ (w.homeAt w.ctx.idx).host = false ∧
    w.windowFits ((w.homeAt w.ctx.idx).frame / 2 ^ 18) (if w.sealedTile (w.homeAt w.ctx.idx).frame then 512 else 66) = false ∧
    e.delivery 0 0 = some (9, d, 3) ∧ e.queueOpen 0 d.core d.h0.toNat = true ∧ ofLe (d.data.take 8) = (3 + 1) % 2 ^ 64 := by
  decide +kernel

theorem test_meets_StepRunsTheInstruction :
    let c : Cob := { handler := 2 }
    let h := { State.reset with parts := [(0, { handlers := [(64, 0x0C000000), (65, 0xF3200000)] })] }
    let s := { h with cob := some c }
    let e := { h with cob := some { c with pc := 32 } }
    let z := { h with cob := some { c with pc := 1 } }
    s.powered = true ∧ s.cob = some c ∧ c.pc < 32 ∧ decodeCob (s.handlerWord c.part (32 * c.handler + c.pc)) = some (.cobLdw 3 0) ∧
    e.cob = some { c with pc := 32 } ∧ decodeCob (z.handlerWord 0 65) = none ∧ State.reset.cob = none ∧
    State.reset.todo = { instr := .powerUp } :: [] ∧ { State.reset with todo := [] }.todo = [] := by decide

theorem test_meets_TickAdvances :
    let s := { State.reset with todo := [], sub := 17 }
    let t := { State.reset with todo := [], sub := 18 }
    s.powered = true ∧ s.cob = none ∧ s.todo = [] ∧ s.sub < 18 ∧ 18 ≤ t.sub ∧ t.stripe = [] := by decide

theorem test_meets_round_trips :
    (Instr.cobRet 3).kind = .cob ∧ (Instr.fetch 3 0 12).kind = .cmd ∧ (Instr.fetch 3 0 12).wf 0 = true ∧
    (3 : BitVec 7) &&& ~~~ 3 = 0 ∧ (Instr.bfx 1 2 true 63 1).kind = .syl .s ∧ (Instr.bfx 1 2 true 63 1).wf 0 = true ∧
    (Instr.zfmt 1 0x000C318C).kind = .syl .z ∧ (Instr.zfmt 1 0x000C318C).wf 0 = true ∧ Cls.z ≠ .s ∧
    (Instr.cpl ⟨6, 7, 8, some 0, none, 2048⟩).kind = .syl .c ∧ (Instr.cpl ⟨6, 7, 8, some 0, none, 2048⟩).wf 2 = true := by decide

/-- The premises of StepsKeepForm at a state with no handler in hand, whose saved context holds a byte of a pool. -/
theorem test_meets_StepsKeepForm :
    let s := { State.reset with todo := [], runs := [(0, { context := some { pool := [(5, 1)], tags := [(0, 7)] } })] }
    s.memWf = true ∧ s.tabWf = true ∧ ∃ t, step s = .next t :=
  ⟨by decide, by decide, _, rfl⟩

theorem test_meets_invariants :
    let s := { State.reset with cob := some {}, todo := [] }
    s.powered = true ∧ s.cob = some {} ∧ s.memWf = true ∧ s.tabWf = true ∧ (∃ t, step s = .next t) ∧ s.zeroWf = true := by
  refine ⟨rfl, rfl, rfl, rfl, ⟨_, rfl⟩, rfl⟩

theorem test_meets_DivisionResults :
    let s := one (regs 0x8000000000000000 0xFFFFFFFFFFFFFFFF 0 0)
    s.xr 3 = 0 ∧ s.xr 1 = 0x8000000000000000 ∧ s.xr 2 = 0xFFFFFFFFFFFFFFFF ∧ s.xr 2 ≠ 0 ∧ (31 : XReg) ≠ 0 := by decide

theorem test_meets_RdpodResults : (one {}).me.run = some 0 := by decide

theorem test_meets_PartitionRequests :
    let s : State := { boot := .up }
    let m : State := { boot := .up, parts := [(39, { made := true })] }
    let b : State := { boot := .up, parts := [(39, { made := true, vf := some 256 })] }
    let q : PartSpec := ⟨true, 1, 1, 1, false⟩
    let t : State := { boot := .up, parts := [(3, { made := true, coreGroups := 1 })] }
    s.boot = .up ∧ 39 < 40 ∧ s.liveRun 39 = false ∧ (s.part 39).made = false ∧ s.taken 39 q = false ∧ (s.part 39).frozen = false ∧
    t.taken 39 q = true ∧ t.liveRun 39 = false ∧ (t.part 39).frozen = false ∧
    (m.part 39).made = true ∧ (m.part 39).confidential = q.confidential ∧ m.taken 39 q = false ∧ (m.part 39).frozen = false ∧
    (m.part 39).vf = none ∧ m.vfPart 1 = none ∧ m.vfPart 256 = none ∧ (b.part 39).vf = some 256 ∧ 256 ≠ 1 ∧ b.vfPart 256 = some 39 ∧
    (b.part 39).frozen = false ∧ q.create = true ∧ { q with create := false }.create = false ∧ State.reset.boot ≠ .up := by decide

theorem test_meets_OwnerRequests :
    let p : Part := { made := true, vf := some 1, parityGroups := 0x8000000000000000 }
    let s : State := { boot := .up, parts := [(0, p)], sessions := [(0, some { fn := .vf 1, est := true })] }
    let r : Part := { p with rotating := some true, current := true }
    let l : Limits := { fenceLimit := none, qsendThreshold := some 4096, counterThreshold := none, expert := none, votes := none }
    s.boot = .up ∧ s.owns (.vf 1) 0 = true ∧ s.owns (.vf 2) 0 = false ∧ (s.part 0).open' = true ∧
    511 < 512 ∧ 0x1000 % 128 = 0 ∧ (16 : Nat) ≠ 0 ∧ 256 ≤ 256 ∧ 63 < 64 ∧ (Table.get (0, 0, 0) (s.part 0).mcast 63).1 = 0 ∧
    s.tick / 80 < 1 ∧ (Table.get {} s.planes 3).start = none ∧ 11000 ≤ 11000 ∧ 1100000 ≤ 1100000 ∧ 767 < 768 ∧ 12191 < 12192 ∧
    (∀ n, l.qsendThreshold = some n → 128 ≤ n ∧ n ≤ 4096) ∧ 127 < 128 ∧ 4096 < 4097 ∧ s.liveRun 0 = false ∧ (s.part 0).frozen = false ∧
    [7, 0, 7, 7].length = 4 ∧ (∀ x ∈ [7, 0, 7, 7], x ≤ 7) ∧ r.resealing = true ∧ (s.part 0).resealing = false ∧
    (s.part 0).parityGroups.getLsbD (767 % 64) = true ∧ s.runs = [] ∧ (s.part 0).confidential = false ∧ (s.part 0).rotating = none ∧
    r.rotating.isSome = true ∧ s.session (.vf 1) = true ∧ (allotment (s.part 0).parityGroups).length ≠ 0 := by
  refine ⟨rfl, by decide, by decide, by decide, by decide, by decide, by decide, by decide, by decide, by decide, by decide, by decide, by decide,
    by decide, by decide, by decide, ?_, by decide, by decide, by decide, by decide, rfl, by decide, by decide, by decide, by decide, rfl, rfl,
    rfl, rfl, by decide, by decide +kernel⟩
  intro n h
  cases h
  omega

/-- A page table in host page 16, every level in that one page: page 0 is host page 16, page 1 tile 0 of channel 0. -/
theorem test_meets_OwnerRequests_migrations :
    let s : State := { boot := .up, host := [(0x10000, 1), (0x10002, 1), (0x10007, 0x10), (0x10008, 0x39)],
                       parts := [(0, { made := true, vf := some 1, parityGroups := 1, root := some 0x1000000000010000 })] }
    (s.leafOf 0 0x1000).map (fun e => (e.1, e.2.1)) = some (0x39, 1) ∧
    (s.leafOf 0 0).map (fun e => (e.1, e.2.1)) = some (0x1000000000010001, 1) ∧
    pteHost 0x39 = false ∧ pteDev 0x39 = s.devIndex ∧ 0x40000 % 4096 = 0 ∧ s.pinned 0 0 = false ∧
    pteHost 0x1000000000010001 = true ∧ s.frameOk 0 195071 1 = true ∧ s.pinned 0 (195071 / 16) = false := by
  decide +kernel

theorem test_meets_OwnerRequests_table :
    (List.replicate 1024 (0 : W32)).length = 1024 ∧ (List.replicate 1023 (0 : W32)).length ≠ 1024 :=
  ⟨List.length_replicate, by rw [List.length_replicate]; decide⟩

/-- A racking table of one row that reaches the next device of two by every lane of set 0. -/
theorem test_meets_OwnerRequests_rack :
    let img : List Byte := [1, 0, 1, 2, 9, 0, 0, 0, 1] ++ List.replicate 55 0 ++ (List.range 64).map fun i => if i % 16 = 0 then 1 else 0
    img ≠ [] ∧ badRack 1 img = false := by decide +kernel

theorem test_meets_KeysAndInterfaces :
    let st := fun (p : Part) => ({ boot := .up, parts := [(0, { p with made := true, vf := some 1, confidential := true })],
                                   ctx := { fn := .vf 1, vf := 1 },
                                   sessions := [(0, some { fn := .vf 1, est := true })] } : State)
    let a := st { rotating := some true }
    let b := st {}
    b.boot = .up ∧ a.moving 0 = false ∧ { a with fars := [(0, some { kind := .move {} })] }.moving 0 = true ∧ State.reset.boot ≠ .up ∧
    (a.part a.ctx.part).rotating = some true ∧ a.tilesUnder 0 0 = [] ∧ (b.part 0).rotating = none ∧ b.owns b.ctx.fn 0 = true ∧
    b.session b.ctx.fn = true ∧ (b.part 0).confidential = true ∧ (b.part 0).tdi = .unlocked ∧ { b with sessions := [] }.session b.ctx.fn = false ∧
    ((st { tdi := .locked }).part 0).tdi = .locked ∧ ((st { tdi := .run }).part 0).tdi = .run ∧
    ((st { tdi := .error }).part 0).tdi = .error ∧ b.vfPart b.ctx.vf = some 0 := by decide

/-- Tile 0 of channel 64 is sealed under register 1, which is empty; in a latch it waits. -/
theorem test_meets_KeysAndInterfaces_scan :
    let k := 32 * recordBurst 64 0
    let s : State := { parts := [(0, { made := true, parityGroups := 1, rotating := some false })], hbm := [(k + 20, 1)] }
    let w := { s with chans := [(64, { latches := [(0, { st := .read })] })] }
    (s.part s.ctx.part).rotating = some false ∧ s.tilesUnder 0 (2 * 0 + (!false).toNat) = [64 * 2 ^ 18] ∧
    s.resealWaits (64 * 2 ^ 18) = false ∧ s.unseal 0 (64 * 2 ^ 18) = none ∧ w.resealWaits (64 * 2 ^ 18) = true ∧
    w.tilesUnder 0 1 = [64 * 2 ^ 18] := by decide +kernel

/-- The tag of a tile of zeros, tile 0 of channel 64, at version 0 under register 1 of partition 0, which holds 7. -/
def tagBytes : List Byte :=
  gcmTag 7 (leBytes 8 (64 * 2 ^ 18) ++ leBytes 4 0) (leBytes 8 (64 * 2 ^ 18) ++ [1]) (List.replicate 4096 0)

theorem tagBytes_length : tagBytes.length = 16 := by decide +kernel

theorem readFrom_low (v : Byte) (r : Memory) (k : Nat) : ∀ n a, a + n ≤ k → Memory.readFrom n a ((k, v) :: r) = List.replicate n 0 := by
  intro n
  induction n with
  | zero => intro _ _; rfl
  | succ n ih =>
    intro a h
    rw [Memory.readFrom, if_neg (by omega), ih _ (by omega), List.replicate_succ]

/-- That tile with its record, whose tag is `t`. -/
def sealedAt (t : List Byte) : State :=
  { parts := [(0, { made := true, parityGroups := 1, rotating := some false, key1 := some 7 })],
    hbm := ((List.range 16).map fun i => (32 * recordBurst 64 0 + i, t.getD i 0)) ++ [(32 * recordBurst 64 0 + 20, 1)] }

theorem sealedAt_record (t : List Byte) (h : t.length = 16) :
    (sealedAt t).burst (recordBurst 64 0) = t ++ [0, 0, 0, 0, 1, 0, 0, 0, 0, 0, 0, 0, 0, 0, 0, 0] := by
  match t, h with
  | [b0, b1, b2, b3, b4, b5, b6, b7, b8, b9, b10, b11, b12, b13, b14, b15], _ => rfl

theorem sealedAt_bytes (t : List Byte) :
    (sealedAt t).homeBytes { dev := 0, frame := 64 * 2 ^ 18 } 4096 = List.replicate 4096 0 := by
  have hb : ∀ i ∈ List.range 128, (sealedAt t).burst (tileBurst 64 0 (0 / 32 + i)) = List.replicate 32 0 := by
    intro i hi
    have hi := List.mem_range.mp hi
    have hk : 32 * tileBurst 64 0 (0 / 32 + i) + 32 ≤ 32 * recordBurst 64 0 := by
      simp only [tileBurst, recordBurst, burstKey]; omega
    have hh : (sealedAt t).hbm = (32 * recordBurst 64 0, t.getD 0 0) :: (sealedAt t).hbm.tail := rfl
    show Memory.readFrom 32 _ ((sealedAt t).hbm.dropWhile _) = _
    rw [hh, List.dropWhile_cons_of_neg (by simp only [decide_eq_true_eq]; omega), readFrom_low _ _ _ _ _ hk]
  have hl : (List.flatMap (fun i => (sealedAt t).burst (tileBurst 64 0 (0 / 32 + i))) (List.range 128)) = List.replicate 4096 0 := by
    rw [List.flatMap_def, List.map_congr_left hb, List.eq_replicate_iff]
    refine ⟨by rw [List.length_flatten]; decide +kernel, fun b h => ?_⟩
    obtain ⟨l, hl, hb⟩ := List.mem_flatten.mp h
    obtain ⟨_, _, rfl⟩ := List.mem_map.mp hl
    exact List.eq_of_mem_replicate hb
  unfold State.homeBytes
  rw [if_neg (by decide), if_pos (by rfl)]
  show ((List.flatMap (fun i => (sealedAt t).burst (tileBurst 64 0 (0 / 32 + i))) (List.range 128)).drop 0).take 4096 = _
  rw [hl, List.drop_zero, List.take_replicate, Nat.min_self]

theorem openTile_some (s : State) (part cn tile : Nat) (rec_ cipher : List Byte) (key : BitVec 256)
    (hs : (rec_.getD 20 0).toNat = 2 * part + 1) (hp : part < 63) (h0 : (rec_.drop 21).any (· != 0) = false)
    (hk : (s.part part).key1 = some key)
    (ht : gcmTag key (leBytes 8 (cn * 2 ^ 18 + tile) ++ (rec_.drop 16).take 4) (leBytes 8 (cn * 2 ^ 18 + tile) ++ [BitVec.ofNat 8 (2 * part + 1)])
      cipher = rec_.take 16) : (s.openTile part cn tile rec_ cipher).isSome = true := by
  unfold State.openTile
  simp only [hs, h0, Bool.or_false]
  rw [if_neg (by simp; omega), if_pos (by omega), hk]
  simp only [ht, if_true, Option.isSome_some]

theorem sealedAt_opens : ((sealedAt tagBytes).unseal 0 (64 * 2 ^ 18)).isSome = true := by
  unfold State.unseal
  rw [show (sealedAt tagBytes).devIndex = 0 from rfl, sealedAt_bytes]
  have hr := sealedAt_record tagBytes tagBytes_length
  have hd : ∀ n l, (tagBytes ++ l).drop (16 + n) = l.drop n := fun n l => by
    rw [← tagBytes_length, List.drop_length_add_append]
  refine openTile_some _ _ _ _ _ _ 7 ?_ (by decide) ?_ rfl ?_
  all_goals rw [show recordBurst (64 * 2 ^ 18 / 2 ^ 18) (64 * 2 ^ 18 % 2 ^ 18) = recordBurst 64 0 from rfl, hr]
  · rw [List.getD_append_right _ _ _ _ (by rw [tagBytes_length]; decide), tagBytes_length]; rfl
  · rw [hd 5]; rfl
  · rw [hd 0, List.take_left' tagBytes_length]; rfl

/-- It opens, and is the one tile left to reseal. -/
theorem test_meets_KeysAndInterfaces_sealed :
    let s := sealedAt tagBytes
    (s.part s.ctx.part).rotating = some false ∧ (s.unseal 0 (64 * 2 ^ 18)).isSome = true ∧
    s.tilesUnder 0 (2 * 0 + (!false).toNat) = [64 * 2 ^ 18] ∧ s.resealWaits (64 * 2 ^ 18) = false := by
  intro s
  have hr := sealedAt_record tagBytes tagBytes_length
  have hs : s.sealedTile (64 * 2 ^ 18) = true := by
    show (true && (s.burst (recordBurst 64 0)).any (· != 0)) = true
    rw [hr, List.any_append]; simp
  refine ⟨rfl, sealedAt_opens, ?_, by decide +kernel⟩
  have hf : ∀ l : List Nat, l = [64 * 2 ^ 18] →
      (l.filter fun f => decide (f % 2 ^ 18 < Config.tiles) && s.sealedTile f && ((s.record f).getD 20 0).toNat == 1) = [64 * 2 ^ 18] := by
    rintro _ rfl
    rw [List.filter_cons_of_pos, List.filter_nil]
    have h20 : (s.record (64 * 2 ^ 18)).getD 20 0 = 1 := rfl
    rw [hs, h20]
    rfl
  unfold State.tilesUnder
  exact hf _ (by decide +kernel)

theorem test_meets_Attestation :
    let q : Session := { est := true }
    let s : State := { boot := .up, spdm := [(.pf0, 3)], sessions := [(0, some q)] }
    let m : State := { s with sessions := [] }
    let r : State := { s with ctx := { session := 64 }, laneSets := [(13, { keyFrom := 0, flip := some 5 })] }
    { s with sessions := [] }.openSessions < 64 ∧ (m.ide = [] ∧ Table.get none m.ide 64 = none) ∧
    Table.get none { s with ide := [(3, some (.pf0, 9))] }.ide 3 = some (.pf0, 9) ∧ (∀ r, m.sessionAt 0 = some r → r.fn ≠ m.ctx.fn ∨ r.est = false) ∧
    s.boot = .up ∧ 1 ≤ s.spdmAt ∧ 2 ≤ s.spdmAt ∧ 3 ≤ s.spdmAt ∧ { s with sessions := [] }.sessions = [] ∧
    { s with spdm := [] }.spdmAt = 0 ∧ s.sessionAt s.ctx.session = some q ∧ q.fn = s.ctx.fn ∧ q.est = true ∧ 63 < 64 ∧
    64 ≤ r.ctx.session ∧ (r.laneSet 13).keyFrom = r.ctx.session - 64 ∧ (r.laneSet 13).flip = some 5 ∧ 64 ≤ 64 ∧ 1 ≠ s.devIndex := by
  refine ⟨by decide, ⟨rfl, rfl⟩, by decide, ?_, rfl, ?_⟩
  · intro r h; cases h
  · decide

/-- A peer as this device's requester and responder sees it: what it waits for, with a chain's digest that fits or does not, and 64
sessions that are open. -/
theorem test_meets_Attestation_peers :
    let c : List Byte := [7]
    let at_ := fun (q : Peer) => ({ boot := .up, peers := [(1, q)] } : State)
    let w := at_ { stage := 0x82, digest := Config.sha3 c }
    let v := at_ { stage := 0x82, digest := 0 :: Config.sha3 c }
    let o := at_ { heardAt := 3 }
    let f : State := { boot := .up, peers := [(1, { heardAt := 3 })], sessions := (List.range 64).map fun i => (i, some {}) }
    (w.peer 1).stage = 0x82 ∧ Config.sha3 c = (w.peer 1).digest ∧ Config.sha3 c ≠ (v.peer 1).digest ∧ 3 ≤ (o.peer 1).heardAt ∧
    (o.peer 1).stage = 0 ∧ (w.peer 2).heardAt < 3 ∧ (0x61 ≠ (w.peer 1).stage - 0x80 ∧ 0x61 ≠ 0x7F) ∧ 0x61 < 0x80 ∧
    ((at_ { stage := 0xE4 }).peer 1).stage = 0xE4 ∧ ((at_ { stage := 0xE5 }).peer 1).stage = 0xE5 ∧ (w.peer 1).stage ≠ 0 ∧
    64 ≤ f.openSessions ∧ 1 ≠ w.devIndex := by
  refine ⟨by decide, rfl, fun h => ?_, by decide, by decide, by decide, by decide, by decide, by decide, by decide, by decide,
    by decide +kernel, by decide⟩
  exact absurd (congrArg List.length h) (by simp [State.peer, Table.get])

/-- A requester at each later stage; one with a session to every peer present, as the lowest of two devices, whose time has come; a lane
set whose next key is to come, and sets without one. -/
theorem test_meets_Attestation_requester :
    let at_ := fun (n : Nat) => ({ boot := .up, podSize := 2, peers := [(1, { stage := n })] } : State)
    let h := { at_ 0 with peerSessions := [1], ctx := { session := 65, idx := 1 } }
    ((at_ 0x83).peer 1).stage = 0x83 ∧ ((at_ 0xE0).peer 1).stage = 0xE0 ∧ ((at_ 0xEC).peer 1).stage = 0xEC ∧
    ((at_ 0xE8).peer 1).stage = 0xE8 ∧ ((at_ 0xE9).peer 1).stage = 0xE9 ∧
    ((at_ 0xE5).peer 1).stage = 0xE5 ∧
    ((at_ 0xE5).laneSet 13).flip = none ∧ h.ctx.idx = 1 ∧ h.ctx.session - 64 ∈ h.peerSessions ∧ (h.peer (h.ctx.session - 64)).stage = 0 ∧
    h.ctx.session - 64 ≠ h.devIndex ∧ (at_ 0).ctx.idx ≠ 1 := by decide

theorem test_meets_Attestation_lowest :
    let s : State := { boot := .up, podSize := 2 }
    ∀ e < 32, s.present e = true → e ≠ s.devIndex → s.devIndex < e ∧ (e = 1 ∨ e ∈ s.peerSessions) := by decide

/-- The verify data fit, or do not; 64 sessions; the interface of a virtual function in RUN. -/
theorem test_meets_Attestation_sessions :
    let q : Session := { est := true, secret := [1] }
    let v := Config.finishData q.secret (Config.sha3 [])
    let s := fun (l : List Byte) => ({ boot := .up, sessions := [(0, some q)], ctx := { verify := l } } : State)
    let full : State := { boot := .up, sessions := (List.range 64).map fun i => (i, some {}) }
    let r : Session := { fn := .vf 1, est := true }
    let f : State := { boot := .up, sessions := [(0, some r)], ctx := { fn := .vf 1 }, ide := [(3, some (.vf 1, 5))],
                       parts := [(0, { made := true, vf := some 1, confidential := true, tdi := .run })] }
    let g : State := { f with ctx := {}, sessions := [(0, some { est := true })] }
    (s v).ctx.verify = Config.finishData q.secret (Config.sha3 (s v).transcript) ∧
    (s (0 :: v)).ctx.verify ≠ Config.finishData q.secret (Config.sha3 (s (0 :: v)).transcript) ∧
    (s v).sessionAt (s v).ctx.session = some q ∧ q.fn = (s v).ctx.fn ∧
    (∀ n < 64, (full.sessionAt n).isSome = true) ∧ 64 ≤ full.openSessions ∧ Table.get none f.ide 3 = some (.vf 1, 5) ∧
    (f.part 0).tdi ≠ .unlocked ∧ g.ctx.fn ≠ .vf 1 ∧ g.sessionAt 0 = some { est := true } ∧ Table.get none g.ide 3 = some (.vf 1, 5) ∧
    f.sessionAt 0 = some r ∧ r.fn = f.ctx.fn ∧ r.est = true ∧ f.vfPart 1 = some 0 ∧ (f.part 0).tdi = .run ∧ (f.part 0).confidential = true := by
  refine ⟨rfl, fun h => ?_, rfl, rfl, by decide +kernel, by decide +kernel, rfl, by decide, by decide, rfl, rfl, rfl, rfl, rfl, by decide,
    by decide, by decide⟩
  have := congrArg List.length h
  exact absurd this (Nat.succ_ne_self _)

theorem test_meets_PowerAndBoot_mailbox :
    State.reset.powered = true ∧ State.reset.boot = .off ∧ { State.reset with boot := .stopped 2 }.boot = .stopped 2 := ⟨rfl, rfl, rfl⟩

theorem test_meets_PowerAndBoot : State.reset.inbox.all (fun d => d.work.instr != .powerUp) = true ∧ State.reset.badConfig = true ∧
    State.reset.ctx.idx ≠ 1 ∧ { State.reset with ctx := { idx := 1 } }.ctx.idx = 1 := by
  decide +kernel

/-- A last of partition 0 for core group 0 with the given bytes of T0, at virtual address 0x200000 (host page 16), whose task
tables hold END alone. -/
def lastAt (t0 : List (Nat × Byte)) : State :=
  { mapped {} with
    cores := [], runs := [], ctx := { vf := 1 }, host := (0x10000, 1) :: t0 ++ [(0x10010, 1), (0x10021, 0x10), (0x10022, 0x20)],
    vfs := [(1, { lqTail := 1, entries := [(0, some (0x200000, 7, false))] })] }

theorem test_meets_LaunchQueue :
    let s := { lastAt [] with cores := [(0, { run := some 0, inTask := true })], runs := [(0, { st := .live })] }
    let q := s.vf 1
    s.me.inTask = true ∧ s.me.faulted = none ∧ (s.part (s.partOf s.ctx.core)).vf = some 1 ∧ { s with ctx := { idx := 1 } }.ctx.idx ≠ 0 ∧
    s.ctx.idx = 0 ∧ { s with ctx := { req := 8 } }.ctx.req % 64 ≠ 0 ∧ 0x200000 % 64 = 0 ∧ (s.readVirt 0 2 0x200000 256).isSome = true ∧
    { s with ctx := { req := 0x300000000 } }.readVirt 0 2 0x300000000 256 = none ∧
    ({ s with parts := [] }.part ({ s with parts := [] }.partOf s.ctx.core)).vf = none ∧ (bits (3 : BitVec 64) 0 5).toNat < 4 ∧
    (q.lqTail - q.lqHead).toNat < 2 ^ q.n ∧ q.lqHead ≠ q.lqTail ∧ q.room = true ∧ q.waiting = [] ∧
    2 ^ ({ q with lqTail := 16 } : Vf).n ≤ (({ q with lqTail := 16 } : Vf).lqTail - q.lqHead).toNat ∧ s.boot = .up ∧
    (bits (16 : W32) 0 16 - q.lqHead).toNat ≤ 2 ^ q.n ∧ 2 ^ q.n < (bits (17 : W32) 0 16 - q.lqHead).toNat ∧
    (0x1000 : BitVec 64).toNat % 4096 = 0 ∧ 4 ≤ (bits (0xFEC : BitVec 64) 0 5).toNat ∧ (bits (0xFEC : BitVec 64) 0 5).toNat ≤ 12 ∧
    12 < (bits (13 : BitVec 64) 0 5).toNat ∧ 4095 < 4096 ∧ State.reset.boot ≠ .up := by decide +kernel

theorem test_meets_LaunchQueue_refused :
    let s := lastAt []
    let u := s.modVf 1 fun q => { q with lqHead := q.lqHead + 1, dues := q.dues.drop 1 }
    let n := { lastAt [] with parts := [] }
    (s.vf 1).entry 0 = (0x200000, 7, false) ∧ u.vfPart 1 = some 0 ∧ n.vfPart 1 = none ∧
    (((s.vf 1).dues.drop 1).head?.any fun t => decide (t ≤ s.tick)) = false ∧ u.readVirt 0 2 0x300000000 256 = none ∧
    (u.readVirt 0 2 0x200000 256).map (u.statuses 0 0x200000) = some [9] := by decide +kernel

theorem test_meets_LaunchQueue_accepted :
    let s := lastAt [(0x1000A, 0xF)]
    let u := s.modVf 1 fun q => { q with lqHead := q.lqHead + 1, dues := q.dues.drop 1 }
    (u.readVirt 0 2 0x200000 256).map (u.statuses 0 0x200000) = some [] := by decide +kernel

/-! ## Single steps, with results taken from the specification's examples -/

/-- The updates that a step leaves pending, and the cycle each is due. -/
def left (o : Out) : List (Nat × Upd) :=
  match o with
  | .next t => t.pend.map fun w => (w.due, w.upd)
  | _ => []

/-- The fault code in a core's trap record after a step. -/
def trapped (o : Out) (c : Nat) : Nat :=
  match o with
  | .next t => (t.core c).trap.w0.toNat % 256
  | _ => 0

/-- The bytes that a vector result writes, from byte `a` on. -/
def vecBytes (o : Out) (a n : Nat) : List (Option Byte) :=
  match left o with
  | (_, .pool _ _ bs _) :: _ => (bs.drop a).take n
  | _ => []

/-- The flags of FPSTAT that a step adds, with their cycle. -/
def flagsOf (o : Out) : List (Nat × BitVec 6) :=
  (left o).filterMap fun e => match e.2 with
    | .flags _ f => some (e.1, f)
    | _ => none

/-- 05_registers.md, the carve of partition word 0x0002A48B. -/
theorem test_carve :
    let c := carveOf 0x0002A48B
    c.v = 64 ∧ c.n = 16 ∧ c.t = 8 ∧ c.a = 2 ∧ c.prot = true ∧ c.s = 2 ∧ c.vb = 0x17C000 ∧ c.tb = 0x15C000 ∧ c.ab = 0x13C000 ∧
    c.sb = 0x134000 ∧ c.scrlim = 0x132000 := by decide

/-- 05_registers.md, v50 and p9 with RRB 29. -/
theorem test_rotation :
    let k : Core := { carve := carveOf 0x0002A48B, rrb := 29 }
    k.vaddr 50 = 0x17FF00 ∧ k.pphys 9 = 14 := by decide

/-- 05_registers.md, LD of byte 0x132000 raises POOL_BOUNDS (16_faults.md Table 16.1), LD of byte 0x131FFF is legal. -/
theorem test_ld_scratch :
    let s := one { regs 0x132000 0x131FFF 0 0 with carve := carveOf 0x0002A48B }
    trapped (exec (.ld 5 1 false 0 0) s) 0 = 0x10 ∧ left (exec (.ld 5 2 false 0 0) s) = [(103, .x 0 5 0)] := by decide

/-- 05_registers.md R143, 0x123456789ABCDEF0 in two bundles. -/
theorem test_li : left (exec (.li 5 true 0x9ABCDEF0) (one { cyc := 20 })) = [(20, .x 0 5 0x9ABCDEF0)] := by decide
theorem test_lih :
    left (exec (.lih 5 0x12345678) (one { x := [(5, 0x9ABCDEF0)], cyc := 21 })) = [(21, .x 0 5 0x123456789ABCDEF0)] := by decide

/-- 05_registers.md R141: −7 by 2 gives −3 and −1; 100 by 0 gives all ones and DIV0. -/
theorem test_div_signed :
    left (exec (.div 12 1 2 false) (one (regs (-7) 2 0 0))) = [(119, .x 0 12 (-3))] ∧
    left (exec (.rem 12 1 2 false) (one (regs (-7) 2 0 0))) = [(119, .x 0 12 (-1))] := by decide
theorem test_div_zero :
    left (exec (.div 12 1 3 true) (one (regs 100 2 0 0))) = [(100, .stat 0 2), (119, .x 0 12 0xFFFFFFFFFFFFFFFF)] := by decide

/-- 02_bundles.md R56: every lane gets v4's lane plus the 7 that x5 held before. -/
theorem test_iadd_broadcast :
    vecBytes (exec (.iadd ⟨.i32, 3, 4, .x 5, 0⟩) { one { x := [(5, 7)], cyc := 40 } with pool := [(0x17F404, 3)] }) 0 8 =
      [some 7, some 0, some 0, some 0, some 10, some 0, some 0, some 0] := by decide +kernel

/-- 06_vector.md's bundle: 0.3, 300.0, NaN and 1.0 in v6. -/
def lanesV6 : State :=
  { one { cyc := 100 } with pool := [(0x17F600, 0x9A), (0x17F601, 0x99), (0x17F602, 0x99), (0x17F603, 0x3E), (0x17F606, 0x96),
      (0x17F607, 0x43), (0x17F60A, 0xC0), (0x17F60B, 0x7F), (0x17F60E, 0x80), (0x17F60F, 0x3F)] }

theorem test_cvt_sat :
    vecBytes (exec (.cvt ⟨.f32, .fta, true, false, 5, 6, 1, 0⟩) lanesV6) 64 4 = [some 0x32, some 0x7F, some 0x80, some 0x40] ∧
    vecBytes (exec (.cvt ⟨.f32, .fta, true, false, 5, 6, 1, 0⟩) lanesV6) 63 1 = [none] := by decide +kernel
theorem test_cvt_unsaturated :
    vecBytes (exec (.cvt ⟨.f32, .fta, false, false, 5, 6, 1, 0⟩) lanesV6) 65 1 = [some 0x80] := by decide +kernel

/-- 03_numbers.md: FRCP of 3.0 is 0x3EAAAAAB. -/
theorem test_frcp :
    vecBytes (exec (.frcp ⟨.f32, 1, 2, 0⟩) { one {} with pool := [(0x17F202, 0x40), (0x17F203, 0x40)] }) 0 4 =
      [some 0xAB, some 0xAA, some 0xAA, some 0x3E] := by decide +kernel

/-- 03_numbers.md, 06_vector.md: 2^24, 1, 1, −2^24 in v2: the sum is 1.0, the scan 2^24, 2^24, 2^24, +0. -/
def lanesV2 : State :=
  { one { q := [(1, 0xF)] } with pool := [(0x17F202, 0x80), (0x17F203, 0x4B), (0x17F206, 0x80), (0x17F207, 0x3F), (0x17F20A, 0x80), (0x17F20B, 0x3F),
      (0x17F20E, 0x80), (0x17F20F, 0xCB)] }

theorem test_rsum : vecBytes (exec (.rsum ⟨.f32, 1, 2, 0⟩) lanesV2) 0 4 = [some 0, some 0, some 0x80, some 0x3F] := by decide +kernel
theorem test_scan :
    vecBytes (exec (.scan ⟨.f32, 1, 2, 1⟩) lanesV2) 8 8 = [some 0, some 0, some 0x80, some 0x4B, some 0, some 0, some 0, some 0] := by
  decide +kernel

/-- 12_order.md R290: a word that holds 10 becomes 11, and xd receives 10. -/
theorem test_amol :
    left (exec (.amol .add 5 1 2 true 0) { one (regs 0x200 1 0 0) with pool := [(0x200, 10)] }) =
      [(100, .amol 0 0x200 (someBytes (leBytes 8 11)) 0), (103, .x 0 5 10)] := by decide

/-- 16_faults.md and 18_prog_rings.md: words 0 of a breakpoint's record and of two cause records. -/
theorem test_trap_words :
    trapWord0 0x25 true false 0 0 0x40 1 false false = 0x0000800100000325 ∧
    trapWord0 0x1B false true 0 0 0x47 0 false false = 0x00008E000002011B ∧
    trapWord0 0x1E false true 3 7 0 0 false false = 0x0000000000027D1E := by decide

/-- 00_scope.md: sixteen hops and one and the die step, 23. -/
theorem test_hops : hops 0x013 0x112 = 23 := by decide

/-- 06_vector.md R180 to R183: SPUSH of the 32 odd lanes appends 128 bytes; with 128 bytes SCNT reads 32. -/
theorem test_spush :
    (left (exec (.spush .i32 1 0 1)
      { one { q := [(1, BitVec.ofNat 256 0xAAAAAAAAAAAAAAAA)], cyc := 20 } with pool := [(0x17F104, 1)] })).getLast? =
      some (20, .stream 0 0 0 128) := by decide +kernel
theorem test_scnt : left (exec (.scnt .i32 4 0 0) (one { streams := [(0, (0, 128))], cyc := 21 })) = [(21, .x 0 4 32)] := by decide

/-- 12_order.md R294, R295: handler 2's compare and its skip. -/
theorem test_cobbler :
    (match exec (.cobSkipF 1) { mapped {} with cob := some { pc := 2 } } with
     | .next t => t.cob.map (·.pc)
     | _ => none) = some 4 := by decide

/-- After reset the device boots first: the one step to do is POWER_UP (19_host.md R406). -/
theorem test_reset_boots : State.reset.todo.map (·.instr) = [.powerUp] := by decide

/-- A command placed by `withFetchWord` runs in the very next step. -/
theorem test_withFetchWord :
    (match step (State.reset.withFetchWord 32 0x0C000000) with
     | .next t => t.cob.map (·.pc)
     | _ => none) = some 1 := by decide

end Sys2Proof.Tests
end

section
namespace Sys2Proof

/-! ## Entries of a table -/

/-- An entry of a table after a put is the one put, or stood there. -/
theorem Table.eq_or_mem_of_mem_put {α : Type} (m : Table α) (k : Nat) (v : α) {e : Nat × α} (h : e ∈ Table.put m k v) :
    e = (k, v) ∨ e ∈ m := by
  induction m with
  | nil => exact .inl (List.mem_singleton.1 h)
  | cons x r ih =>
    obtain ⟨j, w⟩ := x
    unfold Table.put at h
    split at h
    · exact List.mem_cons.1 h
    · split at h
      · exact (List.mem_cons.1 h).imp_right (List.mem_cons_of_mem _)
      · obtain rfl | h := List.mem_cons.1 h
        · exact .inr List.mem_cons_self
        · exact (ih h).imp_right (List.mem_cons_of_mem _)

/-- What a table gives for a number is the default or listed under that number. -/
theorem Table.get_eq_or_mem {α : Type} (d : α) (m : Table α) (k : Nat) : Table.get d m k = d ∨ (k, Table.get d m k) ∈ m := by
  induction m with
  | nil => exact .inl rfl
  | cons x r ih =>
    obtain ⟨j, w⟩ := x
    unfold Table.get
    split
    · subst_vars
      exact .inr List.mem_cons_self
    · exact ih.imp_right (List.mem_cons_of_mem _)

end Sys2Proof

namespace Sys2Proof.Machine

/-! ## Folds over units -/

/-- What every step of a fold keeps the fold keeps. -/
theorem foldl_keeps {σ α β : Type} (g : σ → β) {f : σ → α → σ} (h : ∀ s a, g (f s a) = g s) (l : List α) (s : σ) :
    g (l.foldl f s) = g s := by
  induction l generalizing s with
  | nil => rfl
  | cons a l ih => exact (ih _).trans (h s a)

/-- A core that is not in the list stays as it is. -/
theorem State.core_foldl_modCore_of_not_mem (f : State → Nat → Core → Core) {c : Nat} {cs : List Nat} (hc : c ∉ cs) (s : State) :
    (cs.foldl (fun s c => s.modCore c (f s c)) s).core c = s.core c := by
  induction cs generalizing s with
  | nil => rfl
  | cons d ds ih =>
    obtain ⟨hd, hds⟩ := List.ne_and_not_mem_of_not_mem_cons hc
    exact (ih hds _).trans (s.core_modCore_ne _ hd)

/-- Every core of the list has what the change gives any core. -/
theorem State.core_foldl_modCore {f : State → Nat → Core → Core} {P : Core → Prop} {c : Nat} (h : ∀ s k, P (f s c k))
    {cs : List Nat} (hc : c ∈ cs) (s : State) : P ((cs.foldl (fun s c => s.modCore c (f s c)) s).core c) := by
  induction cs generalizing s with
  | nil => exact absurd hc List.not_mem_nil
  | cons d ds ih =>
    by_cases hds : c ∈ ds
    · exact ih hds _
    · obtain rfl : c = d := (List.mem_cons.1 hc).resolve_right hds
      rw [List.foldl_cons, State.core_foldl_modCore_of_not_mem f hds, State.core_modCore_same]
      exact h _ _

/-- A core is what the table of cores holds, a run what the table of runs holds. -/
theorem State.core_eq {s t : State} (h : t.cores = s.cores) (c : Nat) : t.core c = s.core c := by
  simp only [State.core, h]
theorem State.run_eq {s t : State} (h : t.runs = s.runs) (r : Nat) : t.run r = s.run r := by
  simp only [State.run, h]

/-! ## Posting, and freed cores -/

@[simp] theorem State.post_runs (s : State) (v : Nat) (e : List Byte) : (s.post v e).runs = s.runs := by
  unfold State.post
  split <;> rfl
@[simp] theorem State.post_cores (s : State) (v : Nat) (e : List Byte) : (s.post v e).cores = s.cores := by
  unfold State.post
  split <;> rfl

/-- A run entry is posted: the run is as it was set before. -/
theorem State.run_post_modRun (s : State) (r v : Nat) (f : Run → Run) (e : List Byte) :
    ((s.modRun r f).post v e).run r = f (s.run r) :=
  (State.run_eq (State.post_runs _ _ _) r).trans (s.run_modRun_same r f)

/-- A freed core is in no run. -/
theorem State.freeCores_run (s : State) {c : Nat} {cs : List Nat} (hc : c ∈ cs) : ((s.freeCores cs).core c).run = none :=
  State.core_foldl_modCore (P := fun k => k.run = none) (fun _ _ => rfl) hc _

/-! ## The start of a run -/

/-- The run goes live with TB at T0; nothing but the run, its partition, its cores and the list of steps changes, and each of its
cores is as `Core.atT0` leaves it, with the partition's NCAP. -/
theorem execRunStart_armed {s : State} (h : (s.run s.ctx.run).st = .armed) :
    ∃ t, execRunStart s = .next t ∧ t.run s.ctx.run = { s.run s.ctx.run with
        st := .live, tb := (s.run s.ctx.run).last.t0, endTick := (s.run s.ctx.run).last.t0 } ∧
      t.pool = s.pool ∧ t.hbm = s.hbm ∧
      ∀ c ∈ (s.run s.ctx.run).cores, ∃ k n, t.core c =
        { Core.atT0 k c s.ctx.run (s.run s.ctx.run).last with ncap := n } := by
  unfold execRunStart
  rw [if_neg (by simp [h])]
  refine ⟨_, rfl, ?_, ?_, ?_, fun c hc => ?_⟩
  · refine (State.run_eq (foldl_keeps State.runs (by intros; rfl) _ _) _).trans ?_
    simp [State.run]
  · exact foldl_keeps State.pool (by intros; rfl) _ _
  · exact foldl_keeps State.hbm (by intros; rfl) _ _
  · exact State.core_foldl_modCore (f := fun t c k => { k.atT0 c s.ctx.run (s.run s.ctx.run).last with
      ncap := t.ncapOf (s.run s.ctx.run).part }) (P := fun k' => ∃ k n, k' =
        { Core.atT0 k c s.ctx.run (s.run s.ctx.run).last with ncap := n }) (fun _ k => ⟨k, _, rfl⟩) hc _

/-- Whatever a core held, at T0 its registers hold their values after reset. -/
theorem Core.atT0_registers (k : Core) (c r n : Nat) (l : Last) :
    let k' := { k.atT0 c r l with ncap := n }
    k'.run = some r ∧ (∀ j, k'.xr j = 0) ∧ k'.p = 0 ∧ k'.cyc = 0 ∧ (∀ j, j ≠ 0 → k'.qr j = 0) ∧ (∀ j, Table.get 0 k'.tok j = 0) ∧
    k'.rm = 0 ∧ k'.srs = 0x9E3779B9 ^^^ BitVec.ofNat 32 c ∧ k'.fpstat = 0 ∧ k'.early = l.early ∧ k'.status = 0 ∧ k'.rrb = 0 ∧
    k'.ftsel = 0 ∧ k'.spstk = 0 ∧ (∀ i, k'.loopOf i = {}) ∧ (∀ i, k'.shape i = 0x7F7F) ∧ (∀ i, k'.fmtOf i = 0x0004318C) ∧
    (∀ i, Table.get 0x3F80 k'.scale i = 0x3F80) ∧ k'.elastic = false := by
  refine ⟨rfl, fun j => ?_, rfl, rfl, fun j hj => if_neg hj, fun _ => rfl, rfl, rfl, rfl, rfl, rfl, rfl, rfl, rfl, fun _ => rfl,
    fun _ => rfl, fun _ => rfl, fun _ => rfl, rfl⟩
  exact ite_self _

/-! ## The end of a run -/

/-- A run that is aborted has ended. -/
theorem State.abortRun_st (s : State) (r code src unit : Nat) (abort : BitVec 32) :
    ((s.abortRun r code src unit abort).run r).st = .ended := by
  unfold State.abortRun
  exact congrArg Run.st (State.run_post_modRun _ _ _ _ _)

/-- A complete run has ended, and its cores are in no run. -/
theorem State.completeRun_st (s : State) (r : Nat) : ((s.completeRun r).run r).st = .ended := by
  unfold State.completeRun
  exact congrArg Run.st (State.run_post_modRun _ _ _ _ _)
theorem State.completeRun_free (s : State) (r : Nat) {c : Nat} (hc : c ∈ (s.run r).cores) : ((s.completeRun r).core c).run = none := by
  unfold State.completeRun
  exact (congrArg Core.run (State.core_eq (State.post_cores _ _ _) c)).trans (State.freeCores_run _ hc)

/-- QUORUM_CHECK of a gang with every arm message in: the run is marked as checked. -/
theorem execQuorumCheck_complete {s : State} (h : s.missing (s.run s.ctx.run) = []) :
    ∃ t, execQuorumCheck s = .next t ∧ t.cores = s.cores ∧ (t.run s.ctx.run).st = (s.run s.ctx.run).st ∧
      (t.run s.ctx.run).checked = true := by
  unfold execQuorumCheck
  simp only [h, List.isEmpty_nil, Bool.or_true, Bool.true_or, if_true]
  exact ⟨_, rfl, rfl, by rw [State.run_modRun_same]; rfl, by rw [State.run_modRun_same]⟩

/-- QUORUM_CHECK of a gang with an arm message missing: the run has ended. -/
theorem execQuorumCheck_missing {s : State} (h : s.missing (s.run s.ctx.run) ≠ []) (hg : (s.run s.ctx.run).last.gang = true) :
    ∃ t, execQuorumCheck s = .next t ∧ (t.run s.ctx.run).st = .ended := by
  unfold execQuorumCheck
  dsimp only
  split
  · rename_i hc
    have he : (s.run s.ctx.run).st = .ended := by simpa [hg, h] using hc
    exact ⟨_, rfl, by rw [State.run_modRun_same]; exact he⟩
  · exact ⟨_, rfl, State.abortRun_st _ _ _ _ _ _⟩

/-- An arm message is kept, and changes nothing else. -/
theorem execArmMessage_noted (p : Nat) (a : Nat × Nat) (s : State) :
    ∃ t, execArmMessage p a s = .next t ∧ (p, a) ∈ t.arms ∧ t.cores = s.cores ∧ t.runs = s.runs := by
  refine ⟨_, rfl, ?_⟩
  split
  · rename_i h
    exact ⟨by simpa using h, rfl, rfl⟩
  · exact ⟨List.mem_cons_self, rfl, rfl⟩

/-- SCRIPT_RUNON_LIMIT ends a run whose scripts run on. -/
theorem execScriptRunonLimit_ended {s : State} {u : Nat} (h : (s.run s.ctx.run).st = .runon u) :
    ∃ t, execScriptRunonLimit s = .next t ∧ (t.run s.ctx.run).st = .ended := by
  unfold execScriptRunonLimit
  simp only [h]
  exact ⟨_, rfl, State.completeRun_st _ _⟩

/-- No script of the run's channels runs. -/
def State.scriptsStopped (s : State) (r : Nat) : Prop :=
  ∀ cn ∈ (s.run r).chans, (s.chan cn).run ≠ some r ∨ (s.chan cn).script ≠ .running

/-- The test of RUN_END is that of the statement. -/
theorem State.scriptsStopped_iff (s : State) (r : Nat) :
    ((s.run r).chans.all fun cn => (s.chan cn).run != some r || (s.chan cn).stopped') = true ↔ s.scriptsStopped r := by
  simp [State.scriptsStopped, Chan.stopped']

/-- RUN_END while a core has yet to pass its END entry does nothing. -/
theorem execRunEnd_barrier {s : State} (hl : (s.run s.ctx.run).st = .live)
    (hb : ∃ c ∈ (s.run s.ctx.run).cores, (s.core c).inBarrier = true) : execRunEnd s = .next s := by
  have : ((s.run s.ctx.run).cores.any fun c => (s.core c).inBarrier) = true := List.any_eq_true.2 hb
  simp [execRunEnd, hl, this, ok]

/-- Emptying the latches of the channels whose scripts have stopped touches no core and no run. -/
theorem State.emptyLatches_cores (s : State) (r : Nat) (l : List Nat) :
    (l.foldl (fun s cn => if (s.chan cn).run = some r && (s.chan cn).stopped' then
      s.modChan cn fun c => { c with latches := [] } else s) s).cores = s.cores :=
  foldl_keeps State.cores (by intro s cn; split <;> rfl) l s
theorem State.emptyLatches_runs (s : State) (r : Nat) (l : List Nat) :
    (l.foldl (fun s cn => if (s.chan cn).run = some r && (s.chan cn).stopped' then
      s.modChan cn fun c => { c with latches := [] } else s) s).runs = s.runs :=
  foldl_keeps State.runs (by intro s cn; split <;> rfl) l s

/-- RUN_END when every core has passed its END entry: the run is complete, or runs on while its scripts do. -/
theorem execRunEnd_done {s : State} (hl : (s.run s.ctx.run).st = .live) (hc : (s.run s.ctx.run).cause = none)
    (hb : ∀ c ∈ (s.run s.ctx.run).cores, (s.core c).inBarrier = false) :
    (s.scriptsStopped s.ctx.run → execRunEnd s = .next (s.completeRun s.ctx.run)) ∧
    (¬ s.scriptsStopped s.ctx.run → ∃ t, execRunEnd s = .next t ∧
      (t.run s.ctx.run).st = .runon ((s.run s.ctx.run).endTick + 65536) ∧ t.cores = s.cores) := by
  have hb' : ((s.run s.ctx.run).cores.any fun c => (s.core c).inBarrier) = false := by simpa using hb
  rw [← s.scriptsStopped_iff]
  unfold execRunEnd
  simp only [hl, hc, hb', Option.isSome_none, Bool.or_false, Bool.false_eq_true, if_false]
  refine ⟨fun h => if_pos h, fun h => ?_⟩
  rw [if_neg h]
  refine ⟨_, rfl, ?_, ?_⟩
  · rw [State.run_modRun_same, State.run_eq (s.emptyLatches_runs _ _)]
  · exact (State.modRun_cores _ _ _).trans (s.emptyLatches_cores _ _)

/-! ## The statement -/

/-- Settles O32: each step of a run's life is one of the lemmas above; what the cores hold at T0 is `Core.atT0`. -/
theorem runsStartAndEnd : Obligations.RunsStartAndEnd := by
  intro s part dev t0 r ru
  refine ⟨fun harm => ?_, fun hg => ⟨execQuorumCheck_complete, fun hm => execQuorumCheck_missing hm hg⟩, ?_,
    fun hl hc hb => ?_, execRunEnd_barrier, fun u hu => ?_⟩
  · obtain ⟨t, ht, hr, hpool, hhbm, hcores⟩ := execRunStart_armed harm
    refine ⟨t, ht, congrArg Run.st hr, congrArg Run.tb hr, hpool, hhbm, fun c hc => ?_⟩
    obtain ⟨k, n, hk⟩ := hcores c hc
    rw [hk]
    exact k.atT0_registers c r n ru.last
  · exact execArmMessage_noted part (dev, t0) s
  · obtain ⟨hstop, hrun⟩ := execRunEnd_done hl hc hb
    exact ⟨fun h => ⟨_, hstop h, s.completeRun_st r, fun c hc => s.completeRun_free r hc⟩, hrun⟩
  · exact execScriptRunonLimit_ended hu

end Sys2Proof.Machine
end

section
namespace Sys2Proof.Machine

/-! ## PHASE -/

theorem exec_phase (xa : XReg) (el hold : Bool) (m : BitVec 4) (n : BitVec 5) (s : State) :
    exec (.phase xa el m n hold) s = execPhase xa el m n hold s := rfl

/-- PHASE of a tick to come arms the gate at the end of c0. -/
theorem execPhase_arms {s : State} {xa : XReg} (h : s.myRunTick < (s.xr xa).toNat) (el hold : Bool) (m : BitVec 4) (n : BitVec 5) :
    execPhase xa el m n hold s = .next (s.defer 0 (.gate s.ctx.core
      { elastic := el, g := (s.xr xa).toNat, mask := m, n := n.toNat, hold := hold, armed := s.tick })) := by
  simp [execPhase, Nat.not_le.2 h, ok]
/-- PHASE of a tick gone by raises DEADLINE, but for the cycle in which a declared length runs out. -/
theorem execPhase_past {s : State} {xa : XReg} (h : (s.xr xa).toNat ≤ s.myRunTick) (el hold : Bool) (m : BitVec 4) (n : BitVec 5) :
    execPhase xa el m n hold s = .next (if s.lengthEnds then s else s.raise .deadline 4 (s.xr xa)) := by
  simp [execPhase, h, ok]

/-! ## The gate tick -/

/-- GATE_TICK of a core that has reached its gate, with nothing that still waits. -/
theorem execGateTick_reached {s : State} {g : Gate} {r a : Nat} (hg : s.me.gate = some g) (hr : s.me.run = some r)
    (hs : s.me.seq = .gate a) (ha : a ≤ s.tick) (hops : ∀ e ∈ s.me.ops, ∀ q, e.2 = some q → q.waiting = false)
    (hw : s.me.waits = []) : execGateTick s = .next (s.enterPhase s.ctx.core g a r) := by
  have hno : (s.me.ops.any fun e => e.2.any (·.waiting)) = false := by
    simp only [List.any_eq_false, Option.any_eq_true, not_exists, not_and, Bool.not_eq_true]
    exact fun e he q hq => hops e he q hq
  simp [execGateTick, hg, hr, hs, ha, hno, hw, ok]
/-- GATE_TICK of a core that has not reached its gate, or that still waits. -/
theorem execGateTick_late {s : State} {g : Gate} {r : Nat} (hg : s.me.gate = some g) (hr : s.me.run = some r)
    (h : ∀ a, s.me.seq = .gate a → s.tick < a ∨ s.me.waits ≠ []) :
    execGateTick s = .next (s.raiseTask .deadline 1 (BitVec.ofNat 64 g.g)) := by
  unfold execGateTick
  simp only [hg, hr]
  cases hs : s.me.seq with
  | gate a =>
    have hno : (decide (a ≤ s.tick) && !(s.me.ops.any fun e => e.2.any (·.waiting)) && s.me.waits.isEmpty) = false := by
      obtain h | h := h a hs
      · simp [h]
      · simp [h]
    simp [hno, ok]
  | _ => rfl

/-- A locked gate finds the oscillator within 12 ticks and the rails of its mask up at full clock; an elastic one has no such
check (14_time_power.md R313, R323). -/
def State.gateCalm (s : State) (g : Gate) : Prop :=
  g.elastic = true ∨ (s.podoff.natAbs ≤ 12 ∧ s.rising g.mask = false ∧ s.railLimit g.mask = 16)

/-- A gate that passes those checks raises nothing. -/
theorem State.gateChecks_calm {s : State} {g : Gate} (h : s.gateCalm g) (c : Nat) :
    (if g.elastic then s
      else if 12 < s.podoff.natAbs then s.raiseDev c .lockDrift
      else if s.rising g.mask || decide (s.railLimit g.mask < 16) then s.raiseDev c .railDown
      else s) = s := by
  obtain h | ⟨hp, hr, hl⟩ := h
  · rw [if_pos h]
  · rw [if_neg (Nat.not_lt.2 hp), hr, hl]
    simp

/-- The phase that a core enters at a gate that raises nothing: kind, mask, start and skew, its clock, and the rails it powers, those
that an earlier gate wakes keeping their tick. -/
theorem State.enterPhase_calm {s : State} {g : Gate} (h : s.gateCalm g) (a r : Nat) :
    ∃ ncap req,
    let k := s.me
    let t := s.enterPhase s.ctx.core g a r
    let waking := (k.wake.map fun e => (e.1 &&& g.mask, e.2)).filter (·.1 != 0)
    let woken := g.mask &&& ~~~ (k.rails ||| waking.foldl (fun m e => m ||| e.1) 0)
    let late := woken != 0 && decide (s.tick < g.armed + 64)
    (k.elastic = false → k.lastElastic = none → g.elastic = true → req = g.n) ∧
    (∃ hold last, t.me = { k with
      elastic := g.elastic, n := if g.elastic then min req (min ncap (s.railLimit g.mask)) else 16, hold := hold, mask := g.mask
      skew := (s.run r).tb + g.g - a, ncap := ncap, phaseStart := g.g, request := req, lastElastic := last, gate := none
      reclock := false, rails := g.mask &&& (k.rails ||| if late then 0 else woken)
      wake := waking ++ if late then [(woken, g.armed + 64)] else [], seq := .atTick g.g }) ∧
    t.pool = s.pool ∧ t.pend = s.pend := by
  obtain ⟨t, ht⟩ : ∃ t, s.enterPhase s.ctx.core g a r = t := ⟨_, rfl⟩
  rw [ht]
  unfold State.enterPhase at ht
  extract_lets k ru skew hold last s1 ncap req n waking old woken at_ late s2 s3 at ht
  rw [State.gateChecks_calm (show s3.gateCalm g from h)] at ht
  subst ht
  refine ⟨ncap, req, fun hk hl hg => ?_, ⟨hold, last, ?_⟩, rfl, rfl⟩
  · simp [req, last, hg, show k.elastic = false from hk, show k.lastElastic = none from hl, skewClock]
  · refine (State.core_modRun _ _ _ _).trans ?_
    exact State.core_modCore_same s1 _ _

/-- The rails of a mask that are not powered together with those that are. -/
theorem rails_all (m p : BitVec 4) : m &&& (p ||| m &&& ~~~ p) = m := by
  ext i hi
  simp only [BitVec.getElem_and, BitVec.getElem_or, BitVec.getElem_not]
  cases m[i] <;> cases p[i] <;> rfl

/-- A gate that finds no rail waking: it wakes those of its mask that are not powered, unless 64 cycles have gone by since its
PHASE. -/
theorem gateRails_none (m p : BitVec 4) (now at_ : Nat) :
    let woken := m &&& ~~~ (p ||| 0)
    let late := woken != 0 && decide (now < at_)
    if m &&& ~~~ p ≠ 0 ∧ now < at_ then
      [] ++ (if late then [(woken, at_)] else []) = [(m &&& ~~~ p, at_)] ∧ m &&& (p ||| if late then 0 else woken) = p &&& m
    else [] ++ (if late then [(woken, at_)] else []) = [] ∧ m &&& (p ||| if late then 0 else woken) = m := by
  have h0 : p ||| 0 = p := BitVec.or_zero
  simp only [h0, List.nil_append]
  by_cases hlate : m &&& ~~~ p ≠ 0 ∧ now < at_
  · have : (m &&& ~~~ p != 0 && decide (now < at_)) = true := by simpa using hlate
    rw [if_pos hlate, this]
    exact ⟨rfl, by simp [BitVec.and_comm]⟩
  · have : (m &&& ~~~ p != 0 && decide (now < at_)) = false := by
      simpa [Bool.and_eq_false_iff, imp_iff_not_or] using hlate
    rw [if_neg hlate, this]
    exact ⟨rfl, rails_all m p⟩

/-- What GATE_TICK gives the core of the step in hand at a gate that raises nothing, field by field. -/
theorem State.enterPhase_me {s : State} {g : Gate} (h : s.gateCalm g) (a r : Nat) :
    let t := s.enterPhase s.ctx.core g a r
    t.me.gate = none ∧ t.me.elastic = g.elastic ∧ t.me.mask = g.mask ∧ t.me.phaseStart = g.g ∧ t.me.seq = .atTick g.g ∧
    (g.elastic = false → t.me.n = 16) ∧
    (g.elastic = true → s.me.elastic = false → s.me.lastElastic = none → t.me.n = min g.n (min t.me.ncap (s.railLimit g.mask))) ∧
    t.me.skew = (s.run r).tb + g.g - a ∧
    (s.me.wake = [] → if g.mask &&& ~~~ s.me.rails ≠ 0 ∧ s.tick < g.armed + 64 then
        t.me.wake = [(g.mask &&& ~~~ s.me.rails, g.armed + 64)] ∧ t.me.rails = s.me.rails &&& g.mask
      else t.me.wake = [] ∧ t.me.rails = g.mask) ∧
    (∀ w ∈ s.me.wake, w.1 &&& g.mask ≠ 0 → (w.1 &&& g.mask, w.2) ∈ t.me.wake) ∧
    t.me.x = s.me.x ∧ t.me.p = s.me.p ∧ t.pool = s.pool ∧ t.pend = s.pend := by
  obtain ⟨ncap, req, hreq, ⟨hold, last, hme⟩, hpool, hpend⟩ := State.enterPhase_calm h a r
  dsimp only
  rw [hme]
  refine ⟨rfl, rfl, rfl, rfl, rfl, fun hl => if_neg (by simp [hl]), fun hg hk hn => ?_, rfl, fun hw => ?_, fun w hw hne => ?_,
    rfl, rfl, hpool, hpend⟩
  · exact (if_pos hg).trans (by rw [hreq hk hn hg])
  · simp only [hw]
    exact gateRails_none g.mask s.me.rails s.tick (g.armed + 64)
  · exact List.mem_append_left _ (List.mem_filter.2 ⟨List.mem_map.2 ⟨w, hw, rfl⟩, by simpa using hne⟩)

/-! ## The start of a task -/

/-- A change of a core that keeps its operations adds no engine write. -/
theorem State.mem_engineWrites_modCore {s : State} {c : Nat} {f : Core → Core} (hf : ∀ k, (f k).ops = k.ops)
    {w : Src × Nat × Nat × Nat} (h : w ∈ (s.modCore c f).engineWrites) : w ∈ s.engineWrites := by
  have hops : ∀ e ∈ (s.modCore c f).cores, ∀ p ∈ e.2.ops, ∃ e' ∈ s.cores, p ∈ e'.2.ops := by
    intro e he p hp
    obtain rfl | he := Table.eq_or_mem_of_mem_put _ _ _ he
    · rw [hf] at hp
      obtain hd | hm := Table.get_eq_or_mem {} s.cores c
      · rw [State.core, hd] at hp
        exact absurd hp List.not_mem_nil
      · exact ⟨_, hm, hp⟩
    · exact ⟨e, he, hp⟩
  unfold State.engineWrites at h ⊢
  simp only [List.mem_append, List.mem_flatMap] at h ⊢
  refine h.imp id ?_
  rintro ⟨e, he, p, hp, hw⟩
  obtain ⟨e', he', hp'⟩ := hops e he p hp
  exact ⟨e', he', p, hp', hw⟩

/-- A core in the first cycle of task `t`, about to issue its first bundle. -/
def Core.atFirst (k : Core) (t : Task) (wid : X) : Core := { k.beginTask t wid with seq := .issue k.cyc }

/-- The entry of the task that stands next. -/
def State.entry (s : State) : Task := s.me.tasks.getD s.me.taskIx {}

/-- TASK_START of an entry that starts a task. -/
theorem execTaskStart_begins {s : State} {n : Nat}
    (h : (s.me.seq = .atTick n ∧ s.entry.rule ≠ .fin) ∨ (s.me.seq = .atCycle n ∧ s.entry.rule = .after))
    (hw : ∀ w ∈ s.engineWrites, w.2.1 ≠ s.ctx.core) :
    execTaskStart s = .next (s.modMe fun k => k.atFirst s.entry (s.widOf s.ctx.core)) := by
  have hnone : ∀ lim, (s.modMe fun k => k.atFirst s.entry (s.widOf s.ctx.core)).engineWrites.find?
      (fun e => e.2.1 == s.ctx.core && decide (lim < e.2.2.1 + e.2.2.2)) = none := by
    intro lim
    rw [List.find?_eq_none]
    intro e he
    simp [hw e (State.mem_engineWrites_modCore (by intros; rfl) he)]
  unfold execTaskStart
  obtain ⟨hs, hr⟩ | ⟨hs, hr⟩ := h
  · cases hrule : s.entry.rule with
    | fin => exact absurd hrule hr
    | _ =>
      rw [State.entry] at hrule
      simp only [hs, hrule]
      split
      · rename_i e he
        exact nomatch (hnone _).symm.trans he
      · rfl
  · rw [State.entry] at hr
    simp only [hs, hr]
    split
    · rename_i e he
      exact nomatch (hnone _).symm.trans he
    · rfl

/-- No loop level is active in the first cycle of a task. -/
theorem Core.atFirst_inactive (k : Core) (t : Task) (wid : X) (l : Nat) : ((k.atFirst t wid).loopOf l).active = false := by
  have : ∀ m : Table Loop, (Table.get ({} : Loop) (m.map fun e : Nat × Loop =>
      (e.1, { e.2 with active := false, iter := 0 })) l).active = false := by
    intro m
    induction m with
    | nil => rfl
    | cons x r ih =>
      simp only [List.map_cons, Table.get]
      split
      · rfl
      · exact ih
  exact this k.loops

/-- TASK_START of an AT entry at a cycle, its tick gone by, and of a GATE entry at a cycle, no gate standing before it. -/
theorem execTaskStart_at {s : State} {n : Nat} (hs : s.me.seq = .atCycle n) (hr : s.entry.rule = .at) :
    execTaskStart s = .next (s.raiseTask .deadline 2 (s.entry.v.setWidth 64)) := by
  rw [State.entry] at hr ⊢
  simp only [execTaskStart, hs, hr, ok]
theorem execTaskStart_gate {s : State} {n : Nat} (hs : s.me.seq = .atCycle n) (hr : s.entry.rule = .gate) :
    execTaskStart s = .next (s.raiseTask .deviation 0 0) := by
  rw [State.entry] at hr
  simp only [execTaskStart, hs, hr, ok]

/-- A fold of steps that only note runs, messages and steps does no more. -/
theorem State.Noted.foldl {α : Type} {f : State → α → State} (h : ∀ (t : State) a, t.Noted (f t a)) (l : List α) (s : State) :
    s.Noted (l.foldl f s) := by
  induction l generalizing s with
  | nil => exact .refl s
  | cons a l ih => exact (h s a).trans (ih _)

/-- The flip of a barrier is a note of its run. -/
theorem State.barCheck_noted (s : State) (r b : Nat) : s.Noted (s.barCheck r b) := by
  unfold State.barCheck
  dsimp only
  split
  · exact (State.Noted.refl s).modRun _ _
  · exact .refl s

/-- A core that passes its END entry is done; of the rest only its run and the list of steps change. -/
theorem State.finishCore_noted (s : State) (c : Nat) :
    (s.modCore c fun k => { k.setSeq .done with inTask := false }).Noted (s.finishCore c) := by
  unfold State.finishCore
  dsimp only
  split
  · exact .refl _
  · exact ((State.Noted.foldl (fun t b => t.barCheck_noted _ b) _ _).modRun _ _).todo _

theorem Core.setSeq_of_sound {k : Core} (h : k.faulted = none) (q : Seq) : k.setSeq q = { k with seq := q } := by
  simp [Core.setSeq, h]

/-- A core without a fault that passes its END entry is done, and keeps its registers. -/
theorem State.finishCore_sound (s : State) (hf : s.me.faulted = none) :
    let t := s.finishCore s.ctx.core
    t.me = { s.me with seq := .done, inTask := false } ∧ t.pool = s.pool ∧ t.pend = s.pend := by
  have hn := s.finishCore_noted s.ctx.core
  obtain ⟨hpool, -, -, -, hpend, -, -⟩ := hn.keeps
  refine ⟨?_, hpool, hpend⟩
  refine (hn.me.trans (s.me_modMe fun k => { k.setSeq .done with inTask := false })).trans ?_
  rw [Core.setSeq_of_sound hf]

/-- TASK_START of the END entry, the core's engines at rest: the core has passed it. -/
theorem execTaskStart_fin {s : State} {n : Nat} (hs : s.me.seq = .atCycle n) (hr : s.entry.rule = .fin)
    (ho : s.overhangEnd s.ctx.core = none) : execTaskStart s = .next (s.finishCore s.ctx.core) := by
  rw [State.entry] at hr
  simp only [execTaskStart, hs, hr, ho, ok]

/-! ## The end of a task -/

/-- TEND of a recovery task stops its core, and its run's RUN_FREEZE follows in the tick. -/
theorem execTend_recov {s : State} (h : s.me.inRecov = true) :
    execTend s = .next { s.modMe (fun k => { k with inTask := false, seq := .stopped }) with
      todo := s.todo ++ [{ ctx := { run := s.me.run.getD 0 }, instr := .runFreeze }] } := by
  simp [execTend, h, ok]

/-- TEND of a locked task of another length than the declared one, or of none. -/
theorem execTend_badLength {s : State} (h : s.me.inRecov = false) (hb : s.badLength = true) :
    execTend s = .next (s.raise .deviation 0 0) := by
  simp [execTend, h, hb, ok]

/-- TEND with no armed expectation to check goes on to the next entry. -/
theorem execTend_next {s : State} (h : s.me.inRecov = false) (hb : s.badLength = false)
    (he : s.me.toGate = false ∨ s.me.elastic = false ∨ s.me.expects = []) : execTend s = .next s.nextTask := by
  have hnone : (if s.me.elastic && s.me.toGate then s.failedExpect else none) = none := by
    obtain h | h | h := he <;> simp [h, State.failedExpect]
  unfold execTend
  simp only [h, hb, hnone, ok, Bool.false_eq_true, if_false]

/-- The length of a locked task counts, that of an elastic one does not. -/
theorem State.badLength_iff (s : State) : s.badLength = true ↔
    s.me.elastic = false ∧ (s.entry.len = 0xFFFFFFFF ∨ s.me.lcyc ≠ s.entry.len.toNat) := by
  change (!s.me.elastic && (s.entry.len == 0xFFFFFFFF || s.me.lcyc != s.entry.len.toNat)) = true ↔ _
  simp

/-- Where the sequencer of the core in hand goes after its TEND, 01_machine.md Table 1.5. -/
def State.afterTend (s : State) (f : Task) : Seq :=
  match f.rule with
  | .after => .atCycle (s.me.cyc + 1 + f.v.toNat)
  | .at => if f.v.toNat ≤ s.myRunTick then .atCycle (s.me.cyc + 1) else .atTick f.v.toNat
  | .gate => if s.me.gate.isSome then .gate (s.nextPulse s.ctx.core s.tick) else .atCycle (s.me.cyc + 1)
  | .fin => .atCycle (s.me.cyc + 1)

theorem State.afterTend_cases (s : State) (f : Task) :
    (f.rule = .after → s.afterTend f = .atCycle (s.me.cyc + 1 + f.v.toNat)) ∧
    (f.rule = .at → s.myRunTick < f.v.toNat → s.afterTend f = .atTick f.v.toNat) ∧
    (f.rule = .at → f.v.toNat ≤ s.myRunTick → s.afterTend f = .atCycle (s.me.cyc + 1)) ∧
    (f.rule = .gate → s.me.gate ≠ none → s.afterTend f = .gate (s.nextPulse s.ctx.core s.tick)) ∧
    (f.rule = .gate → s.me.gate = none → s.afterTend f = .atCycle (s.me.cyc + 1)) ∧
    (f.rule = .fin → s.afterTend f = .atCycle (s.me.cyc + 1)) := by
  unfold State.afterTend
  refine ⟨fun h => ?_, fun h hv => ?_, fun h hv => ?_, fun h hg => ?_, fun h hg => ?_, fun h => ?_⟩
  · simp only [h]
  · simp only [h, if_neg (Nat.not_le.2 hv)]
  · simp only [h, if_pos hv]
  · simp only [h, if_pos (Option.isSome_iff_ne_none.2 hg)]
  · simp [h, hg]
  · simp only [h]

/-- The core in hand once its task is over, before the next entry's rule sets its start. -/
def State.taskOver (s : State) : State := s.modMe fun k => { k with inTask := false, taskIx := k.taskIx + 1, tendTick := s.tick }

theorem State.taskOver_me (s : State) :
    s.taskOver.me = { s.me with inTask := false, taskIx := s.me.taskIx + 1, tendTick := s.tick } :=
  s.me_modMe fun k => { k with inTask := false, taskIx := k.taskIx + 1, tendTick := s.tick }
theorem State.taskOver_myRunTick (s : State) : s.taskOver.myRunTick = s.myRunTick := by
  unfold State.myRunTick
  rw [State.taskOver_me]
  rfl
theorem State.taskOver_nextPulse (s : State) (t : Nat) : s.taskOver.nextPulse s.ctx.core t = s.nextPulse s.ctx.core t := by
  have h : s.taskOver.core s.ctx.core = { s.me with inTask := false, taskIx := s.me.taskIx + 1, tendTick := s.tick } := s.taskOver_me
  unfold State.nextPulse State.runOf
  rw [h]
  rfl

/-- The core in hand after its TEND goes where the next entry's rule says. -/
theorem State.nextTask_eq (s : State) :
    s.nextTask = s.taskOver.modMe fun k => k.setSeq (s.afterTend (s.me.tasks.getD (s.me.taskIx + 1) {})) := by
  have hme := s.taskOver_me
  have byCycle : ∀ q : Nat → Seq, (s.taskOver.modMe fun k => k.setSeq (q k.cyc)) = s.taskOver.modMe fun k => k.setSeq (q s.me.cyc) := by
    intro q
    have hcyc : s.taskOver.me.cyc = s.me.cyc := by rw [hme]
    rw [← hcyc]
    rfl
  unfold State.nextTask State.afterTend
  extract_lets c u k f
  have hf : f = s.me.tasks.getD (s.me.taskIx + 1) {} :=
    show s.taskOver.me.tasks.getD s.taskOver.me.taskIx {} = _ by rw [hme]
  have hgate : k.gate = s.me.gate := show s.taskOver.me.gate = _ by rw [hme]
  have htick : u.myRunTick = s.myRunTick := s.taskOver_myRunTick
  have hpulse : u.nextPulse c u.tick = s.nextPulse s.ctx.core s.tick := s.taskOver_nextPulse s.tick
  rw [hf, hgate, htick, hpulse]
  match (s.me.tasks.getD (s.me.taskIx + 1) {}).rule with
  | .after => exact byCycle fun n => .atCycle (n + 1 + (s.me.tasks.getD (s.me.taskIx + 1) {}).v.toNat)
  | .fin => exact byCycle fun n => .atCycle (n + 1)
  | .at =>
    dsimp only
    split
    · exact byCycle fun n => .atCycle (n + 1)
    · rfl
  | .gate =>
    dsimp only
    split
    · rfl
    · exact byCycle fun n => .atCycle (n + 1)

/-- The core in hand after its TEND, where no fault has stopped it. -/
theorem State.nextTask_me {s : State} (hf : s.me.faulted = none) :
    s.nextTask.me = { s.me with inTask := false, taskIx := s.me.taskIx + 1, tendTick := s.tick
                                seq := s.afterTend (s.me.tasks.getD (s.me.taskIx + 1) {}) } := by
  rw [State.nextTask_eq, State.me_modMe, State.taskOver_me]
  refine Core.setSeq_of_sound ?_ _
  exact hf
theorem State.nextTask_keeps (s : State) : s.nextTask.pool = s.pool ∧ s.nextTask.pend = s.pend := by
  rw [State.nextTask_eq]
  exact ⟨rfl, rfl⟩

/-! ## Lengths and budgets that run out -/

theorem exec_lengthExpiry (s : State) : exec .lengthExpiry s = if s.me.inTask then .next (s.raiseTask .deviation 0 0) else .next s := rfl
theorem exec_budgetExpiry (s : State) : exec .budgetExpiry s =
    if s.me.inTask || !s.me.waits.isEmpty then .next (s.raiseTask .deadline 0 (BitVec.ofNat 64 s.myRunTick)) else .next s := rfl

/-! ## The statement -/

/-- Settles O29: PHASE, the gate tick and the start and end of a task, each by its lemmas above. -/
theorem gatesAndTasks : Obligations.GatesAndTasks := by
  constructor
  · intro s xa el hold m n g r a
    refine ⟨fun h => ⟨_, execPhase_arms h el hold m n, rfl, rfl, rfl, rfl, rfl, rfl⟩, fun h hl => ?_, fun h hl => ?_,
      fun hg hr => ⟨fun hs ha hops hw hcalm => ?_, fun hs ha => ?_, fun hs => ?_, fun hs hw => ?_⟩⟩
    · rw [exec_phase, execPhase_past h, hl]
      rfl
    · rw [exec_phase, execPhase_past h, hl]
      rfl
    · exact ⟨_, execGateTick_reached hg hr hs ha hops hw, State.enterPhase_me hcalm a r⟩
    · refine execGateTick_late hg hr fun b hb => ?_
      cases hs.symm.trans hb
      exact .inl ha
    · exact execGateTick_late hg hr fun b hb => absurd hb (hs b)
    · exact execGateTick_late hg hr fun b hb => .inr hw
  · intro s n e f
    refine ⟨fun h hw => ?_, fun hs hr hf ho => ?_, execTaskStart_at, execTaskStart_gate,
      fun hrec hf he => ⟨fun hlen => ?_, fun hel hlen => ?_⟩, fun hrec => ?_, fun h => ?_, fun h => ?_, fun h => ?_, fun h hw => ?_⟩
    · refine ⟨_, execTaskStart_begins h hw, ?_⟩
      rw [State.me_modMe]
      exact ⟨rfl, rfl, rfl, rfl, rfl, rfl, rfl, rfl, rfl, Core.atFirst_inactive _ _ _, rfl, rfl, rfl, rfl, rfl⟩
    · obtain ⟨hme, hpool, hpend⟩ := s.finishCore_sound hf
      exact ⟨_, execTaskStart_fin hs hr ho, by rw [hme], by rw [hme], hpool, hpend⟩
    · have hb : s.badLength = false := by
        rw [← Bool.not_eq_true, State.badLength_iff]
        rintro ⟨h1, h2⟩
        obtain h | ⟨h3, h4⟩ := hlen
        · simp [h1] at h
        · exact h2.elim h3 fun h => h h4
      obtain ⟨hpool, hpend⟩ := s.nextTask_keeps
      refine ⟨_, execTend_next hrec hb he, ?_⟩
      rw [State.nextTask_me hf]
      exact ⟨rfl, rfl, rfl, hpool, hpend, rfl, s.afterTend_cases f⟩
    · exact execTend_badLength hrec (s.badLength_iff.2 ⟨hel, hlen⟩)
    · refine ⟨_, _, execTend_recov hrec, ?_, rfl, rfl, rfl, rfl⟩
      exact congrArg Core.seq (s.me_modMe fun k => { k with inTask := false, seq := .stopped })
    · rw [exec_lengthExpiry, if_pos h]
    · rw [exec_lengthExpiry, if_neg (by simp [h])]
    · rw [exec_budgetExpiry, if_pos (by simpa using h)]
    · rw [exec_budgetExpiry, if_neg (by simp [h, hw])]

end Sys2Proof.Machine
end

section
namespace Sys2Proof.Machine

/-! ## Freeze -/

theorem exec_rdfrCore (xd xa : XReg) (w : BitVec 3) (s : State) : exec (.rdfrCore xd xa w) s = execRdfrCore xd xa w s := rfl
theorem exec_runRestart (s : State) : exec .runRestart s = execRunRestart s := rfl

/-- A run that its cause record ends has ended. -/
theorem State.abortCause_st (s : State) (r : Nat) (abort : BitVec 32) : ((s.abortCause r abort).run r).st = .ended :=
  State.abortRun_st _ _ _ _ _ _

/-- Filing the self-test of a burst adds to the tests that the run waits for. -/
theorem State.run_testBurst (s : State) (r k : Nat) : (s.testBurst r k).run r = { s.run r with tests := (s.run r).tests + 1 } :=
  State.run_modRun_same _ _ _

/-- The self-tests of several bursts leave what is known of the run but the number of its tests, the pools and the cores. -/
theorem State.testBursts_st (s : State) (r : Nat) (l : List Nat) :
    ((l.foldl (fun s k => s.testBurst r k) s).run r).st = (s.run r).st :=
  foldl_keeps (fun t : State => (t.run r).st) (fun s k => by rw [s.run_testBurst r k]) l s
theorem State.testBursts_recAt (s : State) (r : Nat) (l : List Nat) :
    ((l.foldl (fun s k => s.testBurst r k) s).run r).recAt = (s.run r).recAt :=
  foldl_keeps (fun t : State => (t.run r).recAt) (fun s k => by rw [s.run_testBurst r k]) l s
theorem State.testBursts_pool (s : State) (r : Nat) (l : List Nat) : (l.foldl (fun s k => s.testBurst r k) s).pool = s.pool :=
  foldl_keeps State.pool (by intros; rfl) l s
theorem State.testBursts_cores (s : State) (r : Nat) (l : List Nat) : (l.foldl (fun s k => s.testBurst r k) s).cores = s.cores :=
  foldl_keeps State.cores (by intros; rfl) l s

/-- RUN_FREEZE of a live run with a cause: the run stands frozen with the tick of its recovery's start, and is aborted where its
last asks for no recovery. -/
theorem execRunFreeze_live {s : State} {c : Cause} (hl : (s.run s.ctx.run).st = .live) (hc : (s.run s.ctx.run).cause = some c) :
    ∃ t, execRunFreeze s = .next (if !(s.run s.ctx.run).last.recovery && !(s.run s.ctx.run).last.gang then t.abortCause s.ctx.run 0
        else t) ∧ (t.run s.ctx.run).st = .frozen s.tick ∧
      (t.run s.ctx.run).recAt = (if (s.run s.ctx.run).last.recovery then some (s.tick + 80) else none) ∧
      t.pool = s.pool ∧ t.cores = s.cores := by
  unfold execRunFreeze
  simp only [hl, hc]
  refine ⟨_, rfl, ?_⟩
  split
  · refine ⟨?_, ?_, ?_, ?_⟩
    · rw [State.testBursts_st, State.run_modRun_same]
    · rw [State.testBursts_recAt, State.run_modRun_same]
    · rw [State.testBursts_pool, State.modRun_pool]
    · rw [State.testBursts_cores, State.modRun_cores]
  · refine ⟨?_, ?_, State.modRun_pool _ _ _, State.modRun_cores _ _ _⟩
    · rw [State.run_modRun_same]
    · rw [State.run_modRun_same]

/-- RUN_FREEZE when the recovery task has stopped without a THAW: the run has ended. -/
theorem execRunFreeze_recovered {s : State} {phi : Nat} {q : Recovery} (hf : (s.run s.ctx.run).st = .frozen phi)
    (hq : (s.run s.ctx.run).recov = some q) (hs : (s.core q.core).seq = .stopped) (hr : (s.run s.ctx.run).restartAt = none) :
    ∃ t, execRunFreeze s = .next t ∧ (t.run s.ctx.run).st = .ended := by
  unfold execRunFreeze
  simp only [hf, hq, hs, hr]
  exact ⟨_, rfl, State.abortCause_st _ _ _⟩

/-! ## Recovery -/

theorem State.run_setCore (s : State) (c : Nat) (k : Core) (r : Nat) : (s.setCore c k).run r = s.run r := rfl

/-- RECOVERY_START: the designated core is saved, with the bytes of its top page, and becomes what `Core.forRecovery` makes of it. -/
theorem execRecoveryStart_frozen {s : State} {phi : Nat} (hf : (s.run s.ctx.run).st = .frozen phi) :
    let l := (s.run s.ctx.run).last
    ∃ t q, execRecoveryStart s = .next t ∧ (t.run s.ctx.run).recov = some q ∧ q.saved = s.core l.recCore ∧
      q.bytes = s.poolRead l.recCore 0x17F000 4096 ∧ (∃ rt ncap, t.core l.recCore =
        (s.core l.recCore).forRecovery l.recCore l rt ncap) ∧ t.pool = s.pool := by
  unfold execRecoveryStart
  simp only [hf]
  refine ⟨_, { core := (s.run s.ctx.run).last.recCore, saved := s.core (s.run s.ctx.run).last.recCore
               bytes := s.poolRead (s.run s.ctx.run).last.recCore 0x17F000 4096, deadline := (s.run s.ctx.run).last.recBudget },
    rfl, ?_, rfl, rfl, ⟨_, _, State.core_setCore_same _ _ _⟩, rfl⟩
  rw [State.run_setCore, State.run_modRun_same]

/-! ## THAW and ABORT -/

theorem State.runOf_of_run {s : State} {c k : Nat} (h : (s.core c).run = some k) : s.runOf c = some (s.run k) := by
  simp [State.runOf, h]

/-- THAW answers 2 in a gang. -/
theorem execThaw_gang {s : State} {k : Nat} (hk : s.me.run = some k) (hg : (s.run k).last.gang = true) (xd : XReg) :
    execThaw xd s = .next (s.deferX 0 xd 2) := by
  simp [execThaw, s.runOf_of_run hk, hk, hg, ok]

/-- THAW answers 1 where a record is not resumable. -/
theorem execThaw_refused {s : State} {k : Nat} (hk : s.me.run = some k) (hg : (s.run k).last.gang = false)
    (hr : s.resumable (s.run k) = false) (xd : XReg) : execThaw xd s = .next (s.deferX 0 xd 1) := by
  simp [execThaw, s.runOf_of_run hk, hk, hg, hr, ok]

/-- THAW else answers 0, sets the tick of the restart and ends the recovery task. -/
theorem execThaw_resumes {s : State} {k : Nat} (hk : s.me.run = some k) (hg : (s.run k).last.gang = false)
    (hr : s.resumable (s.run k) = true) (xd : XReg) : execThaw xd s = .next
      (((s.deferX 0 xd 0).modRun k fun u => { u with restartAt := some (s.cycleTick s.ctx.core 32 s.tick) }).stopRecovery) := by
  simp [execThaw, s.runOf_of_run hk, hk, hg, hr, ok]

/-- Ending the recovery task stops its core and changes the list of steps. -/
theorem State.stopRecovery_me (s : State) : s.stopRecovery.me = { s.me with seq := .stopped } :=
  s.me_modMe fun k => { k with seq := .stopped }
theorem State.stopRecovery_run (s : State) (r : Nat) : s.stopRecovery.run r = s.run r := rfl

/-- ABORT stops the core and keeps its code for the run's entry. -/
theorem execAbort_of_run {s : State} {k : Nat} (hk : s.me.run = some k) (code : BitVec 32) :
    execAbort code s = .next (s.modRun k fun u => { u with abortCode := code }).stopRecovery := by
  simp [execAbort, hk, ok]

/-! ## Restart -/

@[simp] theorem State.heldFlits_runs (s : State) (p n : Nat) : (s.heldFlits p n).runs = s.runs := rfl

/-- A restarted run is live again, TB moved by the time it stood, its cause gone; pools and pending writes are as they were. -/
theorem State.restartRun_frozen {s : State} {r phi : Nat} {c : Cause} (hf : (s.run r).st = .frozen phi)
    (hc : (s.run r).cause = some c) (rs : Nat) :
    let t := s.restartRun r rs
    (t.run r).st = .live ∧ (t.run r).tb = rs - c.tau ∧ (t.run r).cause = none ∧ (t.run r).preempt = (s.run r).preempt ∧
    t.pool = s.pool ∧ t.pend = s.pend := by
  unfold State.restartRun
  simp only [hf, hc]
  generalize hb : List.foldl _ (List.foldl State.rewrite s _) _ = b
  have keeps : ∀ {β : Type} (g : State → β), (∀ s w, g (State.rewrite s w) = g s) → (∀ s c f, g (State.modCore s c f) = g s) →
      g b = g s := by
    intro β g hw hm
    rw [← hb]
    exact (foldl_keeps g (by intros; exact hm _ _ _) _ _).trans (foldl_keeps g hw _ _)
  have hrun := keeps State.runs (by intros; rfl) (by intros; rfl)
  refine ⟨?_, ?_, ?_, ?_, keeps State.pool (by intros; rfl) (by intros; rfl), keeps State.pend (by intros; rfl) (by intros; rfl)⟩
  all_goals simp [State.run, hrun]

/-! ## Gangs -/

/-- GANG_ABORT_TICK leaves a run that has ended. -/
theorem execGangAbortTick_ended (s : State) : ∃ t, execGangAbortTick s = .next t ∧ (t.run s.ctx.run).st = .ended := by
  refine ⟨_, rfl, ?_⟩
  split
  · rename_i h
    exact eq_of_beq h
  · exact State.abortCause_st _ _ _

/-- A GANG_ABORT of a live run that has its tick A keeps that tick, sends nothing, and is the run's cause where there was none. -/
theorem State.raiseRun_gangAbort {s : State} {r a : Nat} (hl : (s.run r).st = .live) (ha : (s.run r).abortAt = some a)
    (unit idx : Nat) (w2 w3 : X) (t : Nat) :
    let u := s.raiseRun r .gangAbort 3 unit idx w2 w3 t
    (u.run r).abortAt = some a ∧ ((s.run r).cause = none → ∃ d, (u.run r).cause = some d ∧ d.code = 30 ∧ d.kind = 3) := by
  have hby : ∀ f, (s.run r).abortBy FCode.gangAbort.num f = a := fun f => by simp [Run.abortBy, ha]
  unfold State.raiseRun State.noteCause
  simp only [hl, ha, hby, Option.all_some, Nat.lt_irrefl, decide_false, Bool.and_false, Bool.false_eq_true, if_false]
  cases hc : (s.run r).cause with
  | none =>
    simp only [if_true, State.run_modRun_same]
    exact ⟨ha, fun _ => ⟨_, rfl, rfl, rfl⟩⟩
  | some o =>
    refine ⟨?_, nofun⟩
    dsimp only
    split
    · rw [State.run_modRun_same]
      exact ha
    · exact ha

/-- ABORT_NOTICE where the only run is a live gang run of the partition: the earliest tick A holds, and the first notice raises
GANG_ABORT. -/
theorem execAbortNotice_live {s : State} {r : Nat} {ru : Run} (hs : s.runs = [(r, ru)]) (hg : ru.last.gang = true)
    (hl : ru.st = .live) (tickA : Nat) :
    ∃ t, execAbortNotice ru.part tickA s = .next t ∧ (t.run r).abortAt = some (min tickA (ru.abortAt.getD tickA)) ∧
      (ru.abortAt = none → ru.cause = none → ∃ d, (t.run r).cause = some d ∧ d.code = 30 ∧ d.kind = 3) := by
  have hr : s.run r = ru := by simp [State.run, hs, Table.get]
  unfold execAbortNotice
  simp only [hs, hg, hl, beq_self_eq_true, Bool.and_true, List.find?_cons_of_pos]
  refine ⟨_, rfl, ?_⟩
  cases ha : ru.abortAt with
  | some a => simp [hr, ha]
  | none =>
    have h := State.raiseRun_gangAbort (s := s.modRun r fun u => { u with abortAt := some (min tickA (u.abortAt.getD tickA)) })
      (r := r) (a := tickA) (by simp [hr, hl]) (by simp [hr, ha]) (ru.cores.headD 0) 0 0 0 s.tick
    simpa [hr, ha] using h

/-! ## Pre-emption -/

/-- A run that can be pre-empted: one with a yield gap, of no gang, that has not ended. -/
theorem execPreemptRequest_granted {s : State} (he : (s.run s.ctx.run).st ≠ .ended) (hy : (s.run s.ctx.run).last.yieldGap ≠ 0)
    (hg : (s.run s.ctx.run).last.gang = false) :
    execPreemptRequest s = .next (s.modRun s.ctx.run fun u => { u with preempt := true }) := by
  simp [execPreemptRequest, he, hy, hg, ok]
theorem execPreemptRequest_ignored {s : State} (h : (s.run s.ctx.run).st = .ended ∨ (s.run s.ctx.run).last.yieldGap = 0 ∨
    (s.run s.ctx.run).last.gang = true) : execPreemptRequest s = .next s := by
  unfold execPreemptRequest
  obtain h | h | h := h <;> simp [h, ok]

/-- PREEMPT_FREEZE: the run stands frozen, its cause PREEMPT at the tick at which the yield cycle began. -/
theorem execPreemptFreeze_eq (s : State) : ∃ t d, execPreemptFreeze s = .next t ∧ (t.run s.ctx.run).st = .frozen s.tick ∧
    (t.run s.ctx.run).cause = some d ∧ d.code = 38 ∧
    d.trap.w1 = BitVec.ofInt 64 ((s.yieldBegin (s.run s.ctx.run) : Int) - (s.run s.ctx.run).tb) ∧
    (t.run s.ctx.run).record = d.trap ∧ t.cores = s.cores ∧ t.pool = s.pool := by
  unfold execPreemptFreeze
  refine ⟨_, _, rfl, ?_, congrArg Run.cause (State.run_modRun_same s s.ctx.run _), rfl, rfl, ?_, rfl, rfl⟩
  · rw [State.run_modRun_same]
  · rw [State.run_modRun_same]

/-- The run stands pre-empted: frozen with the code PREEMPT. -/
theorem Run.preempted_of {ru : Run} {phi : Nat} {c : Cause} (hf : ru.st = .frozen phi) (hc : ru.cause = some c) (h : c.code = 38) :
    ru.preempted = true := by
  simp only [Run.preempted, hf, hc, h]
  rfl

/-- PREEMPT_RESUME before its tick: the saved context comes in, and the restart is due at the next tick. -/
theorem execPreemptResume_asks {s : State} (hp : (s.run s.ctx.run).preempted = true) (hf : s.contextFree (s.run s.ctx.run) = true)
    (hr : (s.run s.ctx.run).restartAt = none) : execPreemptResume s = .next
      ((s.loadContext s.ctx.run).modRun s.ctx.run fun u => { u with restartAt := some (s.tick + 1) }) := by
  simp [execPreemptResume, hp, hf, hr, ok]
/-- PREEMPT_RESUME at its tick restarts the run. -/
theorem execPreemptResume_restarts {s : State} {u : Nat} (hp : (s.run s.ctx.run).preempted = true)
    (hf : s.contextFree (s.run s.ctx.run) = true) (hr : (s.run s.ctx.run).restartAt = some u) (hu : u ≤ s.tick) :
    execPreemptResume s = .next (s.restartRun s.ctx.run s.tick) := by
  simp [execPreemptResume, hp, hf, hr, hu, ok]

/-- Without a saved context nothing comes in. -/
theorem State.loadContext_none {s : State} {r : Nat} (h : (s.run r).context = none) : s.loadContext r = s := by
  simp [State.loadContext, h]
/-- The one core that a context saves comes back as it was. -/
theorem State.loadContext_core {s : State} {r n : Nat} {x : Context} {k : Core} (h : (s.run r).context = some x)
    (hx : x.cores = [(n, k)]) (hc : (s.run r).contextChans = []) : (s.loadContext r).core n = k := by
  simp only [State.loadContext, h, hx, hc, List.foldl_cons, List.foldl_nil]
  exact State.core_setCore_same s n k

/-- YIELD_GAP_EXPIRY is against the first core whose count exceeds the gap. -/
theorem execYieldGapExpiry_first {s : State} {pre post : List Nat} {c : Nat} (hcs : (s.run s.ctx.run).cores = pre ++ c :: post)
    (hpre : ∀ d ∈ pre, s.gapOf (s.run s.ctx.run) d ≤ (s.run s.ctx.run).last.yieldGap)
    (hc : (s.run s.ctx.run).last.yieldGap < s.gapOf (s.run s.ctx.run) c) :
    execYieldGapExpiry s = .next (({ s with ctx := { s.ctx with core := c } }).raiseTask .deadline 3
      (BitVec.ofNat 64 ((s.core c).cycTick - (s.run s.ctx.run).tb))) := by
  have hfind : (s.run s.ctx.run).cores.find? (fun c => decide ((s.run s.ctx.run).last.yieldGap < s.gapOf (s.run s.ctx.run) c)) =
      some c := by
    rw [List.find?_eq_some_iff_append]
    exact ⟨decide_eq_true hc, pre, post, hcs, fun d hd => by simpa using hpre d hd⟩
  simp only [execYieldGapExpiry, hfind, ok]
/-- Without such a core it does nothing. -/
theorem execYieldGapExpiry_none {s : State} (h : ∀ c ∈ (s.run s.ctx.run).cores,
    s.gapOf (s.run s.ctx.run) c ≤ (s.run s.ctx.run).last.yieldGap) : execYieldGapExpiry s = .next s := by
  have hfind : (s.run s.ctx.run).cores.find? (fun c => decide ((s.run s.ctx.run).last.yieldGap < s.gapOf (s.run s.ctx.run) c)) =
      none := by simpa using h
  simp only [execYieldGapExpiry, hfind, ok]

/-! ## The statement -/

/-- Settles O33: freeze, recovery, THAW, ABORT and restart, the gang's abort, and pre-emption, each by its lemma above. -/
theorem freezesRecoveryPreemption : Obligations.FreezesRecoveryPreemption := by
  refine ⟨fun s xd xa w code part tickA phi c => ?_, fun s phi c => ?_⟩
  · intro r ru
    refine ⟨fun hl hc hrec => ?_, fun hl hc hrec hg => ?_, fun q hf hq hs hr => execRunFreeze_recovered hf hq hs hr, fun hf => ?_,
      ?_, rfl, fun k hk => ⟨fun hg => execThaw_gang hk hg xd, fun hg hr => execThaw_refused hk hg hr xd, fun hg hr => ?_, ?_⟩,
      fun hi hf hc => ?_, fun hs hp hg hl => ?_, execGangAbortTick_ended s⟩
    · obtain ⟨t, ht, hst, hat, hpool, hcores⟩ := execRunFreeze_live hl hc
      have hrec' : (s.run s.ctx.run).last.recovery = true := hrec
      rw [hrec'] at ht hat
      exact ⟨t, ht, hst, hat, hpool, hcores⟩
    · obtain ⟨t, ht, -⟩ := execRunFreeze_live hl hc
      have hrec' : (s.run s.ctx.run).last.recovery = false := hrec
      have hg' : (s.run s.ctx.run).last.gang = false := hg
      rw [hrec', hg'] at ht
      exact ⟨_, ht, State.abortCause_st _ _ _⟩
    · obtain ⟨t, q, ht, hq, hsaved, hbytes, ⟨rt, ncap, hk⟩, hpool⟩ := execRecoveryStart_frozen hf
      exact ⟨t, q, ht, hq, hsaved, hbytes, congrArg Core.inRecov hk, congrArg Core.nextPc hk, congrArg Core.x hk, hpool⟩
    · rw [exec_rdfrCore]
      simp [execRdfrCore, ok]
    · refine ⟨_, execThaw_resumes hk hg hr xd, rfl, ?_, ?_, rfl⟩
      · rw [State.stopRecovery_me]
      · rw [State.stopRecovery_run, State.run_modRun_same]
    · refine ⟨_, execAbort_of_run hk code, ?_, ?_, rfl, rfl⟩
      · rw [State.stopRecovery_me]
      · rw [State.stopRecovery_run, State.run_modRun_same]
    · obtain ⟨hst, htb, hcause, hpre, hpool, hpend⟩ := State.restartRun_frozen hf hc s.tick
      refine ⟨_, ?_, hst, htb, hcause, hpre, hpool, hpend⟩
      rw [exec_runRestart]
      simp only [execRunRestart, hi, ok]
      rfl
    · obtain ⟨t, ht, h⟩ := execAbortNotice_live hs hg hl tickA
      exact ⟨t, hp ▸ ht, h⟩
  · intro r ru
    refine ⟨fun he hy hg => ⟨_, execPreemptRequest_granted he hy hg, ?_, ?_, rfl, rfl⟩, execPreemptRequest_ignored,
      execPreemptFreeze_eq s, fun hf hc h38 hfree => ⟨fun hr => ⟨_, execPreemptResume_asks (Run.preempted_of hf hc h38) hfree hr, ?_,
        fun hx => ?_, fun x n k hx hcs hch => ?_⟩, fun u hr hu =>
        ⟨_, execPreemptResume_restarts (Run.preempted_of hf hc h38) hfree hr hu, ?_⟩⟩,
      fun pre c post hcs hpre hc => execYieldGapExpiry_first hcs hpre hc, execYieldGapExpiry_none⟩
    · rw [State.run_modRun_same]
    · rw [State.run_modRun_same]
    · exact congrArg Run.restartAt (State.run_modRun_same _ r _)
    · rw [State.loadContext_none hx]
      rfl
    · exact State.loadContext_core hx hcs hch
    · obtain ⟨hst, htb, -⟩ := State.restartRun_frozen hf hc s.tick
      exact ⟨hst, htb⟩

end Sys2Proof.Machine
end

section
namespace Sys2Proof.Machine

/-! ## LAUNCH_ANSWER of a partition without a function -/

theorem exec_launchAnswer (s : State) : exec .launchAnswer s = execLaunchAnswer s := rfl

/-- Without a function the queue's answer goes on as a step of the cycle at which the wait ends. -/
theorem execLaunchAnswer_unbound {s : State} (hv : (s.part (s.partOf s.ctx.core)).vf = none) (hi : s.ctx.idx = 0) :
    execLaunchAnswer s = .next (s.at s.ctx.core (s.me.launchBase + 4095)
      { ctx := { s.ctx with idx := 1 }, instr := .launchAnswer }) := by
  unfold execLaunchAnswer ok
  simp only [hv, hi]

/-- A step filed for the cycle in hand, or one gone by, once the engines have done the tick's work, is a step of the tick. -/
theorem State.at_now {s : State} {k c : Nat} (hs : 10 < s.sub) (hc : c ≤ (s.core k).cyc) (w : Work) :
    s.at k c w = { s with todo := s.todo ++ [w] } := by
  simp [State.at, hs, hc]

/-- Core 0, in no run, in the last cycle of its LAUNCH's wait, after the engines' part of the tick. -/
def lateLaunch : State := { sub := 11, cores := [(0, { cyc := 4096, waits := [{ base := 1, what := .launch }] })] }

/-- There the answer is filed with the steps of the tick, and the core's own list of steps stays empty. -/
theorem exec_launchAnswer_lateLaunch : exec .launchAnswer lateLaunch =
    .next { lateLaunch with todo := lateLaunch.todo ++ [{ ctx := { idx := 1 }, instr := .launchAnswer }] } := by
  rw [exec_launchAnswer, execLaunchAnswer_unbound rfl rfl, State.at_now (by decide) (by decide)]
  rfl

/-- Refutes O41: where the partition has no function the statement has the TIMEOUT filed in the core's list of steps whatever
the cycle in hand, but once the cycle in which the wait ends has come and the engines' part of the tick is past, as in
`lateLaunch`, `State.at` files it with the steps of the tick (log entry 1). The statement lacks a bound on the core's cycle. -/
theorem not_launchQueue : ¬ Obligations.LaunchQueue := by
  intro h
  obtain ⟨-, -, hnone, -⟩ := h lateLaunch 0 0 0 0 0 0 [] 0 0
  obtain ⟨t, ht, -, -, e, he, -⟩ := hnone rfl rfl
  obtain rfl := Host.Outcome.next.inj (exec_launchAnswer_lateLaunch.symm.trans ht)
  exact List.not_mem_nil (he : e ∈ [])

end Sys2Proof.Machine
end

section
namespace Sys2Proof

/-! ## Fields of concatenations

`bits_append_low` and `bits_append_high` as rules of `simp`, and the same for single bits. A concatenation of literal widths has a
literal width, which the sum of two unknown widths does not match in `simp`'s index; hence `no_index`. -/

@[simp] theorem bits_append_of_le {m n lo k : Nat} (x : BitVec m) (y : BitVec n) (h : lo + k ≤ n) :
    bits (no_index (x ++ y)) lo k = bits y lo k := bits_append_low x y lo k h

@[simp] theorem bits_append_of_ge {m n lo k : Nat} (x : BitVec m) (y : BitVec n) (h : n ≤ lo) :
    bits (no_index (x ++ y)) lo k = bits x (lo - n) k := bits_append_high x y lo k h

@[simp] theorem getElem_append_of_lt {m n i : Nat} (x : BitVec m) (y : BitVec n) (h : i < n) (h' : i < m + n) :
    @GetElem.getElem (no_index (BitVec (m + n))) Nat Bool _ _ (no_index (x ++ y)) i h' = y[i] := by
  rw [BitVec.getElem_append, dif_pos h]

@[simp] theorem getElem_append_of_ge {m n i : Nat} (x : BitVec m) (y : BitVec n) (h : n ≤ i) (h' : i < m + n) :
    @GetElem.getElem (no_index (BitVec (m + n))) Nat Bool _ _ (no_index (x ++ y)) i h' = x[i - n]'(by omega) := by
  rw [BitVec.getElem_append, dif_neg (Nat.not_lt.2 h)]

@[simp] theorem getElem_bit (b : Bool) : (bit b)[0] = b := by cases b <;> rfl

@[simp] theorem bit_false : bit false = 0#1 := rfl
@[simp] theorem bit_true : bit true = 1#1 := rfl

@[simp] theorem bits_ofNat (w v lo n : Nat) : bits (BitVec.ofNat w v) lo n = BitVec.ofNat n (v % 2 ^ w / 2 ^ lo) := by
  apply BitVec.eq_of_toNat_eq
  simp [bits, Nat.shiftRight_eq_div_pow]

theorem getLsbD_bits {w lo n i : Nat} (x : BitVec w) (h : i < n) : (bits x lo n).getLsbD i = x.getLsbD (lo + i) := by
  rw [bits, BitVec.getLsbD_extractLsb', decide_eq_true h, Bool.true_and]

theorem bits_bits {w lo n a k : Nat} (x : BitVec w) (h : a + k ≤ n) : bits (bits x lo n) a k = bits x (lo + a) k := by
  apply BitVec.eq_of_getLsbD_eq
  intro i hi
  rw [getLsbD_bits _ hi, getLsbD_bits _ hi, getLsbD_bits _ (by omega), Nat.add_assoc]

/-- A concatenation's number: the high part counts multiples of the low part's range. -/
theorem toNat_append_add {m n : Nat} (x : BitVec m) (y : BitVec n) : (no_index (x ++ y)).toNat = x.toNat * 2 ^ n + y.toNat := by
  rw [BitVec.toNat_append, ← Nat.shiftLeft_add_eq_or_of_lt y.isLt, Nat.shiftLeft_eq]

/-- A value in a wider field stays below the bound of its own width. -/
@[simp] theorem toNat_zero_append_lt {m n k : Nat} (x : BitVec n) (h : 2 ^ n ≤ k) : (no_index (0#m ++ x)).toNat < k := by
  simpa [toNat_append_add] using Nat.lt_of_lt_of_le x.isLt h

/-! ## Round trips -/

/-- The encoder gives the instruction a word, which the class's decoder gives back. -/
def RoundTrips (cls : Cls) (n : Nat) (i : Instr) : Prop :=
  ∃ b, encodeBody i = some b ∧ decodeBody cls n b = .ok i

/-- The guard's fields lie above the 59 bits that a class decodes (02_bundles.md R45), so a guard changes nothing. -/
theorem RoundTrips.syllable {cls : Cls} {n : Nat} {i : Instr} (h : RoundTrips cls n i) (gs : Bool) (gp : PReg) :
    ∃ w, encodeSyl ⟨gs, gp, i⟩ = some w ∧ decodeSyl cls n w = .ok ⟨gs, gp, i⟩ := by
  obtain ⟨b, he, hd⟩ := h
  refine ⟨bit gs ++ gp ++ b, by simp [encodeSyl, he], ?_⟩
  simp [decodeSyl, hd]

theorem enc_eq_ok {c : Bool} {i j : Instr} (hc : c = true) (hi : j = i) : enc c j = .ok i := by
  rw [enc, if_pos hc, hi]

theorem encO_eq_ok {α : Type} {o : Option α} {a : α} {c : Bool} {f : α → Instr} {i : Instr} (ho : o = some a) (hc : c = true)
    (hi : f a = i) : encO o c f = .ok i := by
  subst ho
  exact enc_eq_ok hc hi

/-! ## Class S -/

/-- A packed word's fields are the ones packed (`SF_of_packS`): what is left is the decoder on these fields. -/
theorem roundTrips_packS {n : Nat} {i : Instr} {op : BitVec 8} {d a b : BitVec 5} {v : BitVec 4} {imm : BitVec 32}
    (he : encodeBody i = some (packS op d a b v imm)) (hd : decodeS ⟨op, d, a, b, v, imm⟩ = .ok i) : RoundTrips .s n i :=
  ⟨_, he, by simpa [decodeBody] using hd⟩

theorem roundTrips_ldf {n : Nat} {d a : XReg} {acq : Option Scope} {sign : Bool} {z : BitVec 2} {imm : BitVec 32}
    (hw : (Instr.ldf d a acq sign z imm).wf n = true) : RoundTrips .s n (.ldf d a acq sign z imm) := by
  cases acq <;> exact roundTrips_packS rfl (enc_eq_ok (by simpa [Instr.wf] using hw) (by simp))

theorem roundTrips_stf {n : Nat} {a b : XReg} {rel : Option Scope} {z : BitVec 2} {imm : BitVec 32} :
    RoundTrips .s n (.stf a b rel z imm) := by
  cases rel <;> exact roundTrips_packS rfl (enc_eq_ok (by simp) (by simp))

theorem roundTrips_phase {n : Nat} {a : XReg} {elastic hold : Bool} {mask : BitVec 4} {k : BitVec 5}
    (hw : (Instr.phase a elastic mask k hold).wf n = true) : RoundTrips .s n (.phase a elastic mask k hold) := by
  cases elastic with
  | true => exact roundTrips_packS rfl (enc_eq_ok (by simpa [Instr.wf] using hw) (by simp))
  | false =>
    obtain ⟨rfl, rfl⟩ : k = 0 ∧ hold = false := by simpa [Instr.wf] using hw
    exact roundTrips_packS rfl (enc_eq_ok (by simp) (by simp))

theorem roundTrips_wait {n : Nat} {kind : WaitKind} {d a b : XReg} {imm : BitVec 32}
    (hw : (Instr.wait kind d a b imm).wf n = true) : RoundTrips .s n (.wait kind d a b imm) := by
  cases kind with
  | lcyc | pcc => exact roundTrips_packS rfl (enc_eq_ok (by simpa [Instr.wf] using hw) rfl)
  | tag => exact roundTrips_packS rfl rfl

/-- Every well-formed class S instruction round-trips: by its fields alone where they are operands and zeros, else by reading the fields
inside the variant and the immediate, and by what `wf` says of them. -/
theorem roundTrips_s (i : Instr) (n : Nat) (hk : i.kind = .syl .s) (hw : i.wf n = true) : RoundTrips .s n i := by
  cases i with
  | add | sub | mul | and | or | xor | andn | shl | shr | sha | rot | addi | subi | muli | andi | ori | xori | clz | ctz | popc
  | sel | lih | pmovGet | pmovPut | br | bri | call | calli | tend | nop | trap | brk | launch | thaw | abort =>
    exact roundTrips_packS rfl rfl
  | mulh _ _ _ nat | div _ _ _ nat | rem _ _ _ nat | min _ _ _ nat | max _ _ _ nat | li _ nat _ =>
    cases nat <;> exact roundTrips_packS rfl rfl
  | rdpod _ v | slew _ v => cases v <;> exact roundTrips_packS rfl rfl
  | shli | shri | shai | roti | rdsr | wrsr | tkwait | barArr | barWait | barAw | rdfrCore | rdfrCause | lea | st | ldk | amo | fence
  | pand | por | pxor | pnot | pmov =>
    exact roundTrips_packS rfl (enc_eq_ok (by simp) (by simp))
  | cmp | cmpi => exact roundTrips_packS rfl (encO_eq_ok (Cond_dec_code _) (by simp) (by simp))
  | amol => exact roundTrips_packS rfl (encO_eq_ok (AmolOp_dec_code _) (by simp) (by simp))
  | bfi | ld | loop | loopi | pushm | popm =>
    exact roundTrips_packS rfl (enc_eq_ok (by simpa [Instr.wf] using hw) (by simp))
  | bfx _ _ sign | wfld _ sign =>
    cases sign <;> exact roundTrips_packS rfl (enc_eq_ok (by simpa [Instr.wf, toNat_append_add] using hw) (by simp))
  | ldf => exact roundTrips_ldf hw
  | stf => exact roundTrips_stf
  | phase => exact roundTrips_phase hw
  | wait => exact roundTrips_wait hw
  | _ => cases hk

/-! ## Class V -/

theorem add_ne_of_lt {a b c : Nat} (h : c < a) : a + b ≠ c := by omega

theorem not_add_lt_of_le {a b c : Nat} (h : c ≤ a) : ¬ a + b < c := by omega

/-- Operand B beside a form's own value in imm20, 06_vector.md R170, R173: its code alone, or with the field it shares, gives it back. -/
theorem OpB_dec_code_shared {n : Nat} {b : OpB} {i : BitVec 20} (hw : b.wf n = true) (hs : b.shares i = true) :
    OpB.dec n true b.code i = some b := by
  cases b with
  | v r => simp [OpB.dec, OpB.code]
  | lit k =>
    have hk : 64 + k.toNat < 72 := by have := k.isLt; omega
    have hn : k.toNat < n := by simpa [OpB.wf] using hw
    simp [OpB.dec, OpB.code, toNat_append_add, hk, hn]
  | imm k =>
    obtain rfl : k = i := by simpa [OpB.shares] using hs
    simp [OpB.dec, OpB.code]
  | win w j =>
    obtain rfl : 0#8 ++ j = i := by simpa [OpB.shares] using hs
    have hk : 80 + w.toNat < 88 := by have := w.isLt; omega
    simp [OpB.dec, OpB.code, toNat_append_add, hk, add_ne_of_lt, not_add_lt_of_le]
  | x r => simp [OpB.dec, OpB.code, toNat_append_add, add_ne_of_lt, not_add_lt_of_le]

@[simp] theorem baseReg_append (r : XReg) : baseReg (3#2 ++ r) = some r := by
  simp [baseReg, toNat_append_add]

@[simp] theorem tcField_tcBits (tc : Option XReg) : tcField (tcBits tc) = some tc := by
  cases tc <;> simp [tcField, tcBits]

theorem roundTrips_packV {n : Nat} {i : Instr} {op : BitVec 7} {vd va : BitVec 6} {b : BitVec 7} {vc : BitVec 6} {ty : BitVec 4}
    {q : BitVec 3} {imm : BitVec 20} (he : encodeBody i = some (packV op vd va b vc ty q imm))
    (hd : decodeV n ⟨op, vd, va, b, vc, ty, q, imm⟩ = .ok i) : RoundTrips .v n i :=
  ⟨_, he, by simpa [decodeBody] using hd⟩

theorem decBin_code {n : Nat} {op : BitVec 7} {f : VBin} {g : VTy → Bool} {k : VBin → Instr} (ht : g f.t = true)
    (hb : f.b.wf n = true) :
    decBin n ⟨op, f.vd, f.va, f.b.code, 0, f.t.code, f.q, f.b.field⟩ g k = .ok (k f) := by
  simp [decBin, tyIn_code g f.t ht, OpB_dec_code n f.b hb, enc]

theorem decTri_code {n : Nat} {op : BitVec 7} {f : VTri} {k : VTri → Instr} (ht : f.t.isFp = true) (hb : f.b.wf n = true) :
    decTri n ⟨op, f.vd, f.va, f.b.code, f.vc, f.t.code, f.q, f.b.field⟩ k = .ok (k f) := by
  simp [decTri, tyIn_code _ f.t ht, OpB_dec_code n f.b hb]

theorem decUn_code {op : BitVec 7} {f : VUn} {g : VTy → Bool} {k : VUn → Instr} (ht : g f.t = true) :
    decUn ⟨op, f.vd, f.va, 0, 0, f.t.code, f.q, 0⟩ g k = .ok (k f) := by
  simp [decUn, tyIn_code g f.t ht, enc]

theorem VCond.code_lt_six {c : VCond} (hu : c ≠ .un) (ho : c ≠ .ord) : c.code.toNat < 6 := by
  cases c <;> trivial

theorem decCmp_code {n : Nat} {op : BitVec 7} {f : VCmp} {g : VTy → Bool} {fp : Bool} {k : VCmp → Instr} (ht : g f.t = true)
    (hb : f.b.wf n = true) (hc : fp = true ∨ f.cond.code.toNat < 6) :
    decCmp n ⟨op, 0#3 ++ f.qd, f.va, f.b.code, f.cond.code, f.t.code, f.q, f.b.field⟩ g fp k = .ok (k f) := by
  simp [decCmp, tyIn_code g f.t ht, OpB_dec_code n f.b hb, enc, hc]

theorem roundTrips_cvt {n : Nat} {f : VCvt} (hw : (Instr.cvt f).wf n = true) : RoundTrips .v n (.cvt f) := by
  obtain ⟨hpart, hround⟩ := Bool.and_eq_true_iff.1 hw
  have hsr : f.sr = true → ¬ f.d = .bf16 → ¬ f.d = .f16 → f.d.isB8 = true := by
    intro h
    simpa [h, or_assoc, or_iff_not_imp_left] using hround
  exact roundTrips_packV rfl (by simpa [decodeV, enc] using ⟨by simpa using hpart, hsr⟩)

/-- Every well-formed class V instruction round-trips, form by form: 02_bundles.md Table 2.9. -/
theorem roundTrips_v (i : Instr) (n : Nat) (hk : i.kind = .syl .v) (hw : i.wf n = true) : RoundTrips .v n i := by
  cases i with
  | vnop => exact roundTrips_packV rfl rfl
  | fadd f | fsub f | fmul f | fmin f | fmax f | iadd f | isub f | imul f | imulh f | imin f | imax f | vand f | vor f | vxor f
  | vshl f | vshr f | vsha f | iadds f | isubs f | vhash f =>
    obtain ⟨ht, hb⟩ := Bool.and_eq_true_iff.1 hw
    exact roundTrips_packV rfl (decBin_code ht hb)
  | perm f => exact roundTrips_packV rfl (decBin_code rfl hw)
  | fma f | fms f | fnma f =>
    obtain ⟨ht, hb⟩ := Bool.and_eq_true_iff.1 hw
    exact roundTrips_packV rfl (decTri_code ht hb)
  | fabs f | fneg f | frcp f | frsq f | fexp2 f | flog2 f | iabs f | vpopc f | vclz f | rsum f | rmin f | rmax f | rmini f | scan f =>
    exact roundTrips_packV rfl (decUn_code hw)
  | fcmp f =>
    obtain ⟨ht, hb⟩ := Bool.and_eq_true_iff.1 hw
    exact roundTrips_packV rfl (decCmp_code ht hb (.inl rfl))
  | icmp f =>
    obtain ⟨⟨⟨ht, hb⟩, hu⟩, ho⟩ : ((f.t.isInt = true ∧ f.b.wf n = true) ∧ f.cond ≠ .un) ∧ f.cond ≠ .ord := by
      simpa [Instr.wf] using hw
    exact roundTrips_packV rfl (decCmp_code ht hb (.inr (VCond.code_lt_six hu ho)))
  | qand | qor | qxor | qnot => exact roundTrips_packV rfl (enc_eq_ok (by simp) (by simp))
  | vmov f | vsel f => exact roundTrips_packV rfl (by simp [decodeV, OpB_dec_code n f.b hw, enc])
  | viota f =>
    obtain ⟨ht, hb⟩ := Bool.and_eq_true_iff.1 hw
    exact roundTrips_packV rfl (by simp [decodeV, tyIn_code _ f.t ht, OpB_dec_code n f.b hb, enc])
  | zip f | unzip f =>
    obtain ⟨hb, hs⟩ := Bool.and_eq_true_iff.1 hw
    exact roundTrips_packV rfl (by simp [decodeV, OpB_dec_code_shared hb hs, enc])
  | vins f =>
    obtain ⟨hbs, hl⟩ := Bool.and_eq_true_iff.1 hw
    obtain ⟨hb, hs⟩ := Bool.and_eq_true_iff.1 hbs
    exact roundTrips_packV rfl (by simpa [decodeV, OpB_dec_code_shared hb hs, enc, laneOk] using hl)
  | rotl f | bcast f | vext => exact roundTrips_packV rfl (by simpa [decodeV, enc, laneOk, Instr.wf] using hw)
  | vgathk f => exact roundTrips_packV rfl (by simp [decodeV, enc, tyIn_code VTy.isInt f.t hw])
  | vld | vlds | vsts | vgath | spush | spop | scnt | qpopMask | qfirst | qany =>
    exact roundTrips_packV rfl (by simp [decodeV, enc])
  | vst f | vscat f =>
    have htc : f.tc = none := Option.isNone_iff_eq_none.1 hw
    exact roundTrips_packV rfl (by simp [decodeV, enc, ← htc])
  | cvt => exact roundTrips_cvt hw
  | _ => cases hk

/-! ## Classes M and Z -/

theorem roundTrips_packM {n : Nat} {i : Instr} {op : BitVec 8} {d a b : BitVec 4} {acc : BitVec 3} {v : BitVec 4} {imm : BitVec 32}
    (he : encodeBody i = some (packM op d a b acc v imm)) (hd : decodeM ⟨op, d, a, b, acc, v, imm⟩ = .ok i) : RoundTrips .m n i :=
  ⟨_, he, by simpa [decodeBody] using hd⟩

theorem roundTrips_m (i : Instr) (n : Nat) (hk : i.kind = .syl .m) (hw : i.wf n = true) : RoundTrips .m n i := by
  cases i with
  | mnop | mst | macs | mtrn => exact roundTrips_packM rfl rfl
  | mma | mmat | mlda => exact roundTrips_packM rfl (enc_eq_ok (by simp) (by simp))
  | mzero | mcvt => exact roundTrips_packM rfl (enc_eq_ok (by simpa [Instr.wf] using hw) (by simp))
  | mld _ tc => cases tc <;> exact roundTrips_packM rfl (enc_eq_ok (by simp) (by simp))
  | _ => cases hk

theorem roundTrips_packZ {n : Nat} {i : Instr} {op : BitVec 8} {va : BitVec 6} {idx : BitVec 4} {imm : BitVec 32}
    (he : encodeBody i = some (packZ op va idx imm)) (hd : decodeZ ⟨op, va, idx, 0, 0, imm⟩ = .ok i) : RoundTrips .z n i :=
  ⟨_, he, by simpa [decodeBody] using hd⟩

theorem roundTrips_z (i : Instr) (n : Nat) (hk : i.kind = .syl .z) (hw : i.wf n = true) : RoundTrips .z n i := by
  cases i with
  | znop => exact roundTrips_packZ rfl rfl
  | zscla | zsclb | ztab => exact roundTrips_packZ rfl (enc_eq_ok (by simp) (by simp))
  | zfmt => exact roundTrips_packZ rfl (enc_eq_ok hw rfl)
  | zfsel => exact roundTrips_packZ rfl (enc_eq_ok (by simpa [Instr.wf] using hw) (by simp))
  | _ => cases hk

/-! ## Class C -/

theorem roundTrips_packC {n : Nat} {i : Instr} {op : BitVec 8} {xa xb xc : BitVec 5} {fl : BitVec 8} {imm : BitVec 28}
    (he : encodeBody i = some (packC op xa xb xc fl imm)) (hd : decodeC n ⟨op, xa, xb, xc, fl, imm⟩ = .ok i) : RoundTrips .c n i :=
  ⟨_, he, by simpa [decodeBody] using hd⟩

/-- The flag bits 7 to 5 of a word whose upper six bits are `foDecBits` hold the follow-on pair. -/
theorem foField_of_bits {n : Nat} {fl : BitVec 8} {fo dec : Option (BitVec 2)} (hfl : bits fl 2 6 = foDecBits fo dec)
    (hfo : foWf n fo = true) : foField n fl = some fo := by
  have hon : fl.getLsbD 7 = (foDecBits fo dec).getLsbD 5 := by rw [← hfl, getLsbD_bits _ (by decide)]
  have hpair : bits fl 5 2 = bits (foDecBits fo dec) 3 2 := by rw [← hfl, bits_bits _ (by decide)]
  rw [foField, hon, hpair]
  cases fo with
  | none => simp [foDecBits]
  | some p =>
    have hp : 2 * p.toNat + 2 ≤ n := by simpa [foWf] using hfo
    simp [foDecBits, hp]

/-- The flag bits 4 to 2 of a word whose upper six bits are `foDecBits` hold the decode slot. -/
theorem decField_of_bits {fl : BitVec 8} {fo dec : Option (BitVec 2)} (hfl : bits fl 2 6 = foDecBits fo dec) :
    decField fl = some dec := by
  have hon : fl.getLsbD 4 = (foDecBits fo dec).getLsbD 2 := by rw [← hfl, getLsbD_bits _ (by decide)]
  have hslot : bits fl 2 2 = bits (foDecBits fo dec) 0 2 := by rw [← hfl, bits_bits _ (by decide)]
  rw [decField, hon, hslot]
  cases dec <;> simp [foDecBits]

theorem bits_foDecBits_none (fo : Option (BitVec 2)) : bits (foDecBits fo none) 0 3 = 0 := by
  cases fo with
  | none => rfl
  | some p => revert p; decide

theorem roundTrips_cpl {n : Nat} {a : CplArgs} (hw : (Instr.cpl a).wf n = true) : RoundTrips .c n (.cpl a) := by
  obtain ⟨⟨⟨hn, hle⟩, hfo⟩, hdec⟩ :
      ((a.n ≠ 0 ∧ a.n.toNat ≤ 0x180000) ∧ foWf n a.fo = true) ∧ (a.dec = none ∨ bits a.n 0 12 = 0) := by
    simpa [Instr.wf] using hw
  have hfl : bits (foDecBits a.fo a.dec ++ 0#2) 2 6 = foDecBits a.fo a.dec := by simp
  exact roundTrips_packC rfl (by
    simpa [decodeC, foField_of_bits hfl hfo, decField_of_bits hfl, enc, and_assoc] using ⟨hn, hle, or_iff_not_imp_left.1 hdec⟩)

theorem roundTrips_cpv {n : Nat} {a : CpvArgs} (hw : (Instr.cpv a).wf n = true) : RoundTrips .c n (.cpv a) := by
  obtain ⟨⟨⟨hm, hsp⟩, hfo⟩, hne⟩ : ((a.m ≠ 0 ∧ 2 * a.sp.toNat + 2 ≤ n) ∧ foWf n a.fo = true) ∧ a.fo ≠ some a.sp := by
    simpa [Instr.wf] using hw
  have hfl : bits (foDecBits a.fo none ++ a.sp) 2 6 = foDecBits a.fo none := by simp
  exact roundTrips_packC rfl (by
    simpa [decodeC, foField_of_bits hfl hfo, bits_foDecBits_none, enc, and_assoc] using ⟨hm, hsp, hne⟩)

theorem roundTrips_chr {n : Nat} {a : ChrArgs} (hw : (Instr.chr a).wf n = true) : RoundTrips .c n (.chr a) := by
  obtain ⟨⟨⟨hn, hfo⟩, hs⟩, hl⟩ :
      ((a.n ≠ 0 ∧ foWf n a.fo = true) ∧ (a.dec = none ∨ a.s = false)) ∧ (a.s = true ∨ a.l = false) := by
    simpa [Instr.wf] using hw
  have hfl : bits (foDecBits a.fo a.dec ++ bit a.s ++ bit a.l) 2 6 = foDecBits a.fo a.dec := by simp
  exact roundTrips_packC rfl (by
    simpa [decodeC, foField_of_bits hfl hfo, decField_of_bits hfl, enc, and_assoc] using ⟨hs, hl, hn⟩)

theorem Route.code_ne_three (r : Route) : r.code ≠ 3#2 := by cases r <;> decide

theorem Route.of_code (r : Route) :
    (if r.code = 0#2 then Route.light else if r.code = 1#2 then Route.wire else Route.auto) = r := by
  cases r <;> rfl

theorem roundTrips_qsend {n : Nat} {a : QsendArgs} (hw : (Instr.qsend a).wf n = true) : RoundTrips .c n (.qsend a) :=
  roundTrips_packC rfl (enc_eq_ok (by simpa [Instr.wf, Route.code_ne_three] using hw) (by simp [Route.of_code]))

/-- The operands of a spill or fill are the fields of its flags and immediate. -/
theorem spillArgs_of_fields (op : BitVec 8) (a : SpillArgs) :
    decodeC.spillArgs ⟨op, a.xa, 0, 0, spillFlags a, spillImm a⟩ = a := by
  simp [decodeC.spillArgs, spillFlags, spillImm]

theorem spillOk_of_wf {n : Nat} {a : SpillArgs} (hw : (Instr.spb a).wf n = true) :
    (bits (spillFlags a) 0 4 == 0 && decodeC.spillOk ((spillFlags a).getLsbD 7) (spillImm a)) = true := by
  simpa [Instr.wf, decodeC.spillOk, spillFlags, spillImm] using hw

theorem roundTrips_c (i : Instr) (n : Nat) (hk : i.kind = .syl .c) (hw : i.wf n = true) : RoundTrips .c n i := by
  cases i with
  | cnop | cpi | qpopCask | qapp => exact roundTrips_packC rfl rfl
  | drainMark | drainPoll | drainRelease => exact roundTrips_packC rfl (by simp [decodeC, enc])
  | dtab => exact roundTrips_packC rfl (enc_eq_ok (by simp) (by simp))
  | lrecv | esend | emcast | lsend => exact roundTrips_packC rfl (enc_eq_ok (by simpa [Instr.wf] using hw) (by simp))
  | chw => exact roundTrips_packC rfl (enc_eq_ok (by simpa [Instr.wf, and_comm] using hw) (by simp))
  | cpl => exact roundTrips_cpl hw
  | cpv => exact roundTrips_cpv hw
  | chr => exact roundTrips_chr hw
  | qsend => exact roundTrips_qsend hw
  | spb a | fla a => exact roundTrips_packC rfl (enc_eq_ok (spillOk_of_wf (n := n) hw) (by rw [spillArgs_of_fields]))
  | _ => cases hk

/-! ## The statements -/

/-- Settles O53: a class S syllable survives its word by `roundTrips_s`, and its guard by `RoundTrips.syllable`. -/
theorem scalarRoundTrip : Obligations.ScalarRoundTrip := by
  intro i n gs gp hk hw
  exact (roundTrips_s i n hk hw).syllable gs gp

/-- Settles O54, class by class. -/
theorem vectorMatrixCopyRoundTrip : Obligations.VectorMatrixCopyRoundTrip := by
  intro i cls n gs gp hs hk hw
  refine RoundTrips.syllable ?_ gs gp
  cases cls with
  | s => exact absurd rfl hs
  | v => exact roundTrips_v i n hk hw
  | m => exact roundTrips_m i n hk hw
  | z => exact roundTrips_z i n hk hw
  | c => exact roundTrips_c i n hk hw

end Sys2Proof
end

section
namespace Sys2Proof.Machine

/-! ## x0, p0 and q0, 02_bundles.md R48 -/

theorem Core.xr_zero (k : Core) : k.xr 0 = 0 := rfl

theorem Core.pr_zero (k : Core) : k.pr 0 = true := rfl

theorem Core.qr_zero (k : Core) : k.qr 0 = BitVec.allOnes 256 := rfl

theorem State.apply_x_zero (s : State) (c : Nat) (v : X) : s.apply (.x c 0 v) = s := rfl

theorem State.apply_q_zero (s : State) (c : Nat) (m : Mask) : s.apply (.q c 0 m) = s := rfl

theorem State.deferP_zero (s : State) (b : Bool) : s.deferP 0 b = s := rfl

theorem State.deferP_of_ne (s : State) {d : PReg} (hd : d ≠ 0) (b : Bool) :
    s.deferP d b = s.defer 0 (.p s.ctx.core (s.me.pphys d) b) := if_neg hd

/-- Two syllables that name one destination conflict in the later one's slot, 02_bundles.md R57. -/
theorem slotConflict_same_dest (t u : Slot) (d : Dest) : slotConflict [(t, [d]), (u, [d])] = some u := by
  simp [slotConflict]

/-- Settles O57. -/
theorem hardwiredRegisters : Obligations.HardwiredRegisters := by
  intro s k v m b c
  refine ⟨k.xr_zero, k.pr_zero, k.qr_zero, s.apply_x_zero c v, s.deferP_zero b, s.apply_q_zero c m, ?_⟩
  intro d e f xa xb t va i q g h
  exact ⟨slotConflict_same_dest .s .v0 (.x d), slotConflict_same_dest .s .v0 (.p e), slotConflict_same_dest .v0 .v1 (.q f)⟩

/-! ## Operand B -/

theorem State.withB_win_unbound {s : State} {w : BitVec 3} {i : BitVec 12} (h : s.window w.toNat i.toNat = none) (t : VTy)
    (k : State → List Nat → State) : s.withB t (.win w i) k = s.raise .unboundWindow 0 0 := by
  simp only [State.withB, h]

theorem State.withB_win_bound {s : State} {w : BitVec 3} {i : BitVec 12} {v e : Nat} {oob : Bool}
    (h : s.window w.toNat i.toNat = some (v, e, oob)) (t : VTy) (k : State → List Nat → State) :
    s.withB t (.win w i) k =
      k (if oob then s.defer 0 (.stat s.ctx.core 1) else s) (List.replicate t.lanes (windowLane t s.me.fmtNow e v)) := by
  simp only [State.withB, h]

theorem bits_low_eq_ofNat {w : Nat} (x : BitVec w) (n : Nat) : bits x 0 n = BitVec.ofNat n x.toNat := by
  apply BitVec.eq_of_toNat_eq
  simp [bits]

theorem imm20Src_int {t : VTy} (h : t.isInt = true) (m : BitVec 20) : imm20Src t m = m.signExtend 32 := if_pos h

theorem imm20Src_fp {t : VTy} (h : t.isInt = false) (m : BitVec 20) : imm20Src t m = m ++ 0#12 := by
  rw [imm20Src, h]
  rfl

/-- Settles O9, form by form. -/
theorem operandBForms : Obligations.OperandBForms := by
  intro s t k r x i w j m
  refine ⟨rfl, ?_, rfl, fun h => ?_, fun h => ?_, fun h => State.withB_win_unbound h t k, fun v e h => State.withB_win_bound h t k,
    fun v e h => State.withB_win_bound h t k⟩
  · rw [← bits_low_eq_ofNat]
    rfl
  · rw [← imm20Src_int h]
    rfl
  · rw [← imm20Src_fp h]
    rfl

/-! ## Predicates -/

/-- Bits added up with their weights. -/
def bitSum (f : Nat → Bool) (n : Nat) : Nat := ((List.range n).map fun i => (f i).toNat * 2 ^ i).foldl (· + ·) 0

theorem bitSum_succ (f : Nat → Bool) (n : Nat) : bitSum f (n + 1) = 2 ^ n * (f n).toNat + bitSum f n := by
  simp [bitSum, List.range_succ, List.foldl_append, Nat.add_comm, Nat.mul_comm]

theorem bitSum_lt (f : Nat → Bool) (n : Nat) : bitSum f n < 2 ^ n := by
  induction n with
  | zero => exact Nat.one_pos
  | succ n ih =>
    rw [bitSum_succ, Nat.pow_succ]
    cases f n <;> simp <;> omega

theorem testBit_bitSum (f : Nat → Bool) {n i : Nat} (h : i < n) : (bitSum f n).testBit i = f i := by
  induction n with
  | zero => exact absurd h (Nat.not_lt_zero i)
  | succ n ih =>
    rw [bitSum_succ, Nat.testBit_two_pow_mul_add _ (bitSum_lt f n)]
    obtain hi | rfl := Nat.lt_succ_iff_lt_or_eq.1 h
    · rw [if_pos hi, ih hi]
    · rw [if_neg (lt_irrefl i), Nat.sub_self, Nat.testBit_zero]
      cases f i <;> rfl

/-- Bit i of the word that PMOV.get reads is predicate p`i`. -/
theorem Core.predBits_getLsbD (k : Core) (i : PReg) : (BitVec.ofNat 64 k.predBits).getLsbD i.toNat = k.pr i := by
  have hi : i.toNat < 16 := i.isLt
  have hbit : k.predBits.testBit i.toNat = k.pr (BitVec.ofNat 4 i.toNat) :=
    testBit_bitSum (fun j => k.pr (BitVec.ofNat 4 j)) hi
  rw [BitVec.getLsbD_ofNat, hbit, BitVec.ofNat_toNat, BitVec.setWidth_eq, decide_eq_true (by omega), Bool.true_and]

/-- Writes of predicates other than p0, one after another, leave their pending writes in that order and nothing else. -/
theorem State.foldl_deferP (s : State) (p : Nat → PReg) (v : Nat → Bool) (is : List Nat) (hp : ∀ i ∈ is, p i ≠ 0) :
    ∀ ws, is.foldl (fun t i => t.deferP (p i) (v i)) { s with pend := ws } =
      { s with pend := ws ++ is.map fun i => s.writeOf 0 (.p s.ctx.core (s.me.pphys (p i)) (v i)) } := by
  induction is with
  | nil => intro ws; simp
  | cons i is ih =>
    intro ws
    rw [List.foldl_cons, State.deferP_of_ne _ (hp i List.mem_cons_self), List.map_cons, List.append_cons]
    exact ih (fun j hj => hp j (List.mem_cons_of_mem i hj)) _

/-- PMOV.put writes p1 to p15 at the end of c0, 04_cycles.md R120. -/
theorem execPmovPut_eq (a : XReg) (s : State) : execPmovPut a s = .next { s with
    pend := s.pend ++ (List.range 15).map fun i =>
      s.writeOf 0 (.p s.ctx.core (s.me.pphys (BitVec.ofNat 4 (i + 1))) ((s.xr a).getLsbD (i + 1))) } := by
  have hp : ∀ i ∈ List.range 15, BitVec.ofNat 4 (i + 1) ≠ 0 := by decide
  exact congrArg Host.Outcome.next (s.foldl_deferP _ (fun i => (s.xr a).getLsbD (i + 1)) _ hp s.pend)

theorem condOf_lt_sext (a : X) (imm : BitVec 32) : condOf .lt a (sext imm) = decide (a.toInt < imm.toInt) := by
  rw [condOf, sext, BitVec.slt, BitVec.toInt_signExtend_of_le (by decide)]

/-- Settles O3: every form but PMOV.get and PMOV.put is one `deferP` of its value. -/
theorem predicateResults : Obligations.PredicateResults := by
  intro s d p q a b xd imm np nq
  refine ⟨fun c => ⟨rfl, rfl⟩, rfl, rfl, fun hd => ?_, ⟨_, rfl, s.me.predBits_getLsbD⟩, ⟨_, execPmovPut_eq a s, rfl, rfl, rfl⟩⟩
  have hw : ∀ v, Host.Outcome.next (φ := Fault) (ρ := Refusal) (s.deferP d v) = .next (s.defer 0 (.p s.ctx.core (s.me.pphys d) v)) :=
    fun v => congrArg Host.Outcome.next (s.deferP_of_ne hd v)
  have hlt : exec (.cmpi .lt d a imm) s = .next (s.defer 0 (.p s.ctx.core (s.me.pphys d) (decide ((s.xr a).toInt < imm.toInt)))) := by
    rw [← hw, ← condOf_lt_sext]
    rfl
  exact ⟨hw _, hw _, hw _, hw _, hw _, hw _, hw _, hw _, hw _, hw _, hw _, hw _, hlt, hw _, hw _, hw _, hw _, hw _, hw _⟩

/-! ## TRAP and BRK -/

/-- Word 0 of the trap record of a resumable fault: its code, the bit of a record and the bit of a resumable one, 16_faults.md
Table 16.2. -/
theorem trapWord0_resumable (delay eng : Bool) (slot head core : Nat) {code : Nat} (h : code < 256) :
    (trapWord0 code true false 0 slot head core delay eng).toNat % 256 = code ∧
    (trapWord0 code true false 0 slot head core delay eng).getLsbD 8 = true ∧
    (trapWord0 code true false 0 slot head core delay eng).getLsbD 9 = true := by
  have hlow : (trapWord0 code true false 0 slot head core delay eng).toNat % 1024 = 512 + 256 + code := by
    simp only [trapWord0, BitVec.toNat_ofNat, Bool.toNat_true]
    omega
  simp only [BitVec.getLsbD, Nat.testBit_eq_decide_div_mod_eq, decide_eq_true_eq]
  omega

/-- A resumable fault of the syllable in hand, on a core of a run that has not faulted and whose record is free: the core stops with
its record, and no register or byte changes. -/
theorem State.raise_resumable {s : State} {r : Nat} {f : FCode} (w2 : X) (hr : s.me.run = some r) (hf : s.me.faulted = none)
    (hv : s.me.inRecov = false) (hfree : s.me.trap.w0.getLsbD 8 = false) (hg : (s.run r).last.gang = false)
    (hres : f.resumable = true) (hnum : f.num < 256) :
    let t := s.raise f w2 0
    t.me.seq = .stopped ∧ t.me.trap.w2 = w2 ∧
      (t.me.trap.w0.toNat % 256 = f.num ∧ t.me.trap.w0.getLsbD 8 = true ∧ t.me.trap.w0.getLsbD 9 = true) ∧
      t.me.trap.w4 = s.me.resumeWord ∧ t.me.x = s.me.x ∧ t.me.p = s.me.p ∧ t.pool = s.pool ∧ t.pend = s.pend := by
  intro t
  obtain ⟨hx, hp, -, hpool, -, -, -, hpend, hctx, -⟩ := s.raise_keeps f w2 0
  have hme : t.me = _ := (congrArg t.core (congrArg Ctx.core hctx)).trans (s.raiseOn_core f s.src w2 0 hr hf hv)
  have htrap : t.me.trap = _ := (congrArg Core.trap hme).trans (if_neg (Bool.eq_false_iff.1 hfree))
  rw [hres, hg] at htrap
  refine ⟨congrArg Core.seq hme, congrArg Trap.w2 htrap, ?_, congrArg Trap.w4 htrap, hx, hp, hpool, hpend⟩
  rw [htrap]
  exact trapWord0_resumable s.src.delay s.src.eng s.src.slot s.src.head s.ctx.core hnum

/-- Settles O7. -/
theorem nopsAndTrap : Obligations.NopsAndTrap := by
  refine ⟨fun s => ⟨rfl, rfl, rfl, rfl, rfl⟩, ?_⟩
  intro s imm r hr hf hv hn _ hg _ _
  exact ⟨⟨_, rfl, State.raise_resumable _ hr hf hv hn hg rfl (by decide)⟩, ⟨_, rfl, State.raise_resumable _ hr hf hv hn hg rfl (by decide)⟩⟩

end Sys2Proof.Machine
end

section
namespace Sys2Proof.Machine

/-! ## Scalar arithmetic -/

/-- Equal values give equal writes of xd. -/
theorem next_deferX {s : State} {n : Nat} {d : XReg} {v w : X} (h : v = w) :
    ok (s.deferX n d v) = .next (s.deferX n d w) := h ▸ rfl

theorem mul_eq_ofNat (x y : X) : x * y = BitVec.ofNat 64 (x.toNat * y.toNat) := by
  rw [BitVec.ofNat_mul, BitVec.ofNat_toNat, BitVec.ofNat_toNat, BitVec.setWidth_eq, BitVec.setWidth_eq]

theorem shiftLeft_eq_ofNat (x : X) (n : Nat) : x <<< n = BitVec.ofNat 64 (x.toNat * 2 ^ n) := by
  apply BitVec.eq_of_toNat_eq
  rw [BitVec.toNat_shiftLeft, BitVec.toNat_ofNat, Nat.shiftLeft_eq]

theorem ushiftRight_eq_ofNat (x : X) (n : Nat) : x >>> n = BitVec.ofNat 64 (x.toNat / 2 ^ n) := by
  apply BitVec.eq_of_toNat_eq
  rw [BitVec.toNat_ushiftRight, BitVec.toNat_ofNat, Nat.shiftRight_eq_div_pow]
  exact (Nat.mod_eq_of_lt (Nat.lt_of_le_of_lt (Nat.div_le_self _ _) x.isLt)).symm

theorem sshiftRight_eq_ofInt (x : X) (n : Nat) : x.sshiftRight n = BitVec.ofInt 64 (x.toInt / 2 ^ n) := by
  rw [BitVec.sshiftRight, Int.shiftRight_eq_div_pow]
  norm_cast

theorem rotateLeft_eq_or (x : X) {n : Nat} (h : n < 64) : x.rotateLeft n = x <<< n ||| x >>> (64 - n) := by
  rw [BitVec.rotateLeft, BitVec.rotateLeftAux, Nat.mod_eq_of_lt h]

theorem shiftOf_lt (b : X) : shiftOf b < 64 := Nat.mod_lt _ (by decide)

/-- Settles O1: each instruction is one `deferX` of its value; the lemmas above give the values by numbers. -/
theorem scalarArithmeticResults : Obligations.ScalarArithmeticResults := by
  refine ⟨fun s d a b imm => ⟨rfl, rfl, rfl, rfl, next_deferX (mul_eq_ofNat _ _), rfl, rfl, rfl⟩,
    fun s d a b imm n => ⟨rfl, rfl, rfl, rfl, rfl, rfl, rfl, ?_⟩⟩
  exact ⟨next_deferX (shiftLeft_eq_ofNat _ _), next_deferX (shiftLeft_eq_ofNat _ _),
    next_deferX (ushiftRight_eq_ofNat _ _), next_deferX (ushiftRight_eq_ofNat _ _),
    next_deferX (sshiftRight_eq_ofInt _ _), next_deferX (sshiftRight_eq_ofInt _ _),
    next_deferX (rotateLeft_eq_or _ (shiftOf_lt _)), next_deferX (rotateLeft_eq_or _ n.isLt)⟩

/-! ## Division -/

theorem divRem_zero (nat : Bool) (a : X) : divRem nat a 0 = (0xFFFFFFFFFFFFFFFF, a) := rfl

/-- The quotient and the remainder of two integers, of a divisor that is not 0. -/
theorem divRem_signed (a : X) {d : X} (h : d ≠ 0) : divRem false a d =
    (BitVec.ofInt 64 (a.toInt.tdiv d.toInt), BitVec.ofInt 64 (a.toInt - a.toInt.tdiv d.toInt * d.toInt)) := by
  rw [divRem, if_neg h, if_neg Bool.false_ne_true, Int.tmod_def, Int.mul_comm]
theorem divRem_unsigned (a : X) {d : X} (h : d ≠ 0) : divRem true a d =
    (BitVec.ofNat 64 (a.toNat / d.toNat), BitVec.ofNat 64 (a.toNat % d.toNat)) := by
  rw [divRem, if_neg h, if_pos rfl]

/-- DIV and REM by 0 set DIV0 and give all ones and the dividend. -/
theorem exec_div_zero {s : State} {b : XReg} (hb : s.xr b = 0) (d a : XReg) (nat : Bool) :
    exec (.div d a b nat) s = .next ((s.defer 0 (.stat s.ctx.core 2)).deferX 19 d 0xFFFFFFFFFFFFFFFF) ∧
    exec (.rem d a b nat) s = .next ((s.defer 0 (.stat s.ctx.core 2)).deferX 19 d (s.xr a)) := by
  change execDiv d a b nat s = _ ∧ execRem d a b nat s = _
  rw [execDiv, execRem, hb, divRem_zero]
  exact ⟨rfl, rfl⟩

/-- DIV and REM by another divisor write the quotient and the remainder, and nothing else. -/
theorem exec_div_nonzero {s : State} {a b : XReg} {nat : Bool} {q r : X} (hb : s.xr b ≠ 0) (h : divRem nat (s.xr a) (s.xr b) = (q, r))
    (d : XReg) : exec (.div d a b nat) s = .next (s.deferX 19 d q) ∧ exec (.rem d a b nat) s = .next (s.deferX 19 d r) := by
  change execDiv d a b nat s = _ ∧ execRem d a b nat s = _
  rw [execDiv, execRem, h, State.noteDiv0, if_neg hb]
  exact ⟨rfl, rfl⟩

/-- A performed write of xd is what the register then reads. -/
theorem State.xr_apply_x (s : State) {d : XReg} (hd : d ≠ 0) (v : X) : (s.apply (.x s.ctx.core d v)).xr d = v := by
  have hs : s.apply (.x s.ctx.core d v) = s.modMe fun k => { k with x := Table.put k.x d.toNat v } := if_neg hd
  rw [hs, State.xr, State.me_modMe, Core.xr, if_neg hd, Table.get_put_same]

/-- Settles O58, by the three kinds of divisor. -/
theorem divisionResults : Obligations.DivisionResults := by
  intro s d a b
  refine ⟨fun hb nat => exec_div_zero hb d a nat, fun ha hb => ?_, fun hb => ?_,
    fun v => ⟨congrArg Core.status (s.me_modMe _), fun hd => s.xr_apply_x hd v⟩⟩
  · refine exec_div_nonzero (by rw [hb]; decide) ?_ d
    rw [ha, hb]
    decide
  · obtain ⟨hq, hr⟩ := exec_div_nonzero hb (divRem_signed (s.xr a) hb) d
    obtain ⟨hqn, hrn⟩ := exec_div_nonzero hb (divRem_unsigned (s.xr a) hb) d
    exact ⟨hqn, hrn, hq, hr⟩

end Sys2Proof.Machine
end

section
namespace Sys2Proof.Machine

/-! ## Spills and fills -/

/-- A step filed for a cycle to come joins the core's list of steps. -/
theorem State.at_later {s : State} {k c : Nat} (h : (s.core k).cyc < c) (w : Work) :
    s.at k c w = s.modCore k fun q => { q with sched := q.sched ++ [{ due := c, work := w }] } :=
  if_neg (by simp [Nat.not_le.2 h])

/-- A new operation is filed under the next number, in the core in hand. -/
theorem State.me_newOp (s : State) (o : Op) :
    (s.newOp s.ctx.core o).2.me = { s.me with ops := Table.put s.me.ops s.nextOp (some o) } :=
  State.core_modCore_same _ _ _

/-- A pending write of the syllable in hand takes from the state the context, the tick, and the core's cycle and clock. -/
theorem State.writeOf_congr {s t : State} (hctx : t.ctx = s.ctx) (htick : t.tick = s.tick) (hcyc : t.me.cyc = s.me.cyc)
    (hrec : t.me.inRecov = s.me.inRecov) (d : Nat) (u : Upd) : t.writeOf d u = s.writeOf d u := by
  rw [State.me, hctx] at hcyc hrec
  simp only [State.writeOf, State.clkOf, State.src, State.me, hctx, htick, hcyc, hrec]

/-- Registers of a group. -/
def spillStride (a : SpillArgs) : Nat := if a.vec then 1 else 8
/-- Bytes of a register. -/
def spillWidth (a : SpillArgs) : Nat := if a.vec then 256 else 8

/-- The pool address that a spill or fill names. -/
def State.spillAt (s : State) (a : SpillArgs) : X := s.xr a.xa + a.off.setWidth 64

/-- The range of a spill or fill lies in scratch. -/
abbrev State.spillInside (s : State) (a : SpillArgs) : Prop :=
  (s.spillAt a).toNat + a.n.toNat * spillWidth a ≤ s.me.carve.scrlim ∧ (s.spillAt a).toNat < 0x180000

/-- The token of a spill or fill is busy. -/
abbrev State.spillBusy (s : State) (a : SpillArgs) : Prop := s.me.cyc < Table.get 0 s.me.tok a.tok.toNat

/-- The first cycle in which the engine can take a new operation's first group. -/
def State.spillStart (s : State) : Nat := max (s.me.cyc + 1) s.me.spillFree

/-- The cycles between the first and the last group of a spill or fill. -/
def spillGroups (a : SpillArgs) : Nat := (a.n.toNat - 1) / spillStride a

/-- The pool addresses or numbers of the registers that a spill or fill moves. -/
def State.spillRegs (s : State) (a : SpillArgs) : List Nat :=
  (List.range a.n.toNat).map fun j => if a.vec then s.me.vaddr (a.f + BitVec.ofNat 6 j) else a.f.toNat + j

/-- The operation that SPB or FLA files. -/
def State.spillOp (s : State) (i : Instr) (spb : Bool) (a : SpillArgs) : Op :=
  { src := { s.src with own := true }, instr := i, st := some s.spillStart, ad := (s.spillAt a).toNat, regs := s.spillRegs a
    fut := if spb then [(s.ctx.core, (s.spillAt a).toNat, a.n.toNat * spillWidth a)]
      else if a.vec then (s.spillRegs a).map fun x => (s.ctx.core, x, 256) else []
    futX := if spb || a.vec then [] else (s.spillRegs a).map (BitVec.ofNat 5) }

/-- Operation `o` is filed and takes the engine for `g` cycles more than its first. -/
def State.takeSpill (s : State) (o : Op) (g : Nat) : State :=
  let t := (s.newOp s.ctx.core o).2
  t.modMe fun k => { k with spillFree := s.spillStart + g + 1, spillSrc := t.src }

/-- The step of an operation's first group. -/
def State.firstGroup (s : State) : Work := { ctx := { core := s.ctx.core, op := s.nextOp, idx := 0 }, instr := .spillFillGroup }

/-- Files operation `o` of the spill-and-fill engine: its first group in the engine's next free cycle, token `m` busy until `fin`. -/
def State.fileSpill (s : State) (o : Op) (g m fin : Nat) : State :=
  ((s.takeSpill o g).defer 0 (.tok s.ctx.core m fin)).at s.ctx.core s.spillStart s.firstGroup

section
variable (s : State) (o : Op) (g m fin : Nat)

theorem State.me_takeSpill : (s.takeSpill o g).me =
    { s.me with ops := Table.put s.me.ops s.nextOp (some o), spillFree := s.spillStart + g + 1, spillSrc := (s.newOp s.ctx.core o).2.src } := by
  rw [State.takeSpill, State.me_modMe, State.me_newOp]

theorem State.fileSpill_eq : s.fileSpill o g m fin = ((s.takeSpill o g).defer 0 (.tok s.ctx.core m fin)).modMe fun k =>
    { k with sched := k.sched ++ [{ due := s.spillStart, work := s.firstGroup }] } := by
  have hcyc : ((s.takeSpill o g).defer 0 (.tok s.ctx.core m fin)).me.cyc < s.spillStart := by
    rw [State.me_defer, State.me_takeSpill]
    exact Nat.lt_of_succ_le (Nat.le_max_left _ _)
  exact State.at_later hcyc _

/-- The core after an operation of the spill-and-fill engine has been filed. -/
theorem State.me_fileSpill : (s.fileSpill o g m fin).me = { s.me with
    ops := Table.put s.me.ops s.nextOp (some o), spillFree := s.spillStart + g + 1, spillSrc := (s.newOp s.ctx.core o).2.src
    sched := s.me.sched ++ [{ due := s.spillStart, work := s.firstGroup }] } := by
  rw [State.fileSpill_eq, State.me_modMe, State.me_defer, State.me_takeSpill]

theorem State.fileSpill_op : (s.fileSpill o g m fin).op s.ctx.core s.nextOp = o := by
  have hc : (s.fileSpill o g m fin).core s.ctx.core = (s.fileSpill o g m fin).me := by
    rw [State.fileSpill_eq]
    rfl
  rw [State.op, hc, State.me_fileSpill, Table.get_put_same, Option.getD_some]

theorem State.fileSpill_pend : (s.fileSpill o g m fin).pend = s.pend ++ [s.writeOf 0 (.tok s.ctx.core m fin)] := by
  have hw : (s.takeSpill o g).writeOf 0 (.tok s.ctx.core m fin) = s.writeOf 0 (.tok s.ctx.core m fin) := by
    refine State.writeOf_congr (s := s) (t := s.takeSpill o g) rfl rfl ?_ ?_ _ _ <;> rw [State.me_takeSpill]
  rw [State.fileSpill_eq, ← hw]
  rfl

theorem State.fileSpill_pool : (s.fileSpill o g m fin).pool = s.pool := by
  rw [State.fileSpill_eq]
  rfl

end

theorem State.spillInside_iff (s : State) (a : SpillArgs) : (decide ((s.spillAt a).toNat < 0x180000) &&
    s.me.inScratch (s.spillAt a) (a.n.toNat * spillWidth a)) = true ↔ s.spillInside a := by
  rw [Core.inScratch, Bool.and_eq_true, decide_eq_true_eq, decide_eq_true_eq, and_comm, State.spillInside]

/-- What SPB and FLA do, by the token and the range. -/
theorem State.issueSpill_eq (s : State) (i : Instr) (spb : Bool) (a : SpillArgs) : s.issueSpill i spb a =
    if s.spillBusy a ∧ s.me.elastic = true then s.hold .room none (some i)
    else if ¬ s.spillInside a then s.raise .poolBounds (s.spillAt a) 0
    else if s.spillBusy a then s.raise .writeCollision 0 0
    else s.fileSpill (s.spillOp i spb a) (spillGroups a) a.tok.toNat (s.spillStart + spillGroups a + (if spb then 1 else 2) + 1) := by
  have hb : (decide (s.me.cyc < Table.get 0 s.me.tok a.tok.toNat) = true) ↔ s.spillBusy a := decide_eq_true_iff
  have hi := s.spillInside_iff a
  unfold State.issueSpill
  extract_lets c k p w r m busy
  refine ite_congr (propext ?_) (fun _ => rfl) fun _ => ite_congr (propext ?_) (fun _ => rfl) fun _ =>
    ite_congr (propext hb) (fun _ => rfl) fun _ => rfl
  · rw [Bool.and_eq_true]
    exact and_congr_left' hb
  · rw [Bool.not_eq_true', Bool.eq_false_iff]
    exact not_congr hi

/-- A spill or fill in scratch whose token is idle is filed. -/
theorem State.issueSpill_files {s : State} {a : SpillArgs} (hi : s.spillInside a) (hb : ¬ s.spillBusy a) (i : Instr) (spb : Bool) :
    ∃ t, s.issueSpill i spb a = t ∧ t.pool = s.pool ∧
      t.pend = s.pend ++ [s.writeOf 0 (.tok s.ctx.core a.tok.toNat (s.spillStart + spillGroups a + (if spb then 1 else 2) + 1))] ∧
      t.me.tok = s.me.tok ∧ t.op s.ctx.core s.nextOp = s.spillOp i spb a ∧ t.me.spillFree = s.spillStart + spillGroups a + 1 ∧
      ⟨s.spillStart, s.firstGroup⟩ ∈ t.me.sched := by
  rw [s.issueSpill_eq, if_neg fun h => hb h.1, if_neg (not_not_intro hi), if_neg hb]
  refine ⟨_, rfl, State.fileSpill_pool _ _ _ _ _, State.fileSpill_pend _ _ _ _ _, ?_, State.fileSpill_op _ _ _ _ _, ?_, ?_⟩ <;>
    rw [State.me_fileSpill]
  exact List.mem_append_right _ (List.mem_singleton_self _)

/-- In an elastic phase a busy token is waited for, wherever the range. -/
theorem State.issueSpill_waits {s : State} {a : SpillArgs} (hb : s.spillBusy a) (he : s.me.elastic = true) (i : Instr) (spb : Bool) :
    s.issueSpill i spb a = s.hold .room none (some i) := by
  rw [s.issueSpill_eq, if_pos ⟨hb, he⟩]

/-- A range beyond scratch. -/
theorem State.issueSpill_outside {s : State} {a : SpillArgs} (ho : ¬ s.spillInside a) (h : ¬ s.spillBusy a ∨ s.me.elastic = false)
    (i : Instr) (spb : Bool) : s.issueSpill i spb a = s.raise .poolBounds (s.spillAt a) 0 := by
  rw [s.issueSpill_eq, if_neg fun hb => h.elim (· hb.1) (Bool.eq_false_iff.1 · hb.2), if_pos ho]

/-- In a locked phase a busy token is a collision. -/
theorem State.issueSpill_collides {s : State} {a : SpillArgs} (hi : s.spillInside a) (hb : s.spillBusy a) (hl : s.me.elastic = false)
    (i : Instr) (spb : Bool) : s.issueSpill i spb a = s.raise .writeCollision 0 0 := by
  rw [s.issueSpill_eq, if_neg fun h => Bool.eq_false_iff.1 hl h.2, if_neg (not_not_intro hi), if_pos hb]

theorem State.spillRegs_getD (s : State) {a : SpillArgs} {j : Nat} (h : j < a.n.toNat) :
    (s.spillRegs a).getD j 0 = if a.vec then s.me.vaddr (a.f + BitVec.ofNat 6 j) else a.f.toNat + j := by
  simp [State.spillRegs, h]

/-! ## The groups of a spill or fill -/

/-- A fold whose every step adds pending writes adds them all. -/
theorem State.foldl_pend {α : Type} {s : State} {f : State → α → State} {w : α → List PWrite}
    (h : ∀ p j, f { s with pend := p } j = { s with pend := p ++ w j }) (js : List α) :
    js.foldl f s = { s with pend := s.pend ++ js.flatMap w } := by
  suffices hp : ∀ p, js.foldl f { s with pend := p } = { s with pend := p ++ js.flatMap w } from hp s.pend
  induction js with
  | nil => intro p; rw [List.foldl_nil, List.flatMap_nil, List.append_nil]
  | cons j js ih => intro p; rw [List.foldl_cons, h, ih, List.flatMap_cons, List.append_assoc]

theorem flatMap_ite_nil {α β : Type} (p : α → Prop) [DecidablePred p] (f : α → β) (l : List α) :
    (l.flatMap fun j => if p j then [] else [f j]) = (l.filter fun j => decide (¬ p j)).map f := by
  induction l with
  | nil => rfl
  | cons j l ih =>
    rw [List.flatMap_cons, ih]
    by_cases h : p j <;> simp [h]

/-- The indices below `n` of a group of `r` from `k`. -/
theorem range_filterMap_lt (r k n : Nat) : ((List.range r).filterMap fun i => if k + i < n then some (k + i) else none) =
    (List.range (min r (n - k))).map (k + ·) := by
  induction r with
  | zero => rw [Nat.zero_min]; rfl
  | succ r ih =>
    rw [List.range_succ, List.filterMap_append, ih]
    by_cases h : k + r < n
    · rw [Nat.min_eq_left (by omega), Nat.min_eq_left (by omega), List.range_succ, List.map_append]
      simp [h]
    · rw [Nat.min_eq_right (by omega), Nat.min_eq_right (by omega)]
      simp [h]

theorem Table.get_filter_ne {α : Type} (d : α) (m : Table α) (k : Nat) : Table.get d (m.filter fun e => e.1 != k) k = d := by
  induction m with
  | nil => rfl
  | cons e m ih =>
    obtain ⟨j, v⟩ := e
    by_cases h : j = k
    · simp [h, ih]
    · simp [h, Table.get, Ne.symm h, ih]

/-- The write that moves register `j` of the spill or fill in hand; none for a fill of x0. -/
def State.spillWrites (s : State) (spb : Bool) (a : SpillArgs) (j : Nat) : List PWrite :=
  let o := s.myOp
  let c := s.ctx.core
  let x := o.regs.getD j 0
  let p := o.ad + spillWidth a * j
  if spb then [s.opWrite o.src 1 (.pool c p ((if a.vec then s.poolRead c x 256
    else leBytes 8 (s.me.xr (BitVec.ofNat 5 x)).toNat).map some) false)]
  else if a.vec then [s.opWrite o.src 2 (.pool c x ((s.poolRead c p (spillWidth a)).map some) true)]
  else if x = 0 then []
  else [s.opWrite o.src 2 (.x c (BitVec.ofNat 5 x) (BitVec.ofNat 64 (ofLe (s.poolRead c p (spillWidth a)))))]

/-- The model's own step for register `j` of the spill or fill in hand, in the state that the moves before it have left. -/
def State.spillMove (s : State) (spb : Bool) (a : SpillArgs) (t : State) (j : Nat) : State :=
  let o := s.myOp
  let c := s.ctx.core
  let x := o.regs.getD j 0
  let p := o.ad + spillWidth a * j
  if spb then
    let bs := if a.vec then t.poolRead c x 256 else leBytes 8 (t.me.xr (BitVec.ofNat 5 x)).toNat
    t.deferOp o.src 1 (.pool c p (someBytes bs) false)
  else
    let bs := t.poolRead c p (spillWidth a)
    if a.vec then t.deferOp o.src 2 (.pool c x (someBytes bs) true)
    else if x = 0 then t
    else t.deferOp o.src 2 (.x c (BitVec.ofNat 5 x) (BitVec.ofNat 64 (ofLe bs)))

/-- The registers of the group in hand. -/
def State.spillGroup (s : State) (a : SpillArgs) : List Nat :=
  (List.range (min (spillStride a) (a.n.toNat - spillStride a * s.ctx.idx))).map (spillStride a * s.ctx.idx + ·)

/-- State `t` with the operation in hand filed again as `o` and its next group filed for the next cycle. -/
def State.nextGroup (s t : State) (o : Op) : State :=
  (t.setOp s.ctx.core s.ctx.op (some o)).at s.ctx.core (t.me.cyc + 1)
    { ctx := { core := s.ctx.core, op := s.ctx.op, idx := s.ctx.idx + 1 }, instr := .spillFillGroup }

/-- The moves of a group, one by one, make the writes of its registers. -/
theorem State.foldl_spillMove (s : State) (spb : Bool) (a : SpillArgs) (js : List Nat) :
    js.foldl (s.spillMove spb a) s = { s with pend := s.pend ++ js.flatMap (s.spillWrites spb a) } := by
  refine State.foldl_pend (fun p j => ?_) js
  unfold State.spillMove State.spillWrites
  dsimp only
  split
  · rfl
  · split
    · rfl
    · split
      · rw [List.append_nil]
      · rfl

/-- SPILL_FILL_GROUP makes the writes of its group; then the next group is filed, or the operation is over. -/
theorem execSpillFillGroup_eq {s : State} {spb : Bool} {a : SpillArgs} (h : spillVar s.myOp.instr = some (spb, a)) :
    let t := { s with pend := s.pend ++ (s.spillGroup a).flatMap (s.spillWrites spb a) }
    ∃ o, execSpillFillGroup s = if spillStride a * (s.ctx.idx + 1) < a.n.toNat then .next (s.nextGroup t o)
      else .next (t.setOp s.ctx.core s.ctx.op none) := by
  intro t
  have ht : (s.spillGroup a).foldl (s.spillMove spb a) s = t := s.foldl_spillMove spb a _
  rw [← ht, State.spillGroup, ← range_filterMap_lt]
  unfold execSpillFillGroup
  dsimp only
  rw [h]
  exact ⟨_, rfl⟩

/-- The next group is filed for the next cycle. -/
theorem State.mem_sched_nextGroup {s t : State} (hcores : t.cores = s.cores) (hctx : t.ctx = s.ctx) (o : Op) :
    ⟨s.me.cyc + 1, { ctx := { core := s.ctx.core, op := s.ctx.op, idx := s.ctx.idx + 1 }, instr := .spillFillGroup }⟩ ∈
      (s.nextGroup t o).me.sched := by
  have hme : t.me = s.me := by rw [State.me, State.me, hctx, State.core_eq hcores]
  have hcyc : ((t.setOp s.ctx.core s.ctx.op (some o)).core s.ctx.core).cyc < t.me.cyc + 1 := by
    rw [State.setOp, State.core_modCore_same, State.core_eq hcores, hme]
    exact Nat.lt_succ_self _
  have hnext : (s.nextGroup t o).me = (s.nextGroup t o).core s.ctx.core := by
    rw [State.me, State.nextGroup, State.at_ctx, State.setOp_ctx, hctx]
  rw [hnext, State.nextGroup, State.at_later hcyc, State.core_modCore_same, hme]
  exact List.mem_append_right _ (List.mem_singleton_self _)

/-- An operation that is over is forgotten. -/
theorem State.ops_setOp_none (s : State) (o : Nat) : Table.get none (s.setOp s.ctx.core o none).me.ops o = none := by
  have hme : (s.setOp s.ctx.core o none).me = { s.me with ops := s.me.ops.filter fun e => e.1 != o } :=
    State.core_modCore_same _ _ _
  rw [hme, Table.get_filter_ne]

/-- What SPILL_FILL_GROUP does, by the writes of its registers. -/
theorem exec_spillFillGroup {s : State} {spb : Bool} {a : SpillArgs} {w : List PWrite}
    (h : spillVar s.myOp.instr = some (spb, a)) (hw : (s.spillGroup a).flatMap (s.spillWrites spb a) = w) :
    ∃ t, exec .spillFillGroup s = .next t ∧ t.pool = s.pool ∧
      (if spillStride a * (s.ctx.idx + 1) < a.n.toNat then
        ∃ q ∈ t.me.sched, q.due = s.me.cyc + 1 ∧ q.work.instr = .spillFillGroup ∧ q.work.ctx.op = s.ctx.op ∧
          q.work.ctx.idx = s.ctx.idx + 1
      else Table.get none t.me.ops s.ctx.op = none) ∧
      t.pend = s.pend ++ w := by
  obtain ⟨o, ho⟩ := execSpillFillGroup_eq h
  rw [hw] at ho
  split at ho
  · refine ⟨_, ho, State.at_pool _ _ _ _, ?_, State.at_pend _ _ _ _⟩
    rw [if_pos ‹_›]
    exact ⟨_, State.mem_sched_nextGroup rfl rfl o, rfl, rfl, rfl, rfl⟩
  · refine ⟨_, ho, rfl, ?_, rfl⟩
    rw [if_neg ‹_›]
    exact State.ops_setOp_none _ _

/-- Settles O22: SPB and FLA by the token and the range, SPILL_FILL_GROUP by the writes of its registers. -/
theorem spillsAndFills : Obligations.SpillsAndFills := by
  refine ⟨fun s a => ⟨fun hin hidle => ?_, fun hin hbusy hlock => ?_, fun hbusy hel => ?_, fun hout h => ?_⟩,
    fun s a => ⟨fun h => ?_, fun h hv => ?_, fun h hv => ?_⟩⟩
  · intro files
    have hfiles : ∀ i spb, files (.next (s.issueSpill i spb a)) i (if spb then 1 else 2) := by
      intro i spb
      obtain ⟨t, ht, hpool, hpend, htok, hop, hfree, hmem⟩ := State.issueSpill_files hin hidle i spb
      refine ⟨t, congrArg _ ht, hpool, hpend, htok, congrArg Op.instr hop, congrArg Op.ad hop, fun j hj => ?_, hfree,
        _, hmem, rfl, rfl, rfl⟩
      rw [hop]
      exact s.spillRegs_getD hj
    exact ⟨hfiles _ true, hfiles _ false⟩
  · have hraise := State.issueSpill_collides (a := a) hin hbusy hlock
    exact ⟨congrArg _ (hraise _ true), congrArg _ (hraise _ false)⟩
  · have hhold := State.issueSpill_waits (a := a) hbusy hel
    exact ⟨congrArg _ (hhold _ true), congrArg _ (hhold _ false)⟩
  · have hraise := State.issueSpill_outside (a := a) hout h
    exact ⟨congrArg _ (hraise _ true), congrArg _ (hraise _ false)⟩
  · refine exec_spillFillGroup (spb := true) (a := a) (by rw [h]; rfl) ?_
    exact List.map_eq_flatMap.symm
  · refine exec_spillFillGroup (spb := false) (a := a) (by rw [h]; rfl) ?_
    unfold State.spillWrites State.spillGroup spillStride spillWidth
    simp only [hv, if_true]
    exact List.map_eq_flatMap.symm
  · refine exec_spillFillGroup (spb := false) (a := a) (by rw [h]; rfl) ?_
    unfold State.spillWrites State.spillGroup spillStride spillWidth
    simp only [hv]
    exact flatMap_ite_nil _ _ _

end Sys2Proof.Machine
end

section
namespace Sys2Proof.Machine

/-! ## AMOL on the own pool -/

/-- Core 0 in no run, in a step of index 4, with which the model marks a vault store of a recovery task that is over. -/
def lateAmol : State := { ctx := { idx := 4 } }

/-- There AMOL on the own pool makes the one write of such a store, of the pool bytes, and none of xd. -/
theorem exec_amol_lateAmol : ∃ t, exec (.amol .swap 0 0 0 true 0) lateAmol = .next t ∧
    t.pend.map PWrite.upd = [.pool 0 0 (List.replicate 8 (some 0)) false] :=
  ⟨_, rfl, by decide⟩

/-- Refutes O6: AMOL on the own pool hands the index of its step on to VAULT_SAMPLE, which at index 4 writes the bytes at the end of the
tick and leaves xd, as in `lateAmol`. The statement lacks the premise that `s.ctx.idx` is not 4; no syllable issues with that index. -/
theorem not_ownPoolResults : ¬ Obligations.OwnPoolResults := by
  intro h
  obtain ⟨-, -, hamol⟩ := h
  obtain ⟨t, v, ht, -, -, hpend, -⟩ := hamol lateAmol .swap 0 0 0 true 0 rfl rfl (by decide) (by decide) (by decide)
  obtain ⟨u, hu, hupd⟩ := exec_amol_lateAmol
  obtain rfl := Host.Outcome.next.inj (ht.symm.trans hu)
  rw [hpend] at hupd
  exact absurd (congrArg List.length hupd) (by simp [lateAmol])

/-! ## A vault store while the SRAM rail is in retention -/

/-- A fault makes no pending write. -/
theorem State.raiseOn_pend (s : State) (c : Nat) (code : FCode) (p : Src) (w2 w3 : X) : (s.raiseOn c code p w2 w3).pend = s.pend := by
  obtain h | ⟨_, _, _, _, _, _, _, h⟩ := s.raiseOn_noted c code p w2 w3 <;>
    · obtain ⟨-, -, -, -, hpend, -, -⟩ := h.keeps
      exact hpend

/-- A vault store to the own pool while the SRAM rail there is in retention raises RAIL_DOWN, 14_time_power.md R322. -/
theorem execVaultSample_st_down {s : State} {a b : XReg} {z : BitVec 2} {imm : BitVec 32} (hi : s.ctx.idx ≠ 4)
    (h : s.myOp.instr = .st a b z imm) (hlim : s.myOp.ad + s.myOp.buf.length ≤ (s.core s.myOp.cd).carve.scrlim)
    (hc : s.myOp.cd = s.ctx.core) (hr : s.me.rails.getLsbD 2 = false) :
    execVaultSample s = .next ((s.setOp s.ctx.core s.ctx.op none).raiseOn s.ctx.core .railDown s.myOp.src 0 0) := by
  have hover : s.overLim s.myOp.cd [s.myOp.ad] s.myOp.buf.length = false := by simpa [State.overLim] using hlim
  have hdown : (decide (s.myOp.cd = s.ctx.core) && !s.me.rails.getLsbD 2) = true := by
    rw [hr, decide_eq_true hc]
    rfl
  unfold execVaultSample
  rw [if_neg hi]
  dsimp only
  rw [h]
  dsimp only
  rw [hover, if_neg Bool.false_ne_true, if_pos hdown]
  rfl

/-- Core 0 in a live run, its SRAM rail in retention, its store to its own pool by the vault form at its write cycle. -/
def sramDown : State :=
  { cores := [(0, { run := some 0, rails := 0xB, ops := [(0, some { instr := .st 0 0 0 0, buf := [1] })] })]
    runs := [(0, { st := .live, cores := [0] })] }

/-- Refutes O16: a store to the own pool by the vault form, as in `sramDown`, raises RAIL_DOWN at its write cycle when the SRAM rail there
is in retention (14_time_power.md R322); the statement has its bytes written whatever the rail. Its clauses of ST and VST lack the
premise on the rail that those of LD and VLD have in `calm`. -/
theorem not_vaultAccesses : ¬ Obligations.VaultAccesses := by
  intro h
  obtain ⟨-, h⟩ := h
  obtain ⟨-, hst, -⟩ := h sramDown 0 0 0 false 0 0 ⟨.f32, 0, 0, none, 0, 0⟩ .swap false 0
  obtain ⟨hwrites, -⟩ := hst rfl
  have hraises : exec .vaultSample sramDown = _ :=
    execVaultSample_st_down (s := sramDown) (by decide) rfl (by decide) rfl rfl
  have hpend := congrArg State.pend (Host.Outcome.next.inj (hraises.symm.trans (hwrites (by decide))))
  rw [State.raiseOn_pend] at hpend
  exact absurd hpend (by decide)

end Sys2Proof.Machine
end

section
namespace Sys2Proof

theorem VTy.lanes_mul_bytes (t : VTy) : t.lanes * t.bytes = 256 := by cases t <;> rfl

theorem VTy.bytes_pos (t : VTy) : 0 < t.bytes := by cases t <;> decide

theorem VTy.lanes_le (t : VTy) : t.lanes ≤ 256 := Nat.div_le_self _ _

end Sys2Proof

namespace Sys2Proof.Machine

/-! ## Bytes of lanes -/

@[simp] theorem length_leBytes (w v : Nat) : (leBytes w v).length = w := by
  induction w generalizing v with
  | zero => rfl
  | succ w ih => rw [leBytes, List.length_cons, ih]

theorem getElem?_leBytes {w j : Nat} (h : j < w) (v : Nat) : (leBytes w v)[j]? = some (BitVec.ofNat 8 (v / 256 ^ j)) := by
  induction w generalizing v j with
  | zero => exact absurd h (Nat.not_lt_zero j)
  | succ w ih =>
    rw [leBytes]
    cases j with
    | zero => rw [List.getElem?_cons_zero, Nat.pow_zero, Nat.div_one]
    | succ j => rw [List.getElem?_cons_succ, ih (Nat.lt_of_succ_lt_succ h), Nat.div_div_eq_div_mul, Nat.pow_succ']

theorem length_flatMap_const {α β : Type} {f : α → List β} {w : Nat} {l : List α} (h : ∀ a ∈ l, (f a).length = w) :
    (l.flatMap f).length = l.length * w := by
  rw [List.length_flatMap, List.map_congr_left h, List.map_const', List.sum_replicate_nat]

/-- Element `j` of piece `i`, the pieces all of length `w`. -/
theorem getElem?_flatMap_const {α β : Type} {f : α → List β} {w j : Nat} (hj : j < w) {l : List α}
    (h : ∀ a ∈ l, (f a).length = w) (i : Nat) : (l.flatMap f)[i * w + j]? = l[i]?.bind fun a => (f a)[j]? := by
  induction l generalizing i with
  | nil => rfl
  | cons a l ih =>
    have ha := h a List.mem_cons_self
    rw [List.flatMap_cons]
    cases i with
    | zero => rw [Nat.zero_mul, Nat.zero_add, List.getElem?_append_left (by omega)]; rfl
    | succ i =>
      rw [List.getElem?_append_right (by rw [ha, Nat.succ_mul]; omega), ha, List.getElem?_cons_succ,
        ← ih (fun b hb => h b (List.mem_cons_of_mem a hb)), Nat.succ_mul]
      congr 1
      omega

/-- The bytes that a lane's write gives; a lane that is kept gives none. -/
def laneBytes (w : Nat) : Option Nat → List (Option Byte)
  | some v => (leBytes w v).map some
  | none => List.replicate w none

@[simp] theorem length_laneBytes (w : Nat) (o : Option Nat) : (laneBytes w o).length = w := by
  cases o <;> simp [laneBytes]

theorem getElem?_laneBytes {w j : Nat} (h : j < w) (o : Option Nat) :
    (laneBytes w o)[j]? = some (o.map fun v => BitVec.ofNat 8 (v / 256 ^ j)) := by
  cases o with
  | none => simp [laneBytes, h]
  | some v => simp [laneBytes, getElem?_leBytes h]

theorem State.deferLanes_eq (s : State) (d : Nat) (t : VTy) (vd : VReg) (ls : List (Option Nat)) :
    s.deferLanes d t vd ls = s.defer d (.pool s.ctx.core (s.me.vaddr vd) (ls.flatMap (laneBytes t.bytes)) true) := rfl

/-! ## Active lanes -/

theorem zipIdx_map_range {α : Type} (g : Nat → α) (n : Nat) :
    ((List.range n).map g).zipIdx = (List.range n).map fun i => (g i, i) := by
  apply List.ext_getElem <;> simp

/-- The mask bits of the lanes, each with its lane's number. -/
theorem State.lanesQ_zipIdx (s : State) (t : VTy) (q : QReg) :
    (s.lanesQ t q).zipIdx = (List.range t.lanes).map fun i => ((s.me.qr q).getLsbD i, i) := zipIdx_map_range _ _

/-- The lanes that a form gives: its result in the active ones. -/
def State.activeResults (s : State) (t : VTy) (q : QReg) (f : Nat → Nat × Fl) : List (Option Nat) :=
  (List.range t.lanes).map fun i => if (s.me.qr q).getLsbD i then some (f i).1 else none

theorem activeLanes_fst (s : State) (t : VTy) (q : QReg) (f : Nat → Nat × Fl) :
    (activeLanes (s.lanesQ t q) f).1 = s.activeResults t q f := by
  simp only [activeLanes, State.lanesQ_zipIdx, State.activeResults, List.map_map]
  refine List.map_congr_left fun i _ => ?_
  simp only [Function.comp]
  split <;> rfl

/-- The flags that a form raises make one pending write, or none. -/
def State.flagWrites (s : State) (d : Nat) (e : Fl) : List PWrite := if e = 0 then [] else [s.writeOf d (.flags s.ctx.core e)]

theorem State.deferFlags_eq (s : State) (d : Nat) (e : Fl) : s.deferFlags d e = { s with pend := s.pend ++ s.flagWrites d e } := by
  unfold State.deferFlags State.flagWrites
  split
  · rw [List.append_nil]
  · rfl

/-- What a vector result leaves pending: the write of vd and the flags. -/
theorem State.putLanes_eq (s : State) (d : Nat) (t : VTy) (vd : VReg) (q : QReg) (f : Nat → Nat × Fl) :
    s.putLanes d t vd q f = { s with
      pend := s.pend ++
        s.writeOf d (.pool s.ctx.core (s.me.vaddr vd) ((s.activeResults t q f).flatMap (laneBytes t.bytes)) true) ::
        s.flagWrites d (activeLanes (s.lanesQ t q) f).2 } := by
  rw [← activeLanes_fst, List.append_cons]
  exact State.deferFlags_eq _ _ _

/-- Settles O10: the bytes of lane `i` are those at `i * bytes` of the 256, and an inactive lane's are none. -/
theorem vectorWriteTouchesOnlyVd : Obligations.VectorWriteTouchesOnlyVd := by
  intro s d t vd q f
  rw [State.putLanes_eq]
  refine ⟨rfl, _, _, rfl, ?_, fun w hw => ?_, fun i j hi hj => ?_⟩
  · rw [length_flatMap_const fun a _ => length_laneBytes t.bytes a, State.activeResults, List.length_map, List.length_range,
      VTy.lanes_mul_bytes]
  · unfold State.flagWrites at hw
    split at hw
    · exact absurd hw List.not_mem_nil
    · exact ⟨_, List.mem_singleton.1 hw⟩
  · rw [List.getD_eq_getElem?_getD, getElem?_flatMap_const hj fun a _ => length_laneBytes t.bytes a]
    simp only [State.activeResults, List.getElem?_map, List.getElem?_range hi, Option.map_some, Option.bind_some,
      getElem?_laneBytes hj, Option.getD_some]
    split <;> rfl

end Sys2Proof.Machine
end

section
namespace Sys2Proof.Machine

/-! ## Vector arithmetic -/

/-- The high half of a product, with the power as an integer. -/
theorem intOp_mulHigh (t : VTy) : intOp t (fun a b => a * b / (2 ^ t.bits : Nat)) =
    fun x y => (wrapInt t.bits (intOf t.isSint t.bits x * intOf t.isSint t.bits y / 2 ^ t.bits), 0) := by
  funext x y
  rw [intOp, Nat.cast_pow, Nat.cast_ofNat]

/-- A shift by the lane's width or more gives 0. -/
theorem shiftLane_eq (w : Nat) (g : Nat → Nat → Nat) :
    (fun x y => (if w ≤ y then 0 else g x y, (0 : Fl))) = fun x y => (if y < w then g x y else 0, 0) := by
  funext x y
  simp only [← Nat.not_lt, ite_not]

theorem shiftArith_eq (w : Nat) : (fun x y => (wrapInt w (intOf true w x / (2 ^ min y w : Nat)), (0 : Fl))) =
    fun x y => (wrapInt w (intOf true w x / 2 ^ min y w), 0) := by
  funext x y
  rw [Nat.cast_pow, Nat.cast_ofNat]

theorem popCount_eq_countP (n v : Nat) : popCount n v = (List.range n).countP v.testBit := List.countP_eq_length_filter.symm

/-- Settles O11: each form is `vbin`, `vtri` or `vun` of its result in one lane, which is the statement's. -/
theorem vectorArithmeticResults : Obligations.VectorArithmeticResults := by
  refine ⟨fun s f g u => ⟨fun _ => ⟨rfl, rfl, rfl, rfl, rfl⟩, fun _ => ⟨rfl, rfl, rfl⟩, rfl, rfl, rfl, rfl, rfl, rfl⟩,
    fun s f u _ => ?_⟩
  have hbin : ∀ d {g h}, g = h → ok (s.vbin d f g) = ok (s.vbin d f h) :=
    fun d _ _ e => congrArg (fun g => ok (s.vbin d f g)) e
  have hpop : (fun x => (popCount u.t.bits x, (0 : Fl))) = fun x => ((List.range u.t.bits).countP x.testBit, 0) :=
    funext fun x => congrArg (·, 0) (popCount_eq_countP _ x)
  exact ⟨rfl, rfl, rfl, (hbin 3 (intOp_mulHigh f.t) :), rfl, rfl, rfl, rfl, rfl, rfl, rfl,
    (hbin 1 (shiftLane_eq _ fun x y => x * 2 ^ y % 2 ^ f.t.bits) :), (hbin 1 (shiftLane_eq _ fun x y => x / 2 ^ y) :),
    (hbin 1 (shiftArith_eq f.t.bits) :), rfl, rfl, congrArg (fun h => ok (s.vun 1 u h)) hpop, rfl⟩

end Sys2Proof.Machine
end

section
namespace Sys2Proof.Machine

/-! ## Lane masks -/

theorem testBit_foldr_bits (bs : List Bool) (i : Nat) :
    (bs.foldr (fun (b : Bool) a => b.toNat + 2 * a) 0).testBit i = bs.getD i false := by
  induction bs generalizing i with
  | nil => exact Nat.zero_testBit i
  | cons b bs ih =>
    rw [List.foldr_cons]
    cases i with
    | zero => cases b <;> simp [Nat.testBit_zero]
    | succ i =>
      rw [Nat.testBit_succ, List.getD_cons_succ, ← ih]
      congr 1
      have := b.toNat_lt
      omega

theorem getLsbD_ofBits {bs : List Bool} (h : bs.length ≤ 256) (i : Nat) : (ofBits bs).getLsbD i = bs.getD i false := by
  rw [ofBits, BitVec.getLsbD_ofNat, testBit_foldr_bits]
  by_cases hi : i < 256
  · rw [decide_eq_true hi, Bool.true_and]
  · rw [decide_eq_false hi, Bool.false_and, List.getD_eq_default _ _ (by omega)]

/-- A flag of the flags of all is a flag of one. -/
theorem getLsbD_foldl_or (l : List Fl) (k : Nat) : (l.foldl (· ||| ·) 0).getLsbD k = l.any (·.getLsbD k) := by
  suffices h : ∀ a : Fl, (l.foldl (· ||| ·) a).getLsbD k = (a.getLsbD k || l.any (·.getLsbD k)) by
    rw [h, show (0 : Fl).getLsbD k = false from BitVec.getLsbD_zero, Bool.false_or]
  induction l with
  | nil => simp
  | cons e l ih => intro a; rw [List.foldl_cons, ih, BitVec.getLsbD_or, List.any_cons, Bool.or_assoc]

/-! ## Compares -/

/-- Lane `i` is one of the type's and active. -/
def State.laneOn (s : State) (t : VTy) (q : QReg) (i : Nat) : Bool := decide (i < t.lanes) && (s.me.qr q).getLsbD i

/-- The mask bit and the flags of each lane of a compare: 06_vector.md R164. -/
def State.cmpLanes (s : State) (f : VCmp) (g : Nat → Nat → Bool × Fl) (b : List Nat) : List (Bool × Fl) :=
  (List.range f.t.lanes).map fun i =>
    if (s.me.qr f.q).getLsbD i then g ((s.lanesV f.t f.va).getD i 0) (b.getD i 0) else (false, 0)
/-- The mask that a compare writes. -/
def State.cmpMask (s : State) (f : VCmp) (g : Nat → Nat → Bool × Fl) (b : List Nat) : Mask :=
  ofBits ((s.cmpLanes f g b).map (·.1))
/-- The flags that it raises. -/
def State.cmpFlags (s : State) (f : VCmp) (g : Nat → Nat → Bool × Fl) (b : List Nat) : Fl :=
  ((s.cmpLanes f g b).map (·.2)).foldl (· ||| ·) 0

theorem State.vcmp_eq (s : State) (f : VCmp) (g : Nat → Nat → Bool × Fl) : s.vcmp f g = s.withB f.t f.b fun y b =>
    (y.defer 1 (.q y.ctx.core f.qd (y.cmpMask f g b))).deferFlags 1 (y.cmpFlags f g b) := by
  unfold State.vcmp State.cmpMask State.cmpFlags State.cmpLanes
  simp only [State.lanesQ_zipIdx, List.map_map, Function.comp_def]

theorem State.getLsbD_cmpMask (s : State) (f : VCmp) (g : Nat → Nat → Bool × Fl) (b : List Nat) (i : Nat) :
    (s.cmpMask f g b).getLsbD i = (s.laneOn f.t f.q i && (g ((s.lanesV f.t f.va).getD i 0) (b.getD i 0)).1) := by
  rw [State.cmpMask, getLsbD_ofBits (by simpa [State.cmpLanes] using f.t.lanes_le), State.cmpLanes, State.laneOn, List.map_map]
  by_cases hi : i < f.t.lanes
  · simp [List.getD_eq_getElem?_getD, hi]
    split <;> simp [*]
  · simp [List.getD_eq_getElem?_getD, hi]

theorem State.getLsbD_cmpFlags (s : State) (f : VCmp) (g : Nat → Nat → Bool × Fl) (b : List Nat) (k : Nat) :
    (s.cmpFlags f g b).getLsbD k = true ↔
      ∃ i, s.laneOn f.t f.q i = true ∧ (g ((s.lanesV f.t f.va).getD i 0) (b.getD i 0)).2.getLsbD k = true := by
  rw [State.cmpFlags, getLsbD_foldl_or]
  simp only [State.cmpLanes, State.laneOn, List.any_map, List.any_eq_true, List.mem_range,
    Function.comp, Bool.and_eq_true, decide_eq_true_eq, and_assoc]
  refine exists_congr fun i => and_congr_right fun _ => ?_
  split <;> simp [*]

/-- Flags of no lane are none. -/
theorem State.cmpFlags_none (s : State) (f : VCmp) (g : Nat → Nat → Bool) (b : List Nat) :
    s.cmpFlags f (fun x y => (g x y, 0)) b = 0 := by
  apply BitVec.eq_of_getLsbD_eq
  intro k _
  rw [show (0 : Fl).getLsbD k = false from BitVec.getLsbD_zero, Bool.eq_false_iff, Ne, State.getLsbD_cmpFlags]
  simp

theorem exec_icmp (f : VCmp) (s : State) :
    exec (.icmp f) s = .next (s.withB f.t f.b fun y b => y.defer 1 (.q y.ctx.core f.qd
      (y.cmpMask f (fun x y => (intCond f.cond (intOf f.t.isSint f.t.bits x) (intOf f.t.isSint f.t.bits y), 0)) b))) := by
  change ok (s.vcmp f _) = _
  simp only [State.vcmp_eq, State.cmpFlags_none]
  rfl

theorem exec_fcmp (f : VCmp) (s : State) : exec (.fcmp f) s = .next (s.withB f.t f.b fun y b =>
    let g := fun x y => fpCond f.cond (fpNum f.t x) (fpNum f.t y)
    (y.defer 1 (.q y.ctx.core f.qd (y.cmpMask f g b))).deferFlags 1 (y.cmpFlags f g b)) :=
  congrArg _ (s.vcmp_eq f _)

/-! ## Scalar results of a mask -/

theorem lowBit_spec (n v : Nat) : lowBit n v ≤ n ∧ (∀ i < lowBit n v, v.testBit i = false) ∧
    (lowBit n v < n → v.testBit (lowBit n v) = true) := by
  unfold lowBit
  cases h : (List.range n).find? v.testBit with
  | none =>
    rw [List.find?_eq_none] at h
    exact ⟨le_rfl, fun i hi => Bool.eq_false_iff.2 (h i (List.mem_range.2 hi)), fun hn => absurd hn (lt_irrefl n)⟩
  | some k =>
    obtain ⟨hk, hmem, hlow⟩ := List.find?_range_eq_some.1 h
    exact ⟨(List.mem_range.1 hmem).le, fun i hi => by simpa using hlow i hi, fun _ => hk⟩

theorem mod_two_pow_ne_zero_iff (v n : Nat) : v % 2 ^ n ≠ 0 ↔ ∃ i < n, v.testBit i = true := by
  constructor
  · intro h
    obtain ⟨i, hi⟩ := Nat.exists_testBit_of_ne_zero h
    rw [Nat.testBit_mod_two_pow, Bool.and_eq_true, decide_eq_true_eq] at hi
    exact ⟨i, hi⟩
  · rintro ⟨i, hi, hv⟩ h
    have := Nat.testBit_mod_two_pow v n i
    rw [h, decide_eq_true hi, hv, Nat.zero_testBit] at this
    cases this

/-- Settles O12: compares by their lanes, the mask logic by its one write, the scalar results by the lemmas on the low bits. -/
theorem vectorCompareAndMaskResults : Obligations.VectorCompareAndMaskResults := by
  refine ⟨fun s f _ => ⟨⟨_, exec_icmp f s, fun y b i => y.getLsbD_cmpMask f _ b i⟩,
      ⟨_, _, exec_fcmp f s, fun y b i => y.getLsbD_cmpMask f _ b i, fun y b k => y.getLsbD_cmpFlags f _ b k⟩⟩,
    fun s d a b t x p => ⟨rfl, rfl, rfl, rfl, ?_, ⟨_, rfl, lowBit_spec _ _⟩, fun hp => ?_⟩⟩
  · exact next_deferX (congrArg _ (popCount_eq_countP _ _))
  · have hany : ((s.me.qr a).toNat % 2 ^ t.lanes != 0) = decide (∃ i < t.lanes, (s.me.qr a).getLsbD i = true) := by
      rw [Bool.eq_iff_iff, bne_iff_ne, decide_eq_true_eq]
      exact mod_two_pow_ne_zero_iff _ _
    rw [← hany]
    exact congrArg Host.Outcome.next (State.deferP_of_ne s hp _)

end Sys2Proof.Machine
end

section
namespace Sys2Proof.Machine

/-! ## Conversions -/

/-- The destination lane of a part's first element. -/
def cvtBase (f : VCvt) : Nat := (cvtPlace f 0).2

/-- Elements of one part of a conversion. -/
def cvtCount (f : VCvt) : Nat := 256 / max f.s.bytes f.d.bytes

/-- The generator's state that a stochastic conversion samples. -/
def State.cvtSrs (s : State) : BitVec 32 := srsIter (s.drawsNow s.ctx.core) s.me.srs

/-- Element `j` of a conversion, converted. -/
def State.cvtResult (s : State) (f : VCvt) (j : Nat) : Nat × Fl :=
  cvtLane f.s f.d s.me.fmtNow (if f.sr then .sto (rndBits s.cvtSrs (cvtPlace f j).2) else s.rm) f.sat
    ((s.lanesV f.s f.va).getD (cvtPlace f j).1 0)

/-- The active elements of a conversion. -/
def State.cvtOn (s : State) (f : VCvt) : List Nat := (List.range (cvtCount f)).filter fun j => (s.me.qr f.q).getLsbD j

/-- The destination lanes of a conversion. -/
def State.cvtLanes (s : State) (f : VCvt) : List (Option Nat) :=
  (List.range f.d.lanes).map fun i => if cvtBase f ≤ i ∧ i < cvtBase f + cvtCount f then
    (((s.cvtOn f).map fun j => ((cvtPlace f j).2, s.cvtResult f j)).find? fun r => r.1 == i).map (·.2.1) else none

theorem filterMap_ite_some {α β : Type} (p : α → Bool) (g : α → β) (l : List α) :
    (l.filterMap fun a => if p a then some (g a) else none) = (l.filter p).map g :=
  List.filterMap_filter.symm.trans (congrFun List.filterMap_eq_map' _)

theorem execCvt_eq (f : VCvt) (s : State) : execCvt f s =
    .next (((if f.sr then s.defer 0 (.srs s.ctx.core 1) else s).deferLanes 2 f.d f.vd (s.cvtLanes f)).deferFlags 2
      (((s.cvtOn f).map fun j => (s.cvtResult f j).2).foldl (· ||| ·) 0)) := by
  unfold execCvt State.cvtLanes State.cvtResult State.cvtOn cvtBase cvtCount
  dsimp only
  rw [filterMap_ite_some, List.map_map]
  cases f.sr
  · simp only [Bool.false_eq_true, if_false, Function.comp_def]
    rfl
  · rfl

/-- Destination lanes follow one another. -/
theorem cvtPlace_snd (f : VCvt) (j : Nat) : (cvtPlace f j).2 = cvtBase f + j := by
  simp only [cvtBase, cvtPlace]
  split
  · rfl
  · exact (Nat.zero_add j).symm

/-- A part's elements lie in the destination register. -/
theorem cvtPlace_snd_lt {f : VCvt} {j : Nat} (hh : f.h.toNat < max f.s.bytes f.d.bytes / min f.s.bytes f.d.bytes)
    (hj : j < cvtCount f) : (cvtPlace f j).2 < f.d.lanes := by
  unfold cvtCount at hj
  simp only [cvtPlace]
  split
  · rename_i h
    rw [max_eq_left h.le] at hj ⊢
    rw [max_eq_left h.le, min_eq_right h.le] at hh
    calc f.h.toNat * (256 / f.s.bytes) + j < (f.h.toNat + 1) * (256 / f.s.bytes) := by rw [Nat.succ_mul]; omega
      _ ≤ f.s.bytes / f.d.bytes * (256 / f.s.bytes) := Nat.mul_le_mul_right _ hh
      _ ≤ f.s.bytes * 256 / (f.d.bytes * f.s.bytes) := Nat.div_mul_div_le _ _ _ _
      _ = f.d.lanes := by rw [Nat.mul_comm f.d.bytes, Nat.mul_div_mul_left _ _ f.s.bytes_pos]; rfl
  · rename_i h
    rwa [max_eq_right (Nat.not_lt.1 h)] at hj

/-- The lane of element `j` holds its conversion where the element is active. -/
theorem State.cvtLanes_getD {s : State} {f : VCvt} {j : Nat}
    (hh : f.h.toNat < max f.s.bytes f.d.bytes / min f.s.bytes f.d.bytes) (hj : j < cvtCount f) :
    (s.cvtLanes f).getD (cvtPlace f j).2 none = if (s.me.qr f.q).getLsbD j then some (s.cvtResult f j).1 else none := by
  have hfind : (s.cvtOn f).find? (fun k => (cvtPlace f k).2 == (cvtPlace f j).2) =
      if (s.me.qr f.q).getLsbD j then some j else none := by
    rw [State.cvtOn, List.find?_filter]
    simp only [cvtPlace_snd, beq_iff_eq, Nat.add_right_inj]
    split
    · rw [List.find?_range_eq_some]
      refine ⟨by simp [*], List.mem_range.2 hj, fun k hk => ?_⟩
      simp [hk.ne]
    · rw [List.find?_range_eq_none]
      rintro k - 
      rw [Bool.not_eq_true', decide_eq_false_iff_not]
      rintro ⟨hk, rfl⟩
      contradiction
  have hin : cvtBase f ≤ (cvtPlace f j).2 ∧ (cvtPlace f j).2 < cvtBase f + cvtCount f := by
    rw [cvtPlace_snd]
    omega
  rw [State.cvtLanes, List.getD_eq_getElem?_getD, List.getElem?_map, List.getElem?_range (cvtPlace_snd_lt hh hj), Option.map_some,
    Option.getD_some, if_pos hin, List.find?_map]
  simp only [Function.comp_def]
  rw [hfind]
  split <;> rfl

/-- A lane of no element keeps its value. -/
theorem State.cvtLanes_other {s : State} {f : VCvt} {i : Nat} (h : ∀ j < cvtCount f, i ≠ (cvtPlace f j).2) :
    (s.cvtLanes f).getD i none = none := by
  have hout : ¬ (cvtBase f ≤ i ∧ i < cvtBase f + cvtCount f) := by
    rintro ⟨hle, hlt⟩
    refine h (i - cvtBase f) (by omega) ?_
    rw [cvtPlace_snd]
    omega
  rw [State.cvtLanes, List.getD_eq_getElem?_getD, List.getElem?_map]
  by_cases hi : i < f.d.lanes
  · rw [List.getElem?_range hi, Option.map_some, if_neg hout]
    rfl
  · rw [List.getElem?_eq_none (by simpa using hi)]
    rfl

/-- A conversion between integer types wraps or clips, 06_vector.md Table 6.6. -/
theorem cvtLane_int {a d : VTy} (ha : a.isInt = true) (hd : d.isInt = true) (entry : BitVec 32) (rm : Rm) (sat : Bool) (v : Nat) :
    let i := intOf a.isSint a.bits v
    cvtLane a d entry rm sat v = if sat then (wrapInt d.bits (clipInt d.isSint d.bits i).1, (clipInt d.isSint d.bits i).2)
      else (wrapInt d.bits i, 0) := by
  unfold cvtLane
  rw [ha, hd]
  rfl

theorem exec_vins (f : VOne) (im : BitVec 8) (s : State) :
    exec (.vins f im) s = .next (s.withB f.t f.b fun y b => y.deferLanes 1 f.t f.vd ((List.range f.t.lanes).map fun j =>
      if j = im.toNat ∧ (y.me.qr f.q).getLsbD im.toNat = true then some (b.getD j 0) else none)) := by
  change ok (s.withB f.t f.b _) = _
  simp only [Bool.and_eq_true, decide_eq_true_eq]
  rfl

/-- Settles O13: the moves are `putLanes` of the lane they take; CVT by its elements. -/
theorem vectorMoveAndConversionResults : Obligations.VectorMoveAndConversionResults := by
  refine ⟨fun s f g u z qs q im t d va => ⟨fun _ => ⟨rfl, rfl, exec_vins f im s⟩, fun _ => ⟨rfl, rfl⟩, rfl, rfl,
      fun _ => ⟨rfl, rfl⟩, rfl⟩,
    fun s f hh => ⟨s.cvtLanes f, ?_, ?_, fun j hj => State.cvtLanes_getD hh hj, fun i hi => State.cvtLanes_other hi⟩,
    fun a d entry rm sat v ha hd => cvtLane_int ha hd entry rm sat v⟩
  · exact (execCvt_eq f s).trans (by rw [List.foldl_map]; rfl)
  · rw [State.cvtLanes, List.length_map, List.length_range]

end Sys2Proof.Machine
end

section
namespace Sys2Proof

theorem Memory.length_readFrom (n a : Nat) (m : Memory) : (Memory.readFrom n a m).length = n := by
  induction n generalizing a m with
  | zero => rfl
  | succ n ih =>
    cases m with
    | nil => rw [Memory.readFrom, List.length_cons, ih]
    | cons e m =>
      rw [Memory.readFrom]
      split <;> rw [List.length_cons, ih]

@[simp] theorem Memory.length_read (m : Memory) (a n : Nat) : (m.read a n).length = n := Memory.length_readFrom _ _ _

end Sys2Proof

namespace Sys2Proof.Machine

/-! ## The lanes of a register -/

@[simp] theorem State.length_poolRead (s : State) (c a n : Nat) : (s.poolRead c a n).length = n := Memory.length_read _ _ _

@[simp] theorem length_chunks {α : Type} (k n : Nat) (l : List α) : (chunks k n l).length = n := by
  induction n generalizing l with
  | zero => rfl
  | succ n ih => rw [chunks, List.length_cons, ih]

theorem getElem?_chunks {α : Type} (k : Nat) {n i : Nat} (h : i < n) (l : List α) :
    (chunks k n l)[i]? = some ((l.drop (i * k)).take k) := by
  induction n generalizing l i with
  | zero => exact absurd h (Nat.not_lt_zero i)
  | succ n ih =>
    rw [chunks]
    cases i with
    | zero => rw [List.getElem?_cons_zero, Nat.zero_mul, List.drop_zero]
    | succ i => rw [List.getElem?_cons_succ, ih (Nat.lt_of_succ_lt_succ h), List.drop_drop, Nat.succ_mul, Nat.add_comm k]

@[simp] theorem State.length_lanesV (s : State) (t : VTy) (r : VReg) : (s.lanesV t r).length = t.lanes := by
  simp [State.lanesV, lanesOf, State.vreg, VTy.lanes]

/-- The active lanes by their numbers. -/
theorem State.activeOf_eq (s : State) (t : VTy) (va : VReg) (q : QReg) : s.activeOf t va q =
    (List.range t.lanes).map fun i => if (s.me.qr q).getLsbD i then some ((s.lanesV t va).getD i 0) else none := by
  apply List.ext_getElem
  · simp [State.activeOf, State.lanesQ, maskBits]
  · intro i h _
    have hi : i < (s.lanesV t va).length := by
      rw [State.activeOf, List.length_zipWith] at h
      omega
    simp [State.activeOf, State.lanesQ, maskBits, List.getElem?_eq_getElem hi]

/-! ## The tree of a reduction -/

section Tree
variable {α : Type} (g : α → α → α × Fl)

/-- A node of the tree, with the flags below it: a lone active input passes, 03_numbers.md R91. -/
def treeNode (x y : Option α × Fl) : Option α × Fl :=
  match x.1, y.1 with
  | some u, some v => (some (g u v).1, x.2 ||| y.2 ||| (g u v).2)
  | some u, none => (some u, x.2 ||| y.2)
  | none, v => (v, x.2 ||| y.2)

/-- Node `i` of level `k` over the inputs `h`. -/
def treeLevels (h : Nat → Option α) : Nat → Nat → Option α × Fl
  | 0, i => (h i, 0)
  | k + 1, i => treeNode g (treeLevels h k (2 * i)) (treeLevels h k (2 * i + 1))

/-- The flags of two nodes and those below them join in the flags of a node. -/
theorem treeNode_or (x y : Option α × Fl) (e f : Fl) : treeNode g (x.1, e ||| x.2) (y.1, f ||| y.2) =
    ((treeNode g x y).1, (e ||| f) ||| (treeNode g x y).2) := by
  obtain ⟨x, a⟩ := x
  obtain ⟨y, b⟩ := y
  cases x <;> cases y <;> simp only [treeNode, Prod.mk.injEq, true_and] <;> ac_rfl

/-- The model's level begins with the node of its first two inputs. -/
theorem treeLevel_cons_cons (x y : Option α) (r : List (Option α)) : treeLevel g (x :: y :: r) =
    ((treeNode g (x, 0) (y, 0)).1 :: (treeLevel g r).1, (treeNode g (x, 0) (y, 0)).2 ||| (treeLevel g r).2) := by
  cases x <;> cases y <;> simp [treeLevel, treeNode]

theorem length_treeLevel {n : Nat} {l : List (Option α)} (h : l.length = 2 * n) : (treeLevel g l).1.length = n := by
  induction n generalizing l with
  | zero => rw [List.length_eq_zero_iff.1 h]; rfl
  | succ n ih =>
    match l, h with
    | x :: y :: r, h => rw [treeLevel_cons_cons, List.length_cons, ih (by simpa [Nat.mul_add] using h)]

theorem treeLevel_append {n : Nat} {a : List (Option α)} (h : a.length = 2 * n) (b : List (Option α)) : treeLevel g (a ++ b) =
    ((treeLevel g a).1 ++ (treeLevel g b).1, (treeLevel g a).2 ||| (treeLevel g b).2) := by
  induction n generalizing a with
  | zero => rw [List.length_eq_zero_iff.1 h]; simp [treeLevel]
  | succ n ih =>
    match a, h with
    | x :: y :: r, h =>
      rw [List.cons_append, List.cons_append, treeLevel_cons_cons, treeLevel_cons_cons, ih (by simpa [Nat.mul_add] using h),
        BitVec.or_assoc, List.cons_append]

theorem tree_succ (k : Nat) (l : List (Option α)) : tree g (k + 1) l =
    ((tree g k (treeLevel g l).1).1, (treeLevel g l).2 ||| (tree g k (treeLevel g l).1).2) := rfl

/-- The tree of two halves is the node of their trees. -/
theorem tree_append {k : Nat} {a b : List (Option α)} (ha : a.length = 2 ^ k) (hb : b.length = 2 ^ k) :
    tree g (k + 1) (a ++ b) = treeNode g (tree g k a) (tree g k b) := by
  induction k generalizing a b with
  | zero =>
    obtain ⟨x, rfl⟩ := List.length_eq_one_iff.1 ha
    obtain ⟨y, rfl⟩ := List.length_eq_one_iff.1 hb
    simp [tree, treeLevel_cons_cons, treeLevel]
  | succ k ih =>
    rw [Nat.pow_succ'] at ha hb
    rw [tree_succ, treeLevel_append g ha, ih (length_treeLevel g ha) (length_treeLevel g hb)]
    exact (treeNode_or g _ _ _ _).symm

/-- A node of level `k` is the tree over the `2 ^ k` inputs below it. -/
theorem tree_eq_treeLevels (h : Nat → Option α) (k i : Nat) :
    tree g k ((List.range (2 ^ k)).map fun j => h (i * 2 ^ k + j)) = treeLevels g h k i := by
  induction k generalizing i with
  | zero => simp [tree, treeLevels]
  | succ k ih =>
    have hsplit : ((List.range (2 ^ (k + 1))).map fun j => h (i * 2 ^ (k + 1) + j)) =
        ((List.range (2 ^ k)).map fun j => h (2 * i * 2 ^ k + j)) ++
          (List.range (2 ^ k)).map fun j => h ((2 * i + 1) * 2 ^ k + j) := by
      rw [Nat.pow_succ', Nat.two_mul, List.range_add, List.map_append, List.map_map]
      congr 1
      · refine List.map_congr_left fun j _ => congrArg h ?_
        ring
      · refine List.map_congr_left fun j _ => congrArg h ?_
        ring
    rw [hsplit, tree_append g (by simp) (by simp), ih, ih, treeLevels]

end Tree

/-- The inputs of a reduction: the value `v` of lane `i` where it is one of the type's and active. -/
def State.treeInput {α : Type} (s : State) (f : VUn) (v : Nat → α) (i : Nat) : Option α :=
  if i < f.t.lanes ∧ (s.me.qr f.q).getLsbD i = true then some (v i) else none

theorem two_pow_treeDepth (t : VTy) : 2 ^ treeDepth t = t.lanes := by cases t <;> decide

/-- The model's tree over the active lanes is the node of the last level. -/
theorem State.tree_active {α : Type} (s : State) (f : VUn) (g : α → α → α × Fl) (v : Nat → α) :
    tree g (treeDepth f.t) ((List.range f.t.lanes).map fun i => if (s.me.qr f.q).getLsbD i then some (v i) else none) =
      treeLevels g (s.treeInput f v) (treeDepth f.t) 0 := by
  rw [← tree_eq_treeLevels, two_pow_treeDepth]
  congr 1
  refine List.map_congr_left fun i hi => ?_
  simp [State.treeInput, List.mem_range.1 hi]

theorem State.reduce_eq (s : State) (f : VUn) (e : Nat) (g : Nat → Nat → Nat × Fl) :
    let r := treeLevels g (s.treeInput f fun i => (s.lanesV f.t f.va).getD i 0) (treeDepth f.t) 0
    s.reduce f e g = (s.deferLanes 7 f.t f.vd (List.replicate f.t.lanes (some (r.1.getD e)))).deferFlags 7 r.2 := by
  rw [State.reduce, State.activeOf_eq, State.tree_active]

end Sys2Proof.Machine
end

section
namespace Sys2Proof.Machine

/-! ## Nodes of the reductions -/

/-- What RMIN and RMAX give without an active lane, 06_vector.md Table 6.7. -/
theorem rminEmpty_eq (t : VTy) : (if t.isFp then (laneIeee t).infOf false else wrapInt t.bits (intMax t.isSint t.bits)) =
    if t.isFp then (laneIeee t).infOf false else if t.isSint then 2 ^ (t.bits - 1) - 1 else 2 ^ t.bits - 1 := by
  cases t <;> decide

theorem rmaxEmpty_eq (t : VTy) : (if t.isFp then (laneIeee t).infOf true else wrapInt t.bits (intMin t.isSint t.bits)) =
    if t.isFp then (laneIeee t).infOf true else if t.isSint then 2 ^ (t.bits - 1) else 0 := by
  cases t <;> decide

/-- RMINI's node: the right one stands where it is less, a NaN above every number. -/
theorem miniNode_eq (t : VTy) : miniNode t = fun x y =>
    if t.isFp then
      (if (fpNum t y.1).isNan = false ∧ ((fpNum t x.1).isNan = true ∨ (fpNum t y.1).cmp (fpNum t x.1) = some .lt) then y else x,
        sigFl [fpNum t x.1, fpNum t y.1])
    else (if intOf t.isSint t.bits y.1 < intOf t.isSint t.bits x.1 then y else x, 0) := by
  funext x y
  simp only [miniNode, Bool.and_eq_true, Bool.not_eq_true', Bool.or_eq_true, beq_iff_eq]

theorem exec_rmini (f : VUn) (s : State) :
    let r := treeLevels (miniNode f.t) (s.treeInput f fun i => ((s.lanesV f.t f.va).getD i 0, i)) (treeDepth f.t) 0
    exec (.rmini f) s = .next ((s.deferLanes 7 f.t f.vd (List.replicate f.t.lanes
      (some ((r.1.map (·.2)).getD (2 ^ f.t.bits - 1))))).deferFlags 7 r.2) := by
  have hin : ((s.activeOf f.t f.va f.q).zipIdx.map fun e => e.1.map fun v => (v, e.2)) = (List.range f.t.lanes).map fun i =>
      if (s.me.qr f.q).getLsbD i then some ((s.lanesV f.t f.va).getD i 0, i) else none := by
    rw [State.activeOf_eq, zipIdx_map_range, List.map_map]
    refine List.map_congr_left fun i _ => ?_
    simp only [Function.comp]
    split <;> rfl
  intro r
  change execRmini f s = _
  unfold execRmini
  dsimp only
  rw [hin, State.tree_active]
  change ok ((s.deferLanes 7 f.t f.vd (List.replicate f.t.lanes (some (match r.1 with
    | some x => x.2
    | none => 2 ^ f.t.bits - 1)))).deferFlags 7 r.2) = _
  cases r.1 <;> rfl

/-! ## The scan -/

/-- The running sum of the active lanes below `n`. -/
def scanRun (g : Nat → Nat → Nat × Fl) (m : Mask) (v : Nat → Nat) : Nat → Option Nat × Fl
  | 0 => (none, 0)
  | n + 1 => if m.getLsbD n then treeNode g (scanRun g m v n) (some (v n), 0) else scanRun g m v n

/-- The flags below a node join in its own. -/
theorem treeNode_flags {α : Type} (g : α → α → α × Fl) (x : Option α × Fl) (v : α) :
    treeNode g x (some v, 0) = ((treeNode g (x.1, 0) (some v, 0)).1, x.2 ||| (treeNode g (x.1, 0) (some v, 0)).2) := by
  obtain ⟨x, a⟩ := x
  cases x <;> simp [treeNode]

theorem scanGo_none (g : Nat → Nat → Nat × Fl) (r : Option Nat) (l : List (Option Nat)) :
    scanGo g r (none :: l) = (none :: (scanGo g r l).1, (scanGo g r l).2) := by
  cases r <;> rfl

theorem scanGo_some (g : Nat → Nat → Nat × Fl) (r : Option Nat) (v : Nat) (l : List (Option Nat)) :
    let y := treeNode g (r, 0) (some v, 0)
    scanGo g r (some v :: l) = (y.1 :: (scanGo g y.1 l).1, y.2 ||| (scanGo g y.1 l).2) := by
  cases r <;> simp [scanGo, treeNode, BitVec.or_comm]

/-- The scan from lane `k` on, with the sum that runs there. -/
theorem scanGo_eq (g : Nat → Nat → Nat × Fl) (m : Mask) (v : Nat → Nat) (n k : Nat) :
    let lanes := (List.range' k n).map fun i => if m.getLsbD i then some (v i) else none
    (scanGo g (scanRun g m v k).1 lanes).1 =
      ((List.range' k n).map fun i => if m.getLsbD i then (scanRun g m v (i + 1)).1 else none) ∧
    (scanRun g m v k).2 ||| (scanGo g (scanRun g m v k).1 lanes).2 = (scanRun g m v (k + n)).2 := by
  induction n generalizing k with
  | zero => simp [scanGo]
  | succ n ih =>
    obtain ⟨hl, hf⟩ := ih (k + 1)
    rw [Nat.add_right_comm k 1 n] at hf
    intro lanes
    cases hm : m.getLsbD k with
    | false =>
      have hrun : scanRun g m v (k + 1) = scanRun g m v k := by rw [scanRun, hm, if_neg Bool.false_ne_true]
      rw [hrun] at hl hf
      simp only [lanes, List.range'_succ, List.map_cons, hm, Bool.false_eq_true, if_false, scanGo_none]
      exact ⟨congrArg _ hl, hf⟩
    | true =>
      have hrun : scanRun g m v (k + 1) = _ := (if_pos hm).trans (treeNode_flags g _ _)
      have hhead := congrArg Prod.fst hrun
      rw [hhead] at hl hf
      rw [hrun, BitVec.or_assoc] at hf
      simp only [lanes, List.range'_succ, List.map_cons, hm, if_true, scanGo_some]
      exact ⟨congrArg₂ _ hhead.symm hl, hf⟩

theorem exec_scan (f : VUn) (s : State) :
    let run := scanRun (sumNode f.t s.rm) (s.me.qr f.q) fun i => (s.lanesV f.t f.va).getD i 0
    exec (.scan f) s = .next ((s.deferLanes 7 f.t f.vd ((List.range f.t.lanes).map fun i =>
      if (s.me.qr f.q).getLsbD i then (run (i + 1)).1 else none)).deferFlags 7 (run f.t.lanes).2) := by
  intro run
  obtain ⟨hl, hf⟩ := scanGo_eq (sumNode f.t s.rm) (s.me.qr f.q) (fun i => (s.lanesV f.t f.va).getD i 0) f.t.lanes 0
  rw [← List.range_eq_range', ← State.activeOf_eq] at hl hf
  rw [Nat.zero_add, scanRun, show ∀ e : Fl, 0 ||| e = e from fun e => BitVec.zero_or] at hf
  change ok _ = _
  rw [← hl, ← hf]
  rfl

end Sys2Proof.Machine
end

section
namespace Sys2Proof.Machine

/-! ## Conditional streams -/

/-- The number of bytes read back: those bytes. -/
theorem leBytes_ofLe (bs : List Byte) : leBytes bs.length (ofLe bs) = bs := by
  induction bs with
  | nil => rfl
  | cons b bs ih =>
    have hb := b.isLt
    have hhead : BitVec.ofNat 8 (b.toNat + 256 * ofLe bs) = b := by
      apply BitVec.eq_of_toNat_eq
      rw [BitVec.toNat_ofNat]
      omega
    have htail : (b.toNat + 256 * ofLe bs) / 256 = ofLe bs := by omega
    rw [ofLe, List.length_cons, leBytes, hhead, htail, ih]

/-- The pieces in which bytes go into a ring from offset `o`: two where they wrap. -/
def State.ringPieces (s : State) (b o : Nat) (bs : List Byte) : List (Nat × List Byte) :=
  (s.me.ringAt b o, bs.take (ringBytes - o % ringBytes)) ::
    if bs.length ≤ ringBytes - o % ringBytes then [] else [(s.me.ringAt b 0, bs.drop (ringBytes - o % ringBytes))]

/-- The write of one piece, at the end of c0. -/
def State.pieceWrite (s : State) (e : Nat × List Byte) : PWrite := s.writeOf 0 (.pool s.ctx.core e.1 (e.2.map some) false)

theorem State.ringWrite_eq (s : State) (b o : Nat) (bs : List Byte) :
    s.ringWrite b o bs = { s with pend := s.pend ++ (s.ringPieces b o bs).map s.pieceWrite } := by
  unfold State.ringWrite State.ringPieces
  dsimp only
  split
  · rfl
  · rw [List.map_cons, List.append_cons]
    rfl

theorem State.length_ringPieces (s : State) (b o : Nat) (bs : List Byte) :
    ((s.ringPieces b o bs).map fun e => e.2.length).sum = bs.length := by
  unfold State.ringPieces
  split
  · simpa using ‹_›
  · simp
    omega

/-- Of bytes that fit the ring, byte `p` goes to place `o + p` of it. -/
theorem State.mem_ringPieces (s : State) (b o : Nat) {bs : List Byte} (hfit : bs.length ≤ ringBytes) {p : Nat}
    (hp : p < bs.length) :
    ∃ e ∈ s.ringPieces b o bs, ∃ k, e.1 + k = s.me.ringAt b (o + p) ∧ e.2[k]? = bs[p]? := by
  have ho : o % ringBytes < ringBytes := Nat.mod_lt _ (by decide)
  unfold State.ringPieces
  by_cases h : p < ringBytes - o % ringBytes
  · refine ⟨_, List.mem_cons_self, p, ?_, List.getElem?_take_of_lt h⟩
    have : (o + p) % ringBytes = o % ringBytes + p := by
      rw [Nat.add_mod, Nat.mod_eq_of_lt (a := p) (by omega), Nat.mod_eq_of_lt (by omega)]
    rw [Core.ringAt, Core.ringAt, this]
    omega
  · rw [if_neg (by omega)]
    refine ⟨_, List.mem_cons_of_mem _ (List.mem_singleton_self _), p - (ringBytes - o % ringBytes), ?_, ?_⟩
    · have : (o + p) % ringBytes = p - (ringBytes - o % ringBytes) := by
        rw [Nat.add_mod, Nat.mod_eq_of_lt (a := p) (by omega), Nat.mod_eq_sub_mod (by omega), Nat.mod_eq_of_lt (by omega)]
        omega
      rw [Core.ringAt, Core.ringAt, this, Nat.zero_mod]
      omega
    · rw [List.getElem?_drop]
      congr 1
      omega

/-- The active lanes of a type. -/
def State.lanesOn (s : State) (t : VTy) (q : QReg) : List Nat := (List.range t.lanes).filter fun i => (s.me.qr q).getLsbD i

/-- The bytes that SPUSH appends: the active lanes' in order. -/
def State.pushBytes (s : State) (t : VTy) (va : VReg) (q : QReg) : List Byte :=
  (s.lanesOn t q).flatMap fun i => leBytes t.bytes ((s.lanesV t va).getD i 0)

theorem State.bytesOf_activeOf (s : State) (t : VTy) (va : VReg) (q : QReg) :
    bytesOf t.bytes ((s.activeOf t va q).filterMap id) = s.pushBytes t va q := by
  rw [State.activeOf_eq, List.filterMap_map, Function.id_comp, filterMap_ite_some, bytesOf, List.flatMap_map]
  rfl

theorem State.length_pushBytes (s : State) (t : VTy) (va : VReg) (q : QReg) :
    (s.pushBytes t va q).length = (s.lanesOn t q).length * t.bytes := length_flatMap_const fun _ _ => length_leBytes _ _

/-- Byte `b` of the `j`th active lane. -/
theorem State.getElem?_pushBytes (s : State) (t : VTy) (va : VReg) (q : QReg) {j b : Nat} (hj : j < (s.lanesOn t q).length)
    (hb : b < t.bytes) : (s.pushBytes t va q)[j * t.bytes + b]? =
      some (BitVec.ofNat 8 ((s.lanesV t va).getD ((s.lanesOn t q).getD j 0) 0 / 256 ^ b)) := by
  rw [State.pushBytes, getElem?_flatMap_const hb fun _ _ => length_leBytes _ _, List.getElem?_eq_getElem hj, Option.bind_some,
    getElem?_leBytes hb, List.getD_eq_getElem _ _ hj]

/-- The pieces that SPUSH writes; none without an active lane. -/
def State.pushPieces (s : State) (t : VTy) (va : VReg) (k : BitVec 2) (q : QReg) : List (Nat × List Byte) :=
  if (s.pushBytes t va q).isEmpty then []
  else s.ringPieces k.toNat ((s.me.stream k.toNat).1 + (s.me.stream k.toNat).2) (s.pushBytes t va q)

theorem State.length_pushPieces (s : State) (t : VTy) (va : VReg) (k : BitVec 2) (q : QReg) :
    ((s.pushPieces t va k q).map fun e => e.2.length).sum = (s.lanesOn t q).length * t.bytes := by
  rw [← s.length_pushBytes t va q, State.pushPieces]
  split
  · rename_i h
    rw [List.isEmpty_iff.1 h]
    rfl
  · exact s.length_ringPieces _ _ _

theorem State.mem_pushPieces {s : State} {t : VTy} {va : VReg} {k : BitVec 2} {q : QReg} {j b : Nat}
    (hfit : (s.lanesOn t q).length * t.bytes ≤ ringBytes) (hj : j < (s.lanesOn t q).length) (hb : b < t.bytes) :
    ∃ e ∈ s.pushPieces t va k q, ∃ o,
      e.1 + o = s.me.ringAt k.toNat ((s.me.stream k.toNat).1 + (s.me.stream k.toNat).2 + j * t.bytes + b) ∧
      e.2[o]? = some (BitVec.ofNat 8 ((s.lanesV t va).getD ((s.lanesOn t q).getD j 0) 0 / 256 ^ b)) := by
  have hp : j * t.bytes + b < (s.pushBytes t va q).length := by
    rw [s.length_pushBytes t va q]
    calc j * t.bytes + b < (j + 1) * t.bytes := by rw [Nat.succ_mul]; omega
      _ ≤ _ := Nat.mul_le_mul_right _ hj
  have hne : ¬ (s.pushBytes t va q).isEmpty = true := by
    rw [List.isEmpty_iff, ← List.length_eq_zero_iff]
    omega
  rw [State.pushPieces, if_neg hne, ← s.getElem?_pushBytes t va q hj hb, Nat.add_assoc _ (j * t.bytes)]
  exact s.mem_ringPieces _ _ (s.length_pushBytes t va q ▸ hfit) hp

/-- SPUSH with room in the ring: the pieces of its bytes, and the count. -/
theorem exec_spush_fits {s : State} {t : VTy} {v : VReg} {k : BitVec 2} {q : QReg}
    (h : (s.me.stream k.toNat).2 + (s.lanesOn t q).length * t.bytes ≤ ringBytes) :
    let hd := (s.me.stream k.toNat).1
    let n := (s.me.stream k.toNat).2
    exec (.spush t v k q) s = .next { s with pend := s.pend ++ (s.pushPieces t v k q).map s.pieceWrite ++
      [s.writeOf 0 (.stream s.ctx.core k.toNat hd (n + (s.lanesOn t q).length * t.bytes))] } := by
  rw [← s.length_pushBytes t v q] at h ⊢
  change execSpush t v k q s = _
  unfold execSpush State.pushPieces
  dsimp only
  rw [State.bytesOf_activeOf, if_neg (Nat.not_lt.2 h)]
  split
  · rw [List.map_nil, List.append_nil]
    rfl
  · rw [State.ringWrite_eq]
    rfl

theorem exec_spush_full {s : State} {t : VTy} {v : VReg} {k : BitVec 2} {q : QReg}
    (h : ringBytes < (s.me.stream k.toNat).2 + (s.lanesOn t q).length * t.bytes) :
    ∃ w2, exec (.spush t v k q) s = .next (s.raise .poolBounds w2 0) := by
  rw [← s.length_pushBytes t v q] at h
  refine ⟨BitVec.ofNat 64 (s.me.ringAt k.toNat ((s.me.stream k.toNat).1 + (s.me.stream k.toNat).2)), ?_⟩
  change execSpush t v k q s = _
  unfold execSpush
  dsimp only
  rw [State.bytesOf_activeOf, if_pos h]
  rfl

/-- A read of one byte has that byte alone. -/
theorem State.poolRead_one (s : State) (c a : Nat) : ∃ b, s.poolRead c a 1 = [b] :=
  List.length_eq_one_iff.1 (s.length_poolRead c a 1)

/-- The lane that is made of `w` bytes, at the `i`th place of a list of such lanes. -/
theorem laneBytes_lanesOf (w m : Nat) (r : Nat → Byte) {i : Nat} (h : i < m) (hw : 0 < w) :
    laneBytes w (lanesOf w ((List.range (m * w)).map r))[i]? = (List.range w).map fun b => some (r (i * w + b)) := by
  have hslice : (((List.range (m * w)).map r).drop (i * w)).take w = (List.range w).map fun b => r (i * w + b) := by
    have hle : i * w + w ≤ m * w := by rw [← Nat.succ_mul]; exact Nat.mul_le_mul_right w h
    apply List.ext_getElem
    · simp
      omega
    · intro j _ _
      simp
  have hlane := leBytes_ofLe ((List.range w).map fun b => r (i * w + b))
  rw [List.length_map, List.length_range] at hlane
  rw [lanesOf, List.length_map, List.length_range, Nat.mul_div_cancel _ hw, List.getElem?_map, getElem?_chunks w h, hslice,
    Option.map_some, laneBytes, hlane, List.map_map]
  rfl

theorem State.defer_three (s : State) (d e f : Nat) (u v w : Upd) : ((s.defer d u).defer e v).defer f w =
    { s with pend := s.pend ++ [s.writeOf d u, s.writeOf e v, s.writeOf f w] } := by
  have h : ∀ a b c : PWrite, s.pend ++ [a] ++ [b] ++ [c] = s.pend ++ [a, b, c] := by simp
  exact congrArg (fun p => { s with pend := p }) (h _ _ _)

/-- SPOP: as many whole lanes as there are, their mask and the ring's new head and count. -/
theorem exec_spop (s : State) (t : VTy) (v : VReg) (qd : QReg) (k : BitVec 2) :
    let h := (s.me.stream k.toNat).1
    let n := (s.me.stream k.toNat).2
    let m := min t.lanes (n / t.bytes)
    exec (.spop t v qd k) s = .next { s with pend := s.pend ++
      [s.writeOf 5 (.pool s.ctx.core (s.me.vaddr v) ((List.range t.lanes).flatMap fun i => (List.range t.bytes).map fun b =>
         if i < m then (s.poolRead s.ctx.core (s.me.ringAt k.toNat (h + i * t.bytes + b)) 1)[0]? else none) true),
       s.writeOf 5 (.q s.ctx.core qd (BitVec.ofNat 256 (2 ^ m - 1))),
       s.writeOf 0 (.stream s.ctx.core k.toNat ((h + m * t.bytes) % ringBytes) (n - m * t.bytes))] } := by
  intro h n m
  choose r hr using fun j => s.poolRead_one s.ctx.core (s.me.ringAt k.toNat (h + j))
  have hbytes : ((List.range (m * t.bytes)).flatMap fun j => s.poolRead s.ctx.core (s.me.ringAt k.toNat (h + j)) 1) =
      (List.range (m * t.bytes)).map r := by
    rw [List.map_eq_flatMap]
    exact List.flatMap_congr fun j _ => hr j
  have hlanes : ((List.range t.lanes).map fun i =>
        if i < m then (lanesOf t.bytes ((List.range (m * t.bytes)).map r))[i]? else none).flatMap (laneBytes t.bytes) = (List.range t.lanes).flatMap fun i => (List.range t.bytes).map fun b =>
          if i < m then (s.poolRead s.ctx.core (s.me.ringAt k.toNat (h + i * t.bytes + b)) 1)[0]? else none := by
    rw [List.flatMap_map]
    refine List.flatMap_congr fun i _ => ?_
    simp only [Nat.add_assoc, hr, List.getElem?_cons_zero]
    split
    · exact laneBytes_lanesOf t.bytes m r ‹_› t.bytes_pos
    · simp [laneBytes]
  change execSpop t v qd k s = _
  unfold execSpop
  dsimp only
  rw [hbytes, State.deferLanes_eq, hlanes, State.defer_three]
  rfl

/-- Settles O14: the reductions by the levels of their tree, the scan by its running sum, the streams by the ring's bytes. -/
theorem reductionAndStreamResults : Obligations.ReductionAndStreamResults := by
  refine ⟨fun s f => ?_, fun s t v k q qd x => ?_⟩
  · intro q a w rm n z node tree all one sum
    have htree : ∀ {α : Type} (lane : Nat → α) g, tree lane g (treeLevels g (s.treeInput f lane)) :=
      fun lane g => ⟨fun _ => rfl, fun _ _ => rfl⟩
    have hone : ∀ {e e'} g, e = e' → one (ok (s.reduce f e g)) e' g :=
      fun g he => he ▸ ⟨_, htree _ g, congrArg ok (s.reduce_eq f _ g)⟩
    refine ⟨hone sum rfl, hone (minMaxNode f.t false) (rminEmpty_eq f.t), hone (minMaxNode f.t true) (rmaxEmpty_eq f.t),
      ⟨treeLevels (miniNode f.t) _, ?_, exec_rmini f s⟩, ⟨_, rfl, fun _ => rfl, exec_scan f s⟩⟩
    have hmini := htree (fun i => (a.getD i 0, i)) (miniNode f.t)
    rwa [miniNode_eq] at hmini ⊢
  · intro h n ring m on
    refine ⟨fun hfit => ⟨_, exec_spush_fits hfit, s.length_pushPieces t v k q, fun j hj b hb => ?_⟩, exec_spush_full,
      exec_spop s t v qd k, rfl⟩
    exact State.mem_pushPieces (le_trans (Nat.le_add_left _ _) hfit) hj hb

end Sys2Proof.Machine
end

section
namespace Sys2Proof.Machine

/-! ## Addresses of the active lanes -/

section
variable (s : State) (t : VTy) (q : QReg) (ad : Nat → Nat)

/-- The address of each active lane, for any form. -/
def State.lanePlaces : List (Option Nat) := (List.range t.lanes).map fun i => if s.laneOn t q i then some (ad i) else none

/-- Every active lane is aligned and in scratch, 06_vector.md R176. -/
def State.fitsLanes : Prop := ∀ i, s.laneOn t q i = true → ad i % t.bytes = 0 ∧ ad i + t.bytes ≤ s.me.carve.scrlim

theorem State.laneOn_of_lt {i : Nat} (h : i < t.lanes) : s.laneOn t q i = (s.me.qr q).getLsbD i := by
  rw [State.laneOn, decide_eq_true h, Bool.true_and]

theorem State.lt_of_laneOn {i : Nat} (h : s.laneOn t q i = true) : i < t.lanes :=
  of_decide_eq_true (Bool.and_eq_true_iff.1 h).1

/-- What a form gives for each active lane, from its mask bits. -/
theorem State.lanesQ_zipIdx_map {α : Type} (g : Nat → Option α) :
    ((s.lanesQ t q).zipIdx.map fun e => if e.1 then g e.2 else none) =
      (List.range t.lanes).map fun i => if s.laneOn t q i then g i else none := by
  rw [State.lanesQ_zipIdx, List.map_map]
  refine List.map_congr_left fun i hi => ?_
  rw [s.laneOn_of_lt t q (List.mem_range.1 hi)]
  rfl

theorem State.blockLanes_eq (o : Nat) : blockLanes (s.lanesQ t q) t.bytes o = s.lanePlaces t q fun i => o + i * t.bytes :=
  s.lanesQ_zipIdx_map t q fun i => some (o + i * t.bytes)

theorem State.laneAddrs_eq (b : X) (imm : BitVec 20) (off : Nat → Int) : laneAddrs (s.lanesQ t q) b imm off =
    (List.range t.lanes).map fun i => if s.laneOn t q i then some (addrOf b imm (off i)) else none :=
  s.lanesQ_zipIdx_map t q fun i => some (addrOf b imm (off i))

theorem State.lanesOn_eq_filter : s.lanesOn t q = (List.range t.lanes).filter (s.laneOn t q) :=
  List.filter_congr fun _ hi => (s.laneOn_of_lt t q (List.mem_range.1 hi)).symm

theorem State.mem_lanesOn {i : Nat} : i ∈ s.lanesOn t q ↔ s.laneOn t q i = true := by
  rw [State.lanesOn_eq_filter, List.mem_filter, List.mem_range]
  exact and_iff_right_of_imp (s.lt_of_laneOn t q)

/-- The addresses that there are: those of the active lanes in order. -/
theorem State.filterMap_lanePlaces : (s.lanePlaces t q ad).filterMap id = (s.lanesOn t q).map ad := by
  rw [State.lanePlaces, List.filterMap_map, Function.id_comp, filterMap_ite_some, State.lanesOn_eq_filter]

end

theorem addrOf_zero (b : X) (imm : BitVec 20) : addrOf b imm 0 = b + imm.signExtend 64 := by
  simp [addrOf]

/-- The lane addresses of a strided or indexed form in scratch. -/
theorem State.ownLanes_fits {s : State} {t : VTy} {q : QReg} {b : X} {imm : BitVec 20} {off : Nat → Int}
    (h : s.fitsLanes t q fun i => (addrOf b imm (off i)).toNat) :
    s.ownLanes t.bytes (laneAddrs (s.lanesQ t q) b imm off) = some (s.lanePlaces t q fun i => (addrOf b imm (off i)).toNat) := by
  rw [State.ownLanes, State.laneAddrs_eq, if_pos]
  · rw [List.map_map, State.lanePlaces]
    refine congrArg some (List.map_congr_left fun i _ => ?_)
    simp only [Function.comp]
    split <;> rfl
  · rw [List.all_map, List.all_eq_true]
    intro i _
    simp only [Function.comp]
    cases hi : s.laneOn t q i with
    | false => rfl
    | true =>
      obtain ⟨hal, hlim⟩ := h i hi
      simpa [Core.inScratch] using ⟨hal, hlim⟩

theorem State.ownLanes_unfit {s : State} {t : VTy} {q : QReg} {b : X} {imm : BitVec 20} {off : Nat → Int}
    (h : ¬ s.fitsLanes t q fun i => (addrOf b imm (off i)).toNat) :
    s.ownLanes t.bytes (laneAddrs (s.lanesQ t q) b imm off) = none := by
  rw [State.ownLanes, State.laneAddrs_eq, if_neg]
  intro hall
  refine h fun i hi => ?_
  have hlane := List.all_eq_true.1 hall _ (List.mem_map_of_mem (List.mem_range.2 (s.lt_of_laneOn t q hi)))
  simpa [hi, Core.inScratch] using hlane

theorem State.poolAddr_own {c : Nat} {a : X} (h : a.toNat < 0x180000) : poolAddr c a = some (c, a.toNat) := if_pos h

theorem State.lanesQ_any (s : State) (t : VTy) (q : QReg) : (s.lanesQ t q).any id = true ↔ ∃ i, s.laneOn t q i = true := by
  simp [State.lanesQ, maskBits, State.laneOn]

/-- The model's test of a block: its base is aligned and its active lanes are in scratch. -/
theorem State.blockTest_iff {s : State} {t : VTy} {q : QReg} (hon : (s.lanesQ t q).any id = true) (o : Nat) :
    (o % t.bytes == 0 && ((s.lanePlaces t q fun i => o + i * t.bytes).filterMap id).all fun x =>
      decide (x + t.bytes ≤ s.me.carve.scrlim)) = true ↔ s.fitsLanes t q fun i => o + i * t.bytes := by
  obtain ⟨k, hk⟩ := (s.lanesQ_any t q).1 hon
  rw [State.filterMap_lanePlaces, List.all_map, Bool.and_eq_true, beq_iff_eq, List.all_eq_true]
  simp only [State.mem_lanesOn, Function.comp, decide_eq_true_eq, State.fitsLanes, Nat.add_mul_mod_self_right]
  exact ⟨fun h i hi => ⟨h.1, h.2 i hi⟩, fun h => ⟨(h k hk).1, fun i hi => (h i hi).2⟩⟩

/-- Without an active lane there is no address. -/
theorem State.lanePlaces_none {s : State} {t : VTy} {q : QReg} (hon : ¬ (s.lanesQ t q).any id = true) (ad : Nat → Nat) :
    (s.lanesQ t q).map (fun _ => none) = s.lanePlaces t q ad := by
  rw [State.lanesQ_any, not_exists] at hon
  simp [State.lanesQ, maskBits, State.lanePlaces, hon, Function.comp_def]

/-- What the place of a VLD or VST below the pool's end is. -/
theorem State.vecPlace_own (s : State) (t : VTy) (q : QReg) {a : X} (ha : a.toNat < 0x180000) :
    let places := s.lanePlaces t q fun i => a.toNat + i * t.bytes
    s.vecPlace t.bytes a (s.lanesQ t q) =
      if !(s.lanesQ t q).any id then some (s.ctx.core, (s.lanesQ t q).map fun _ => none, false)
      else if a.toNat % t.bytes == 0 && (places.filterMap id).all fun x => decide (x + t.bytes ≤ s.me.carve.scrlim) then
        some (s.ctx.core, places, false)
      else none := by
  have hv : isVault a = false := by simpa [isVault] using ha
  unfold State.vecPlace
  rw [State.poolAddr_own ha, hv]
  simp only [State.blockLanes_eq, Bool.not_false, Bool.true_or, Bool.and_true, Bool.false_eq_true, if_false]

theorem State.vecPlace_fits {s : State} {t : VTy} {q : QReg} {a : X} (ha : a.toNat < 0x180000)
    (h : s.fitsLanes t q fun i => a.toNat + i * t.bytes) : s.vecPlace t.bytes a (s.lanesQ t q) =
      some (s.ctx.core, s.lanePlaces t q fun i => a.toNat + i * t.bytes, false) := by
  rw [s.vecPlace_own t q ha]
  by_cases hon : (s.lanesQ t q).any id = true
  · rw [if_neg (by simpa using hon), if_pos ((State.blockTest_iff hon _).2 h)]
  · rw [if_pos (by simpa using hon), State.lanePlaces_none hon]

theorem State.vecPlace_unfit {s : State} {t : VTy} {q : QReg} {a : X} (ha : a.toNat < 0x180000)
    (h : ¬ s.fitsLanes t q fun i => a.toNat + i * t.bytes) : s.vecPlace t.bytes a (s.lanesQ t q) = none := by
  have hon : (s.lanesQ t q).any id = true := by
    by_contra hno
    rw [State.lanesQ_any, not_exists] at hno
    exact h fun i hi => absurd hi (hno i)
  rw [s.vecPlace_own t q ha, if_neg (by simpa using hon), if_neg fun htest => h ((State.blockTest_iff hon _).1 htest)]

/-! ## Loads and stores in scratch -/

/-- The register write of a load: each active lane's bytes, sampled now. -/
def State.laneLoad (s : State) (d : Nat) (t : VTy) (vd : VReg) (q : QReg) (ad : Nat → Nat) : State :=
  s.defer d (.pool s.ctx.core (s.me.vaddr vd) ((List.range t.lanes).flatMap fun i =>
    if s.laneOn t q i then (s.poolRead s.ctx.core (ad i) t.bytes).map some else List.replicate t.bytes none) true)

theorem State.loadLanes_lanePlaces (s : State) (t : VTy) (q : QReg) (ad : Nat → Nat) :
    s.loadLanes s.ctx.core t.bytes (s.lanePlaces t q ad) = (List.range t.lanes).flatMap fun i =>
      if s.laneOn t q i then (s.poolRead s.ctx.core (ad i) t.bytes).map some else List.replicate t.bytes none := by
  rw [State.loadLanes, State.lanePlaces, List.flatMap_map]
  refine List.flatMap_congr fun i _ => ?_
  cases s.laneOn t q i <;> rfl

theorem State.earlyPool_clear {s : State} (h : s.me.early = false) (a n : Nat) : s.earlyPool s.src s.ctx.core a n = false := by
  have hc : (s.core s.ctx.core).early = false := h
  have hsrc : (s.core s.src.core).early = false := h
  rw [State.earlyPool, hc, hsrc]
  rfl

theorem State.ownLoad_eq {s : State} (h : s.me.early = false) (d : Nat) (t : VTy) (vd : VReg) (q : QReg) (ad : Nat → Nat) :
    s.ownLoad d t.bytes vd (s.lanePlaces t q ad) = s.laneLoad d t vd q ad := by
  rw [State.ownLoad, if_neg, State.loadLanes_lanePlaces]
  · rfl
  · rw [Bool.not_eq_true, List.any_eq_false]
    intro a _
    rw [State.earlyPool_clear h]
    exact Bool.false_ne_true

/-- The entries of a list that no later one replaces. -/
def keepLast {α : Type} (same : α → α → Bool) (l : List α) : List α :=
  l.zipIdx.filterMap fun e => if (l.drop (e.2 + 1)).any (same · e.1) then none else some e.1

theorem keepLast_cons {α : Type} (same : α → α → Bool) (a : α) (l : List α) :
    keepLast same (a :: l) = (if l.any (same · a) then [] else [a]) ++ keepLast same l := by
  rw [keepLast, List.zipIdx_cons, List.filterMap_cons, List.zipIdx_succ, List.filterMap_map]
  by_cases h : l.any (same · a) = true
  · rw [if_pos h]
    simp only [Nat.zero_add, List.drop_succ_cons, List.drop_zero, h, if_true]
    rfl
  · rw [if_neg h]
    simp only [Nat.zero_add, List.drop_succ_cons, List.drop_zero, h]
    rfl

/-- Of entries in rising order those stay that no greater one replaces. -/
theorem keepLast_map {α : Type} (same : α → α → Bool) (g : Nat → α) {is : List Nat} (h : is.Pairwise (· < ·)) :
    keepLast same (is.map g) = (is.filter fun i => !is.any fun j => decide (i < j) && same (g j) (g i)).map g := by
  induction is with
  | nil => rfl
  | cons i is ih =>
    obtain ⟨hi, his⟩ := List.pairwise_cons.1 h
    have htail : (is.filter fun k => !(i :: is).any fun j => decide (k < j) && same (g j) (g k)) =
        is.filter fun k => !is.any fun j => decide (k < j) && same (g j) (g k) := by
      refine List.filter_congr fun k hk => ?_
      rw [List.any_cons, decide_eq_false (Nat.not_lt.2 (hi k hk).le), Bool.false_and, Bool.false_or]
    have hhead : ((i :: is).any fun j => decide (i < j) && same (g j) (g i)) = (is.map g).any (same · (g i)) := by
      rw [List.any_cons, decide_eq_false (lt_irrefl i), Bool.false_and, Bool.false_or, List.any_map, Bool.eq_iff_iff,
        List.any_eq_true, List.any_eq_true]
      refine exists_congr fun j => and_congr_right fun hj => ?_
      rw [decide_eq_true (hi j hj), Bool.true_and, Function.comp]
    rw [List.map_cons, keepLast_cons, ih his, List.filter_cons, htail, hhead]
    cases (is.map g).any (same · (g i)) <;> rfl

/-- The last active lane of its address. -/
def State.lastLane (s : State) (t : VTy) (q : QReg) (ad : Nat → Nat) (i : Nat) : Bool :=
  s.laneOn t q i && (List.range t.lanes).all fun j => !(decide (i < j) && s.laneOn t q j && ad j == ad i)

/-- The pool writes of a store: each address by its highest-numbered active lane. -/
def State.laneStore (s : State) (d : Nat) (t : VTy) (vd : VReg) (q : QReg) (ad : Nat → Nat) : State :=
  { s with pend := s.pend ++ ((List.range t.lanes).filter (s.lastLane t q ad)).map fun i =>
      s.writeOf d (.pool s.ctx.core (ad i) ((leBytes t.bytes ((s.lanesV t vd).getD i 0)).map some) false) }

theorem State.lanesV_eq_map (s : State) (t : VTy) (r : VReg) :
    s.lanesV t r = (List.range t.lanes).map fun i => (s.lanesV t r).getD i 0 := by
  apply List.ext_getElem
  · simp
  · intro i h _
    simp [List.getElem?_eq_getElem h]

theorem State.storeRuns_lanePlaces (s : State) (t : VTy) (vd : VReg) (q : QReg) (ad : Nat → Nat) :
    storeRuns t.bytes (s.lanePlaces t q ad) (s.lanesV t vd) =
      ((List.range t.lanes).filter (s.lastLane t q ad)).map fun i => (ad i, leBytes t.bytes ((s.lanesV t vd).getD i 0)) := by
  have hall : (List.zip (s.lanePlaces t q ad) (s.lanesV t vd)).filterMap (fun e => e.1.map fun a => (a, leBytes t.bytes e.2)) =
      (s.lanesOn t q).map fun i => (ad i, leBytes t.bytes ((s.lanesV t vd).getD i 0)) := by
    conv_lhs => rw [State.lanePlaces, s.lanesV_eq_map t vd, List.zip_map', List.filterMap_map]
    rw [State.lanesOn_eq_filter, ← filterMap_ite_some]
    refine List.filterMap_congr fun i _ => ?_
    simp only [Function.comp]
    cases s.laneOn t q i <;> rfl
  have hsorted : (s.lanesOn t q).Pairwise (· < ·) := List.pairwise_lt_range.filter _
  unfold storeRuns
  dsimp only
  rw [hall]
  refine (keepLast_map (fun f e : Nat × List Byte => f.1 == e.1) _ hsorted).trans ?_
  rw [State.lanesOn_eq_filter, List.filter_filter]
  refine congrArg _ (List.filter_congr fun i _ => ?_)
  rw [State.lastLane, List.any_filter, Bool.and_comm, ← List.not_any_eq_all_not]
  refine congrArg (fun b => s.laneOn t q i && !b) (List.any_congr rfl fun j => ?_)
  rw [Bool.and_left_comm, Bool.and_assoc]

theorem State.ownStore_eq (s : State) (d : Nat) (t : VTy) (vd : VReg) (q : QReg) (ad : Nat → Nat) :
    s.ownStore d t.bytes vd (s.lanePlaces t q ad) t = s.laneStore d t vd q ad := by
  rw [State.ownStore, State.storeRuns_lanePlaces, List.foldl_map]
  refine (State.foldl_pend (w := fun i => [s.writeOf d (.pool s.ctx.core (ad i)
    ((leBytes t.bytes ((s.lanesV t vd).getD i 0)).map some) false)]) (fun p j => rfl) _).trans ?_
  rw [← List.map_eq_flatMap]
  rfl

end Sys2Proof.Machine
end

section
namespace Sys2Proof.Machine

/-! ## The tag check -/

theorem find?_eraseDups {α : Type} [BEq α] [LawfulBEq α] (p : α → Bool) (l : List α) : l.eraseDups.find? p = l.find? p := by
  induction hn : l.length using Nat.strong_induction_on generalizing l with
  | _ n ih =>
    cases l with
    | nil => rfl
    | cons a l =>
      have hlen : (l.filter fun b => !b == a).length < n := by
        rw [← hn, List.length_cons, Nat.lt_succ_iff]
        exact List.length_filter_le _ _
      rw [List.eraseDups_cons, List.find?_cons, List.find?_cons, ih _ hlen _ rfl, List.find?_filter]
      cases ha : p a with
      | true => rfl
      | false =>
        refine congrArg (l.find? ·) (funext fun b => ?_)
        by_cases hb : b = a
        · simp [hb, ha]
        · simp [hb]

/-- Of values that come twice each the first is that of the first index. -/
theorem find?_flatMap_twice {α β : Type} (p : β → Bool) (g : α → β) (l : List α) :
    (l.flatMap fun a => [g a, g a]).find? p = (l.find? fun a => p (g a)).map g := by
  induction l with
  | nil => rfl
  | cons a l ih =>
    rw [List.flatMap_cons, List.find?_append, ih, List.find?_cons]
    cases h : p (g a) <;> simp [h]

theorem State.tagAt_granule (s : State) (c a : Nat) : s.tagAt c (a / 1024 * 1024) = s.tagAt c a := by
  rw [State.tagAt, Nat.mul_div_cancel _ (by decide), State.tagAt]

theorem State.tagOk_granule (s : State) (c a : Nat) (e : BitVec 16) : s.tagOk c (a / 1024 * 1024) e = s.tagOk c a e := by
  rw [State.tagOk, State.tagAt_granule, State.tagOk]

/-- An aligned lane lies in one granule. -/
theorem granule_of_aligned {t : VTy} {a : Nat} (h : a % t.bytes = 0) : (a + t.bytes - 1) / 1024 = a / 1024 := by
  cases t <;> simp only [VTy.bytes] at h ⊢ <;> omega

/-- The granule that fails a check is that of the first active lane whose granule fails. -/
theorem State.badTag_eq {s : State} {t : VTy} {q : QReg} {ad : Nat → Nat} (h : s.fitsLanes t q ad) (c : Nat) (e : BitVec 16) :
    s.badTag c (granules t.bytes (s.lanePlaces t q ad)) e =
      ((List.range t.lanes).find? fun i => s.laneOn t q i && !s.tagOk c (ad i) e).map fun i => ad i / 1024 * 1024 := by
  have hgran : ((s.lanesOn t q).map ad).flatMap (fun a => [a / 1024 * 1024, (a + t.bytes - 1) / 1024 * 1024]) =
      (s.lanesOn t q).flatMap fun i => [ad i / 1024 * 1024, ad i / 1024 * 1024] := by
    rw [List.flatMap_map]
    refine List.flatMap_congr fun i hi => ?_
    rw [granule_of_aligned (h i ((s.mem_lanesOn t q).1 hi)).1]
  rw [State.badTag, granules, State.filterMap_lanePlaces, hgran, find?_eraseDups, find?_flatMap_twice, State.lanesOn_eq_filter,
    List.find?_filter]
  simp only [State.tagOk_granule, Bool.decide_and, Bool.decide_eq_true]

section
variable {s : State} {t : VTy} {q : QReg} {ad : Nat → Nat} (hfit : s.fitsLanes t q ad)
include hfit

theorem State.badTag_none {c : Nat} {e : BitVec 16} (h : ∀ i, s.laneOn t q i = true → s.tagOk c (ad i) e = true) :
    s.badTag c (granules t.bytes (s.lanePlaces t q ad)) e = none := by
  rw [State.badTag_eq hfit, Option.map_eq_none_iff, List.find?_eq_none]
  intro i _ hi
  rw [Bool.and_eq_true, Bool.not_eq_true'] at hi
  exact Bool.eq_false_iff.1 hi.2 (h i hi.1)

theorem State.badTag_first {c : Nat} {e : BitVec 16} {i : Nat} (hi : s.laneOn t q i = true) (hbad : s.tagOk c (ad i) e = false)
    (hlow : ∀ j < i, s.laneOn t q j = true → s.tagOk c (ad j) e = true) :
    s.badTag c (granules t.bytes (s.lanePlaces t q ad)) e = some (ad i / 1024 * 1024) := by
  rw [State.badTag_eq hfit, List.find?_range_eq_some.2]
  · rfl
  · refine ⟨by rw [hi, hbad]; rfl, List.mem_range.2 (s.lt_of_laneOn t q hi), fun j hj => ?_⟩
    cases hon : s.laneOn t q j with
    | false => rfl
    | true => rw [hlow j hj hon]; rfl

end

theorem State.tagWord_granule (s : State) (c a : Nat) (e : BitVec 16) :
    s.tagWord c (a / 1024 * 1024) e = BitVec.ofNat 64 ((s.tagAt c a).toNat * 65536 + e.toNat) := by
  rw [State.tagWord, State.tagAt_granule]
  apply BitVec.eq_of_toNat_eq
  rw [BitVec.toNat_setWidth, BitVec.toNat_ofNat, toNat_append_add]
  rfl

/-- The wait of a checked load in an elastic phase: one wait for the tags more, and no register, byte or pending write. -/
theorem State.hold_newOp (s : State) (o : Op) (w : WaitFor) (i : Option Instr) :
    let p := s.newOp s.ctx.core o
    let u := ({ p.2 with ctx := { p.2.ctx with op := p.1 } } : State).hold w none i
    ∃ y, u.me.waits = s.me.waits ++ [y] ∧ y.what = w ∧ u.me.x = s.me.x ∧ u.pool = s.pool ∧ u.pend = s.pend := by
  intro p u
  have hme := s.me_newOp o
  have hu := State.hold_me { p.2 with ctx := { p.2.ctx with op := p.1 } } w none i
  have hwaits : p.2.me.waits = s.me.waits := (congrArg Core.waits hme :)
  have hx : p.2.me.x = s.me.x := (congrArg Core.x hme :)
  exact ⟨_, (congrArg Core.waits hu).trans (congrArg (· ++ [_]) hwaits), rfl, (congrArg Core.x hu).trans hx, rfl, rfl⟩

/-! ## Tag-checked loads -/

section
variable {s : State} {t : VTy} {q : QReg} {ad : Nat → Nat} (hfit : s.fitsLanes t q ad)

theorem State.taggedLoad_unchecked (he : s.me.early = false) (i : Instr) (d : Nat) (vd : VReg) :
    s.taggedLoad i d t.bytes vd none (s.lanePlaces t q ad) = s.laneLoad d t vd q ad := State.ownLoad_eq he d t vd q ad

include hfit

theorem State.taggedLoad_good (he : s.me.early = false) {x : XReg}
    (h : ∀ i, s.laneOn t q i = true → s.tagOk s.ctx.core (ad i) (BitVec.ofNat 16 (s.xr x).toNat) = true)
    (i : Instr) (d : Nat) (vd : VReg) :
    s.taggedLoad i d t.bytes vd (some x) (s.lanePlaces t q ad) = s.laneLoad d t vd q ad := by
  rw [State.taggedLoad]
  dsimp only
  rw [bits_low_eq_ofNat, State.badTag_none hfit h]
  exact State.ownLoad_eq he d t vd q ad

section
variable {x : XReg} {i : Nat} (hi : s.laneOn t q i = true)
  (hbad : s.tagOk s.ctx.core (ad i) (BitVec.ofNat 16 (s.xr x).toNat) = false)
  (hlow : ∀ j < i, s.laneOn t q j = true → s.tagOk s.ctx.core (ad j) (BitVec.ofNat 16 (s.xr x).toNat) = true)
include hi hbad hlow

theorem State.taggedLoad_locked (hl : s.me.elastic = false) (n : Instr) (d : Nat) (vd : VReg) :
    s.taggedLoad n d t.bytes vd (some x) (s.lanePlaces t q ad) = s.raise .schedTag (BitVec.ofNat 64 (ad i / 1024 * 1024))
      (BitVec.ofNat 64 ((s.tagAt s.ctx.core (ad i)).toNat * 65536 + (BitVec.ofNat 16 (s.xr x).toNat).toNat)) := by
  rw [State.taggedLoad]
  dsimp only
  rw [bits_low_eq_ofNat, State.badTag_first hfit hi hbad hlow, ← State.tagWord_granule]
  dsimp only
  rw [hl, if_neg Bool.false_ne_true]

theorem State.taggedLoad_elastic (hl : s.me.elastic = true) (n : Instr) (d : Nat) (vd : VReg) :
    ∃ u y, s.taggedLoad n d t.bytes vd (some x) (s.lanePlaces t q ad) = u ∧ u.me.waits = s.me.waits ++ [y] ∧ y.what = .tags ∧
      u.me.x = s.me.x ∧ u.pool = s.pool ∧ u.pend = s.pend := by
  rw [State.taggedLoad]
  dsimp only
  rw [bits_low_eq_ofNat, State.badTag_first hfit hi hbad hlow]
  dsimp only
  rw [hl, if_pos rfl]
  obtain ⟨y, hy⟩ := s.hold_newOp _ .tags (some .vaultSample)
  exact ⟨_, y, rfl, hy⟩

end
end

end Sys2Proof.Machine
end

section
namespace Sys2Proof.Machine

/-! ## The vector memory forms -/

/-- What a tag-checked load `o` gives beside the load `ld`: 06_vector.md R178, 09_pool.md R213. -/
def State.tagOutcome (s : State) (t : VTy) (q : QReg) (ad : Nat → Nat) (x : XReg) (o ld : Out) : Prop :=
  let v := BitVec.ofNat 16 (s.xr x).toNat
  let good := fun i => s.tagOk s.ctx.core (ad i) v
  ((∀ i, s.laneOn t q i = true → good i = true) → o = ld) ∧
  (∀ i, s.laneOn t q i = true → good i = false → (∀ j < i, s.laneOn t q j = true → good j = true) →
    (s.me.elastic = false → o = .next (s.raise .schedTag (BitVec.ofNat 64 (ad i / 1024 * 1024))
      (BitVec.ofNat 64 ((s.tagAt s.ctx.core (ad i)).toNat * 65536 + v.toNat)))) ∧
    (s.me.elastic = true → ∃ u y, o = .next u ∧ u.me.waits = s.me.waits ++ [y] ∧ y.what = .tags ∧ u.me.x = s.me.x ∧
      u.pool = s.pool ∧ u.pend = s.pend))

section
variable {s : State} {t : VTy} {q : QReg} {ad : Nat → Nat}

theorem State.taggedLoad_outcome (hfit : s.fitsLanes t q ad) (he : s.me.early = false) (tc : Option XReg) (i : Instr) (d : Nat)
    (vd : VReg) :
    let o := ok (s.taggedLoad i d t.bytes vd tc (s.lanePlaces t q ad))
    (tc = none → o = ok (s.laneLoad d t vd q ad)) ∧
      ∀ x, tc = some x → s.tagOutcome t q ad x o (ok (s.laneLoad d t vd q ad)) := by
  refine ⟨?_, ?_⟩
  · rintro rfl
    exact congrArg ok (State.taggedLoad_unchecked he i d vd)
  · rintro x rfl
    refine ⟨fun h => congrArg ok (State.taggedLoad_good hfit he h i d vd), fun k hk hbad hlow => ⟨fun hl => ?_, fun hl => ?_⟩⟩
    · exact congrArg ok (State.taggedLoad_locked hfit hk hbad hlow hl i d vd)
    · obtain ⟨u, y, hu, h⟩ := State.taggedLoad_elastic hfit hk hbad hlow hl i d vd
      exact ⟨u, y, congrArg ok hu, h⟩

end

section
variable {s : State} {f : VMem}

/-- The address of a VLD or VST. -/
abbrev State.blockBase (s : State) (f : VMem) : X := s.xr f.xb + f.imm.signExtend 64
/-- The address of its lane `i` in scratch. -/
abbrev State.blockAt (s : State) (f : VMem) (i : Nat) : Nat := (s.blockBase f).toNat + i * f.t.bytes

theorem exec_vld_fits (ha : (s.blockBase f).toNat < 0x180000) (h : s.fitsLanes f.t f.q (s.blockAt f)) :
    exec (.vld f) s = ok (s.taggedLoad (.vld f) 5 f.t.bytes f.vd f.tc (s.lanePlaces f.t f.q (s.blockAt f))) := by
  change execVld f s = _
  unfold execVld
  dsimp only
  rw [addrOf_zero, State.vecPlace_fits ha h]

theorem exec_vst_fits (ha : (s.blockBase f).toNat < 0x180000) (h : s.fitsLanes f.t f.q (s.blockAt f)) :
    exec (.vst f) s = ok (s.laneStore 5 f.t f.vd f.q (s.blockAt f)) := by
  change execVst f s = _
  unfold execVst
  dsimp only
  rw [addrOf_zero, State.vecPlace_fits ha h]
  exact congrArg ok (s.ownStore_eq 5 f.t f.vd f.q _)

theorem exec_vld_vst_unfit (ha : (s.blockBase f).toNat < 0x180000) (h : ¬ s.fitsLanes f.t f.q (s.blockAt f)) :
    exec (.vld f) s = ok (s.raise .poolBounds (s.blockBase f) 0) ∧
      exec (.vst f) s = ok (s.raise .poolBounds (s.blockBase f) 0) := by
  change execVld f s = _ ∧ execVst f s = _
  unfold execVld execVst
  dsimp only
  rw [addrOf_zero, State.vecPlace_unfit ha h]
  exact ⟨rfl, rfl⟩

end

section
variable {s : State} {g : VStr}

/-- The address of lane `i` of a strided form. -/
abbrev State.stridedAt (s : State) (g : VStr) (i : Nat) : Nat := (addrOf (s.xr g.xb) g.imm (i * (s.xr g.xs).toInt)).toNat

theorem exec_vlds_fits (he : s.me.early = false) (h : s.fitsLanes g.t g.q (s.stridedAt g)) :
    exec (.vlds g) s = ok (s.laneLoad 5 g.t g.vd g.q (s.stridedAt g)) := by
  change execVlds g s = _
  unfold execVlds
  dsimp only
  rw [State.ownLanes_fits h]
  exact congrArg ok (State.ownLoad_eq he 5 g.t g.vd g.q _)

theorem exec_vsts_fits (h : s.fitsLanes g.t g.q (s.stridedAt g)) :
    exec (.vsts g) s = ok (s.laneStore 5 g.t g.vd g.q (s.stridedAt g)) := by
  change execVsts g s = _
  unfold execVsts
  dsimp only
  rw [State.ownLanes_fits h]
  exact congrArg ok (s.ownStore_eq 5 g.t g.vd g.q _)

theorem exec_vlds_vsts_unfit (h : ¬ s.fitsLanes g.t g.q (s.stridedAt g)) :
    ∃ a, exec (.vlds g) s = ok (s.raise .poolBounds a 0) ∧ exec (.vsts g) s = ok (s.raise .poolBounds a 0) := by
  change ∃ a, execVlds g s = _ ∧ execVsts g s = _
  unfold execVlds execVsts
  dsimp only
  rw [State.ownLanes_unfit h]
  exact ⟨_, rfl, rfl⟩

end

section
variable {s : State} {h : VGat}

/-- The address of lane `i` of an indexed form. -/
abbrev State.indexedAt (s : State) (h : VGat) (i : Nat) : Nat :=
  (addrOf (s.xr h.xb) h.imm ((s.lanesV h.t h.va).getD i 0 * h.t.bytes)).toNat

theorem addrOf_natCast (b : X) (imm : BitVec 20) (m n : Nat) :
    addrOf b imm (m * n) = b + imm.signExtend 64 + BitVec.ofNat 64 (m * n) := by
  rw [addrOf, ← Nat.cast_mul, BitVec.ofInt_natCast]

theorem exec_vgath_fits (hf : s.fitsLanes h.t h.q (s.indexedAt h)) : exec (.vgath h) s =
    ok (s.taggedLoad (.vgath h) 11 h.t.bytes h.vd h.tc (s.lanePlaces h.t h.q (s.indexedAt h))) := by
  change execVgath h s = _
  unfold execVgath
  dsimp only
  rw [State.ownLanes_fits hf]

theorem exec_vscat_fits (hf : s.fitsLanes h.t h.q (s.indexedAt h)) :
    exec (.vscat h) s = ok (s.laneStore 11 h.t h.vd h.q (s.indexedAt h)) := by
  change execVscat h s = _
  unfold execVscat
  dsimp only
  rw [State.ownLanes_fits hf]
  exact congrArg ok (s.ownStore_eq 11 h.t h.vd h.q _)

theorem exec_vgath_vscat_unfit (hf : ¬ s.fitsLanes h.t h.q (s.indexedAt h)) :
    ∃ a, exec (.vgath h) s = ok (s.raise .poolBounds a 0) ∧ exec (.vscat h) s = ok (s.raise .poolBounds a 0) := by
  change ∃ a, execVgath h s = _ ∧ execVscat h s = _
  unfold execVgath execVscat
  dsimp only
  rw [State.ownLanes_unfit hf]
  exact ⟨_, rfl, rfl⟩

end

/-! ## Window gathers -/

theorem State.window_of_run {s : State} {r : Run} {w base size e : Nat} (hr : s.runOf s.ctx.core = some r)
    (hw : r.last.windows.getD w none = some (base, size, e)) (i : Nat) : s.window w i =
      if i < size then some (ofLe (s.poolRead s.ctx.core (base + i * e) e), e, false) else some (0, e, true) := by
  have hwin : ((s.runOf s.ctx.core).map fun r => r.last.windows.getD w none).getD none = some (base, size, e) := by
    rw [hr]
    exact hw
  unfold State.window
  rw [hwin]
  simp only [← Nat.not_lt, ite_not]

theorem exec_vgathk_unbound {s : State} {w : BitVec 3} (h : s.window w.toNat 0 = none) (u : VUn) (im : BitVec 20) :
    exec (.vgathk u w im) s = .next (s.raise .unboundWindow 0 0) := by
  change execVgathk u w im s = _
  unfold execVgathk
  rw [h]
  rfl

/-- The element that lane `i` of a window gather names. -/
def State.gatherElem (s : State) (u : VUn) (w : BitVec 3) (im : BitVec 20) (i : Nat) : Option (Nat × Nat × Bool) :=
  s.window w.toNat (BitVec.ofNat 64 ((s.lanesV u.t u.va).getD i 0) + im.signExtend 64).toNat

theorem exec_vgathk_bound {s : State} {w : BitVec 3} {v : Nat × Nat × Bool} (h : s.window w.toNat 0 = some v) (u : VUn)
    (im : BitVec 20) : exec (.vgathk u w im) s = .next
      ((if (List.range u.t.lanes).any fun i => s.laneOn u.t u.q i && (s.gatherElem u w im i).any (·.2.2) then
        s.defer 0 (.stat s.ctx.core 1) else s).deferLanes 11 u.t u.vd ((List.range u.t.lanes).map fun i =>
      if s.laneOn u.t u.q i then
        (s.gatherElem u w im i).map fun v => wrapInt u.t.bits (intOf u.t.isSint (8 * v.2.1) v.1) else none)) := by
  have hany : ∀ i, (((if s.laneOn u.t u.q i then s.gatherElem u w im i else none).map (·.2.2)).getD false) =
      (s.laneOn u.t u.q i && (s.gatherElem u w im i).any (·.2.2)) := by
    intro i
    cases s.laneOn u.t u.q i <;> cases s.gatherElem u w im i <;> rfl
  have hmap : ∀ i, ((if s.laneOn u.t u.q i then s.gatherElem u w im i else none).map fun v =>
      wrapInt u.t.bits (intOf u.t.isSint (8 * v.2.1) v.1)) = if s.laneOn u.t u.q i then
        (s.gatherElem u w im i).map fun v => wrapInt u.t.bits (intOf u.t.isSint (8 * v.2.1) v.1) else none := by
    intro i
    cases s.laneOn u.t u.q i <;> rfl
  have hls : ((s.lanesQ u.t u.q).zipIdx.map fun e => if e.1 then s.gatherElem u w im e.2 else none) =
      (List.range u.t.lanes).map fun i => if s.laneOn u.t u.q i then s.gatherElem u w im i else none :=
    s.lanesQ_zipIdx_map u.t u.q _
  simp only [State.gatherElem] at hany hmap hls ⊢
  change execVgathk u w im s = _
  unfold execVgathk
  rw [h]
  dsimp only
  rw [hls, List.any_map, List.map_map]
  simp only [Function.comp_def, hany, hmap]
  rfl

/-- Settles O15: block, strided and indexed forms by the addresses of their active lanes, the checked loads by the first granule that
fails, VGATHK by its elements. -/
theorem vectorMemoryResults : Obligations.VectorMemoryResults := by
  intro s f g h u w im r base size e c next on load store fits tagged b block strided indexed elem
  have hindexed : s.indexedAt h = indexed := funext fun i => congrArg BitVec.toNat (addrOf_natCast _ _ _ _)
  refine ⟨fun ha => ⟨fun hf => ⟨exec_vst_fits ha hf, fun he => ?_⟩, fun hf => exec_vld_vst_unfit ha hf⟩,
    fun hf => ⟨exec_vsts_fits hf, fun he => exec_vlds_fits he hf⟩, fun hf => exec_vlds_vsts_unfit hf, ?_, ?_,
    fun hw => exec_vgathk_unbound hw u im, fun hr hw => ⟨State.window_of_run hr hw, ?_⟩⟩
  · rw [exec_vld_fits ha hf]
    exact State.taggedLoad_outcome hf he f.tc _ 5 f.vd
  · rw [← hindexed]
    refine fun hf => ⟨exec_vscat_fits hf, fun he => ?_⟩
    rw [exec_vgath_fits hf]
    exact State.taggedLoad_outcome hf he h.tc _ 11 h.vd
  · rw [← hindexed]
    exact fun hf => exec_vgath_vscat_unfit hf
  · obtain ⟨v, hv⟩ : ∃ v, s.window w.toNat 0 = some v := by
      rw [State.window_of_run hr hw]
      split <;> exact ⟨_, rfl⟩
    exact exec_vgathk_bound hv u im

end Sys2Proof.Machine
end

section
namespace Sys2Proof.Machine

/-! ## The scale slot and the follow-ons -/

/-- FTSEL's fields as one number, 08_matrix.md R204. -/
theorem ftsel_eq_ofNat (fol : Bool) (b : BitVec 4) (l : BitVec 3) :
    BitVec.ofBool fol ++ b ++ 0#1 ++ l = BitVec.ofNat 9 (fol.toNat * 256 + b.toNat * 16 + l.toNat) := by
  have hb := b.isLt
  have hl := l.isLt
  have hf := fol.toNat_lt
  apply BitVec.eq_of_toNat_eq
  simp only [toNat_append_add, BitVec.toNat_ofBool, BitVec.toNat_ofNat]
  omega

/-- Operations in flight have no part in what a predicate reads. -/
theorem State.pr_setOp (s : State) (o : Nat) (v : Option Op) (p : PReg) : (s.setOp s.ctx.core o v).me.pr p = s.me.pr p := by
  rw [State.me, State.setOp_ctx, State.setOp, State.core_modCore_same]
  rfl

/-- The syllable of a follow-on as it issues, nullified unless its guard holds (02_bundles.md R46). -/
def State.followOn (s : State) (y : Syllable) : Work :=
  { ctx := { core := s.ctx.core, slot := if s.myOp.src.slot = 5 then .c0 else .c1, head := s.myOp.src.head,
             delay := s.myOp.src.delay, exec := s.me.pr y.gp != y.gs, idx := 3, req := y.gp.toNat }
    instr := y.instr }

/-- The checks that come before a follow-on whose guard holds. -/
def State.followOnChecks (s : State) (y : Syllable) : Work :=
  { ctx := { (s.followOn y).ctx with idx := 1 }, instr := .bundleIssue }

theorem execFollowOnIssue_none {s : State} (h : s.myOp.follow = none) :
    execFollowOnIssue s = .next (s.setOp s.ctx.core s.ctx.op none) := by
  unfold execFollowOnIssue
  simp only [h, ok]

theorem execFollowOnIssue_some {s : State} {y : Syllable} (h : s.myOp.follow = some y) : execFollowOnIssue s =
    .next { s.setOp s.ctx.core s.ctx.op none with
      todo := (if s.me.pr y.gp ≠ y.gs then [s.followOnChecks y, s.followOn y] else [s.followOn y]) ++ s.todo } := by
  unfold execFollowOnIssue
  simp only [h, State.pr_setOp, bne_iff_ne]
  rfl

/-- Settles O19: the scale slot by its one write, FOLLOW_ON_ISSUE by the steps that it puts first. -/
theorem scaleSlotsAndFollowOns : Obligations.ScaleSlotsAndFollowOns := by
  refine ⟨fun s va h i b v f l fol => ⟨rfl, rfl, rfl, rfl, ?_⟩, fun s => ⟨execFollowOnIssue_none, fun y h => ?_⟩⟩
  · rw [← ftsel_eq_ofNat]
    rfl
  · refine ⟨_, s.followOn y, execFollowOnIssue_some h, rfl, rfl, rfl, s.ops_setOp_none _, rfl, rfl, fun hg => ?_, fun hg => ?_⟩
    · exact ⟨bne_iff_ne.2 hg, s.followOnChecks y, congrArg (· ++ s.todo) (if_pos hg), rfl, rfl⟩
    · exact ⟨bne_eq_false_iff_eq.2 hg, congrArg (· ++ s.todo) (if_neg (not_not_intro hg))⟩

end Sys2Proof.Machine
end

section
namespace Sys2Proof.Machine

/-! ## A pool that is not in canonical form

The sampling steps read a whole row at once where the statements read each of its elements on its own. The two agree on a pool
whose addresses rise strictly, as `State.memWf` has them; the statements speak of every state. -/

/-- FP32's 1.0 at address 4, behind two entries for address 0: a read that starts at 0 passes the first, stays at the second and
gives 0 from there on, while one that starts at 4 passes both. -/
def twiceListed : Memory := [(0, 0), (0, 0), (6, 0x80), (7, 0x3F)]

/-- The step after the last column of an MMA of 1 x 32 by 32 x 2 elements, which samples the accumulator at address 0. -/
def accSample : State :=
  { pool := twiceListed, ctx := { idx := 32 }
    cores := [(0, { ops := [(0, some { instr := .mma 0 0 0 false false, shA := 0x001F, shB := 0x1F01, regs := [0] })] })] }

/-- The accumulator's row, read at once, is 0 in both elements. -/
theorem exec_arraySample_accSample : ∃ t, exec .arraySample accSample = .next t ∧ (t.op 0 0).accs = [0, 0] :=
  ⟨_, rfl, by decide⟩

/-- Refutes O17: in `accSample` ARRAY_SAMPLE takes 0 for the accumulator's second element, which on its own reads 1.0. The clause of
the accumulator's sample lacks the premise that the pool is in canonical form. -/
theorem not_matrixMultiply : ¬ Obligations.MatrixMultiply := by
  intro h
  obtain ⟨-, hstages⟩ := h
  obtain ⟨hsample, -⟩ := hstages accSample 0 0 0 false false false rfl
  obtain ⟨-, hlast⟩ := hsample rfl (by decide)
  obtain ⟨t, ht, -, -, ⟨haccs, -⟩, -⟩ := hlast (by decide)
  obtain ⟨u, hu, hzero⟩ := exec_arraySample_accSample
  obtain rfl := Host.Outcome.next.inj (ht.symm.trans hu)
  have hone := haccs rfl rfl 0 (by decide) 1 (by decide)
  rw [show (t.op accSample.ctx.core accSample.ctx.op).accs = [0, 0] from hzero] at hone
  exact absurd hone (by decide)

/-- The first group of an MCVT to BF16 at scale 1.0, from the accumulator at address 0 to a tile of 2 x 2 elements. -/
def cvtGroup : State :=
  { pool := twiceListed
    cores := [(0, { ops := [(0, some { instr := .mcvt 0 0 true false 0, st := some 0, shD := 0x10101, mask := 0x3F80 })] })] }

/-- The row, read at once, converts to 0 in both elements, without a flag. -/
theorem exec_tileMoverGroup_cvtGroup : ∃ t, exec .tileMoverGroup cvtGroup = .next t ∧
    t.pend.map PWrite.upd = [.pool 0 0 (List.replicate 4 (some 0) ++ List.replicate 508 none) true] :=
  ⟨_, rfl, by decide +kernel⟩

/-- Refutes O18: in `cvtGroup` MCVT writes 0 for the row's second element, which on its own reads 1.0. The clause of MCVT's groups lacks
the premise that the pool is in canonical form. -/
theorem not_tileMovers : ¬ Obligations.TileMovers := by
  intro h
  obtain ⟨-, hgroups⟩ := h
  obtain ⟨hstarted, -⟩ := hgroups cvtGroup 0 0 0 none 0 0 true false 0 rfl (by decide)
  obtain ⟨-, -, -, -, -, hcvt⟩ := hstarted rfl
  obtain ⟨-, hrow⟩ := hcvt rfl
  obtain ⟨bs, fl, ⟨t, ht, -, hpend, -⟩, -, -, hval, -⟩ := hrow (by decide) (by decide)
  obtain ⟨u, hu, hupd⟩ := exec_tileMoverGroup_cvtGroup
  obtain rfl := Host.Outcome.next.inj (ht.symm.trans hu)
  rw [hpend] at hupd
  injection hupd with hpool
  injection hpool with _ _ hbs
  have hbyte := hval 1 (by decide) 0 (by decide)
  rw [hbs] at hbyte
  exact absurd hbyte (by decide +kernel)

end Sys2Proof.Machine
end

section
namespace Sys2Proof.Machine

/-! ## Operations of an engine and their steps -/

/-- `t` is `s` but for the cores, the runs and the list of steps. -/
def State.Filed (s t : State) : Prop := ∃ cs ru td, t = { s with cores := cs, runs := ru, todo := td }

theorem State.Filed.refl (s : State) : s.Filed s := ⟨_, _, _, rfl⟩
theorem State.Filed.trans {s t u : State} (h : s.Filed t) (k : t.Filed u) : s.Filed u := by
  obtain ⟨_, _, _, rfl⟩ := h
  obtain ⟨_, _, _, rfl⟩ := k
  exact ⟨_, _, _, rfl⟩

section
variable {s t : State} (h : s.Filed t)
include h

theorem State.Filed.pool : t.pool = s.pool := by obtain ⟨_, _, _, rfl⟩ := h; rfl
theorem State.Filed.pend : t.pend = s.pend := by obtain ⟨_, _, _, rfl⟩ := h; rfl
theorem State.Filed.imem : t.imem = s.imem := by obtain ⟨_, _, _, rfl⟩ := h; rfl
theorem State.Filed.ctx : t.ctx = s.ctx := by obtain ⟨_, _, _, rfl⟩ := h; rfl
theorem State.Filed.sub : t.sub = s.sub := by obtain ⟨_, _, _, rfl⟩ := h; rfl
theorem State.Filed.nextOp : t.nextOp = s.nextOp := by obtain ⟨_, _, _, rfl⟩ := h; rfl
/-- The core of the step in hand stays that core. -/
theorem State.Filed.me : t.me = t.core s.ctx.core := by rw [State.me, h.ctx]
theorem State.Filed.poolRead (c a n : Nat) : t.poolRead c a n = s.poolRead c a n := by rw [State.poolRead, h.pool, State.poolRead]

end

theorem State.modCore_filed (s : State) (c : Nat) (f : Core → Core) : s.Filed (s.modCore c f) := ⟨_, _, _, rfl⟩
theorem State.setOp_filed (s : State) (c n : Nat) (v : Option Op) : s.Filed (s.setOp c n v) := s.modCore_filed c _
theorem State.at_filed (s : State) (k c : Nat) (w : Work) : s.Filed (s.at k c w) := by
  obtain h | h := s.at_eq k c w <;> rw [h]
  · exact ⟨_, _, _, rfl⟩
  · exact s.modCore_filed k _

/-- What a change of a core keeps of that core it keeps of each. -/
theorem State.core_modCore_keeps {α : Type} (g : Core → α) {f : Core → Core} (hf : ∀ k, g (f k) = g k) (s : State)
    (c d : Nat) : g ((s.modCore c f).core d) = g (s.core d) := by
  by_cases h : d = c
  · rw [h, State.core_modCore_same, hf]
  · rw [s.core_modCore_ne f h]

/-- Filing a step adds to a core's list of steps, or to none. -/
theorem State.core_at (s : State) (k c : Nat) (w : Work) (d : Nat) :
    ∃ l, (s.at k c w).core d = { s.core d with sched := (s.core d).sched ++ l } := by
  obtain h | h := s.at_eq k c w <;> rw [h]
  · exact ⟨[], by rw [List.append_nil]; rfl⟩
  · by_cases hd : d = k
    · exact ⟨_, by rw [hd, State.core_modCore_same]⟩
    · exact ⟨[], by rw [s.core_modCore_ne _ hd, List.append_nil]⟩

/-- `t` is `s`, or `s` with one step filed for core `c`. -/
def State.AddsStep (s : State) (c : Nat) (t : State) : Prop := t = s ∨ ∃ k w, t = s.at c k w

section
variable {s t : State} {c : Nat} (h : s.AddsStep c t)
include h

theorem State.AddsStep.filed : s.Filed t := by
  obtain rfl | ⟨k, w, rfl⟩ := h
  · exact .refl _
  · exact s.at_filed c k w

theorem State.AddsStep.core (d : Nat) : ∃ l, t.core d = { s.core d with sched := (s.core d).sched ++ l } := by
  obtain rfl | ⟨k, w, rfl⟩ := h
  · exact ⟨[], by rw [List.append_nil]⟩
  · exact s.core_at c k w d

theorem State.AddsStep.op (d n : Nat) : t.op d n = s.op d n := by
  obtain ⟨l, hc⟩ := h.core d
  rw [State.op, hc, State.op]

end

theorem State.op_at (s : State) (k c : Nat) (w : Work) (d n : Nat) : (s.at k c w).op d n = s.op d n :=
  State.AddsStep.op (.inr ⟨_, _, rfl⟩) d n

/-- A step that stands in the list of the core in hand stays there. -/
theorem State.sched_subset_at (s : State) (k c : Nat) (w : Work) : s.me.sched ⊆ (s.at k c w).me.sched := by
  obtain ⟨l, h⟩ := s.core_at k c w s.ctx.core
  rw [(s.at_filed k c w).me, h]
  exact List.subset_append_left _ _

/-- A step filed before the engines' part of the tick is past, or for a cycle to come, joins the core's list. -/
theorem State.mem_sched_at {s : State} {k c : Nat} (h : s.sub ≤ 10 ∨ (s.core k).cyc < c) (w : Work) :
    ⟨c, w⟩ ∈ ((s.at k c w).core k).sched := by
  have hnow : ¬ (decide (10 < s.sub) && decide (c ≤ (s.core k).cyc)) = true := by
    rw [Bool.and_eq_true, decide_eq_true_eq, decide_eq_true_eq]
    omega
  rw [State.at, if_neg hnow, State.core_modCore_same]
  exact List.mem_append_right _ (List.mem_singleton_self _)

/-- `u` is a state of the step in hand, in the same cycle of its core. -/
def State.InStep (s u : State) : Prop := u.ctx = s.ctx ∧ (u.core s.ctx.core).cyc = s.me.cyc

section
variable {s u : State} (h : s.InStep u)
include h

theorem State.InStep.me_cyc : u.me.cyc = s.me.cyc := by
  obtain ⟨hctx, hcyc⟩ := h
  rw [State.me, hctx, hcyc]

theorem State.InStep.addsStep {c : Nat} {t : State} (k : u.AddsStep c t) : s.InStep t := by
  obtain ⟨hctx, hcyc⟩ := h
  obtain ⟨l, hl⟩ := k.core s.ctx.core
  exact ⟨k.filed.ctx.trans hctx, by rw [hl]; exact hcyc⟩

/-- A step that is filed for the core in hand joins its list. -/
theorem State.InStep.mem_sched_at {due : Nat} (hd : u.sub ≤ 10 ∨ s.me.cyc < due) (w : Work) :
    ⟨due, w⟩ ∈ (u.at s.ctx.core due w).me.sched := by
  obtain ⟨hctx, hcyc⟩ := h
  rw [State.me, State.at_ctx, hctx]
  exact State.mem_sched_at (hd.imp_right hcyc.trans_lt) w

theorem State.InStep.mem_sched_next {d : Nat} (hd : u.sub ≤ 10 ∨ 0 < d) (w : Work) :
    ⟨s.me.cyc + d, w⟩ ∈ (u.at s.ctx.core (u.me.cyc + d) w).me.sched := by
  rw [h.me_cyc]
  exact h.mem_sched_at (hd.imp_right Nat.lt_add_of_pos_right) w

end

/-! ## What a sample and a write of an operation take from the state -/

/-- EARLY clear in the core that is read and in the producer's. -/
theorem State.earlyPool_eq_false {s : State} {p : Src} {c : Nat} (hc : (s.core c).early = false)
    (hp : (s.core p.core).early = false) (a n : Nat) : s.earlyPool p c a n = false := by
  rw [State.earlyPool, hc, hp]
  rfl

theorem State.opWrite_congr {s t : State} {p : Src} (hcyc : (t.core p.core).cyc = (s.core p.core).cyc)
    (hrec : (t.core p.core).inRecov = (s.core p.core).inRecov) (d : Nat) (u : Upd) : t.opWrite p d u = s.opWrite p d u := by
  simp only [State.opWrite, State.clkOf, hcyc, hrec]

theorem State.cyc_setOp (s : State) (c n : Nat) (v : Option Op) (d : Nat) : ((s.setOp c n v).core d).cyc = (s.core d).cyc :=
  State.core_modCore_keeps Core.cyc (by intros; rfl) _ _ _
theorem State.early_setOp (s : State) (c n : Nat) (v : Option Op) (d : Nat) :
    ((s.setOp c n v).core d).early = (s.core d).early :=
  State.core_modCore_keeps Core.early (by intros; rfl) _ _ _

theorem State.inStep_setOp (s : State) (c n : Nat) (v : Option Op) : s.InStep (s.setOp c n v) := ⟨rfl, s.cyc_setOp _ _ _ _⟩

@[simp] theorem State.opWrite_setOp (s : State) (c n : Nat) (v : Option Op) (p : Src) (d : Nat) (u : Upd) :
    (s.setOp c n v).opWrite p d u = s.opWrite p d u :=
  State.opWrite_congr (s.cyc_setOp _ _ _ _) (State.core_modCore_keeps Core.inRecov (by intros; rfl) _ _ _) d u

/-- `t` is `s` with the pending writes `ws`, and with what 09_pool.md R212 notes of failed data. -/
def State.Defers (s : State) (ws : List PWrite) (t : State) : Prop := ∃ r, t = { s with pend := s.pend ++ ws, wrote := r }

theorem State.Defers.trans {s t u : State} {ws vs : List PWrite} (h : s.Defers ws t) (k : t.Defers vs u) :
    s.Defers (ws ++ vs) u := by
  obtain ⟨r, rfl⟩ := h
  obtain ⟨q, rfl⟩ := k
  exact ⟨q, by rw [← List.append_assoc]⟩

theorem State.deferOp_defers (s : State) (p : Src) (d : Nat) (u : Upd) : s.Defers [s.opWrite p d u] (s.deferOp p d u) := ⟨_, rfl⟩

theorem State.deferTag_defers (s : State) (p : Src) (d c g : Nat) (bad : Bool) (v : BitVec 16) :
    s.Defers [s.opWrite p d (.tag c g (if bad then 0xFFFF else v))] (s.deferTag p d c g bad v) := by
  cases bad <;> exact ⟨_, rfl⟩

/-- A fold whose every step leaves one write, the same whatever is pending, leaves them all. -/
theorem State.foldl_defers {α : Type} {s : State} {f : State → α → State} {w : α → PWrite}
    (h : ∀ t ws a, s.Defers ws t → t.Defers [w a] (f t a)) (l : List α) : s.Defers (l.map w) (l.foldl f s) := by
  suffices hl : ∀ t ws, s.Defers ws t → t.Defers (l.map w) (l.foldl f t) from hl s [] ⟨_, by rw [List.append_nil]⟩
  induction l with
  | nil => exact fun t _ _ => ⟨_, by rw [List.map_nil, List.append_nil]; rfl⟩
  | cons a l ih =>
    intro t ws ht
    have ha := h t ws a ht
    exact ha.trans (ih _ _ (ht.trans ha))

section
variable {s t : State} {ws : List PWrite} (h : s.Defers ws t)
include h

theorem State.Defers.pool : t.pool = s.pool := by obtain ⟨_, rfl⟩ := h; rfl
theorem State.Defers.pend : t.pend = s.pend ++ ws := by obtain ⟨_, rfl⟩ := h; rfl
theorem State.Defers.inStep {u : State} (k : u.InStep s) : u.InStep t := by obtain ⟨_, rfl⟩ := h; exact k
theorem State.Defers.op (c n : Nat) : t.op c n = s.op c n := by obtain ⟨_, rfl⟩ := h; rfl
theorem State.Defers.opWrite (p : Src) (d : Nat) (u : Upd) : t.opWrite p d u = s.opWrite p d u := by obtain ⟨_, rfl⟩ := h; rfl

end

/-! ## The start of an operation -/

/-- An operation that has started is not one still to start. -/
theorem Op.not_isNone_st {o : Op} (h : o.st.isSome = true) : ¬ o.st.isNone = true := by
  rw [Option.isNone_iff_eq_none]
  exact Option.isSome_iff_ne_none.1 h

/-- Operation `n` leaves the queue of its engine, starts, and holds the engine for `d` cycles. -/
def State.takeEngine (s : State) (c n d : Nat) (o : Op) : State :=
  (s.modCore c fun k => { k with
    copyQ := Table.put k.copyQ o.eng ((Table.get [] (s.core c).copyQ o.eng).filter (· != n))
    copyFree := Table.put k.copyFree o.eng ((s.core c).cyc + d) }).setOp c n (some { o with st := some (s.core c).cyc })

/-- The start of an operation takes the engine, and files the start of the next one of its queue. -/
theorem State.startOp_adds (s : State) (c n d : Nat) (o : Op) : (s.takeEngine c n d o).AddsStep c (s.startOp c n d o) := by
  unfold State.startOp
  dsimp only
  split
  · exact .inl rfl
  · exact .inr ⟨_, _, rfl⟩

theorem State.startOp_filed (s : State) (c n d : Nat) (o : Op) : s.Filed (s.startOp c n d o) :=
  State.Filed.trans ⟨_, _, _, rfl⟩ (s.startOp_adds c n d o).filed

theorem State.op_startOp (s : State) (c n d : Nat) (o : Op) :
    (s.startOp c n d o).op c n = { o with st := some (s.core c).cyc } := by
  rw [(s.startOp_adds c n d o).op]
  exact State.op_setOp_same _ _ _ _

/-- The engine of an operation that starts for `d` cycles is free after them. -/
theorem State.copyFree_startOp (s : State) (c n d : Nat) (o : Op) :
    Table.get 0 ((s.startOp c n d o).core c).copyFree o.eng = (s.core c).cyc + d := by
  obtain ⟨l, h⟩ := (s.startOp_adds c n d o).core c
  rw [h, State.takeEngine, State.setOp, State.core_modCore_same, State.core_modCore_same]
  exact Table.get_put_same _ _ _ _

/-- What neither the queues, the engines, the operations nor the steps have a part in is as before the start. -/
theorem State.core_startOp_keeps {α : Type} (g : Core → α)
    (hg : ∀ k q f o l, g { k with copyQ := q, copyFree := f, ops := o, sched := l } = g k) (s : State) (c n d : Nat) (o : Op)
    (e : Nat) : g ((s.startOp c n d o).core e) = g (s.core e) := by
  obtain ⟨l, h⟩ := (s.startOp_adds c n d o).core e
  rw [h, State.takeEngine, State.setOp]
  exact (hg _ _ _ _ _).trans ((State.core_modCore_keeps g (fun k => hg k k.copyQ k.copyFree _ k.sched) _ _ _).trans
    (State.core_modCore_keeps g (fun k => hg k _ _ k.ops k.sched) _ _ _))

theorem State.cyc_startOp (s : State) (c n d : Nat) (o : Op) (e : Nat) :
    ((s.startOp c n d o).core e).cyc = (s.core e).cyc := State.core_startOp_keeps Core.cyc (by intros; rfl) s c n d o e

theorem State.early_startOp (s : State) (c n d : Nat) (o : Op) (e : Nat) :
    ((s.startOp c n d o).core e).early = (s.core e).early := State.core_startOp_keeps Core.early (by intros; rfl) s c n d o e

theorem State.inStep_startOp (s : State) (c n d : Nat) (o : Op) : s.InStep (s.startOp c n d o) :=
  ⟨(s.startOp_filed _ _ _ _).ctx, s.cyc_startOp _ _ _ _ _⟩

/-- An operation starts, and its own next step is filed. -/
theorem State.startOp_next (s : State) (n d : Nat) (o : Op) {e : Nat} (h : s.sub ≤ 10 ∨ 0 < e) (w : Work) :
    let u := s.startOp s.ctx.core n d o
    let t := u.at s.ctx.core (u.me.cyc + e) w
    t.op s.ctx.core n = { o with st := some s.me.cyc } ∧ Table.get 0 t.me.copyFree o.eng = s.me.cyc + d ∧
      ⟨s.me.cyc + e, w⟩ ∈ t.me.sched ∧ t.pool = s.pool ∧ t.pend = s.pend := by
  intro u t
  have hu : s.Filed u := s.startOp_filed _ _ _ _
  have ht : s.Filed t := hu.trans (State.at_filed _ _ _ _)
  refine ⟨?_, ?_, (s.inStep_startOp _ _ _ _).mem_sched_next (h.imp_left hu.sub.trans_le) _, ht.pool, ht.pend⟩
  · rw [State.op_at, State.op_startOp]
    rfl
  · obtain ⟨l, hl⟩ := u.core_at s.ctx.core (u.me.cyc + e) w s.ctx.core
    rw [ht.me, hl]
    exact s.copyFree_startOp _ _ _ _

/-! ## The end of an operation -/

/-- An operation that ends is filed again with its last cycle, and its follow-on is a step of the next cycle. -/
theorem State.finishOp_eq (s : State) (c n : Nat) (o : Op) : ∃ ru, s.finishOp c n o =
    (({ s with runs := ru } : State).setOp c n (some { o with fin := some (s.core c).cyc, fut := [], futX := [] })).at c
      ((s.core c).cyc + 1) { ctx := { core := c, op := n }, instr := .followOnIssue } := by
  unfold State.finishOp
  dsimp only
  split
  · split
    · exact ⟨_, rfl⟩
    · exact ⟨_, rfl⟩
  · exact ⟨_, rfl⟩

theorem State.finishOp_filed (s : State) (c n : Nat) (o : Op) : s.Filed (s.finishOp c n o) := by
  obtain ⟨ru, h⟩ := s.finishOp_eq c n o
  rw [h]
  exact State.Filed.trans ⟨_, _, _, rfl⟩ (State.at_filed _ _ _ _)

theorem State.op_finishOp (s : State) (c n : Nat) (o : Op) :
    (s.finishOp c n o).op c n = { o with fin := some (s.core c).cyc, fut := [], futX := [] } := by
  obtain ⟨ru, h⟩ := s.finishOp_eq c n o
  rw [h, State.op_at, State.op_setOp_same]

end Sys2Proof.Machine
end

section
namespace Sys2Proof.Machine

/-! ## The copy forms -/

/-- Operation `o` is filed and joins the queue of the engine of the syllable in hand. -/
def State.queueOp (s : State) (o : Op) : State :=
  (s.newOp s.ctx.core { o with src := s.src, eng := s.myEngine }).2.modMe fun k =>
    { k with copyQ := Table.put k.copyQ s.myEngine (Table.get [] s.me.copyQ s.myEngine ++ [s.nextOp]) }

/-- Queueing files the operation's start where it is the first of its queue. -/
theorem State.enqueue_adds (s : State) (o : Op) : (s.queueOp o).AddsStep s.ctx.core (s.enqueue o) := by
  unfold State.enqueue
  dsimp only
  split
  · exact .inr ⟨_, _, rfl⟩
  · exact .inl rfl

theorem State.me_queueOp (s : State) (o : Op) : (s.queueOp o).me = { s.me with
    ops := Table.put s.me.ops s.nextOp (some { o with src := s.src, eng := s.myEngine })
    copyQ := Table.put s.me.copyQ s.myEngine (Table.get [] s.me.copyQ s.myEngine ++ [s.nextOp]) } := by
  rw [State.queueOp, State.me_modMe, State.me_newOp]

/-- An operation that is queued joins its engine's queue under the next number, not yet started. -/
theorem State.enqueue_queues (s : State) {o : Op} {i : Instr} {p : Op → Prop} (hi : o.instr = i) (hst : o.st = none)
    (hp : p { o with src := s.src, eng := s.myEngine }) :
    ∃ t, ok (s.enqueue o) = .next t ∧ (t.op s.ctx.core s.nextOp).instr = i ∧ (t.op s.ctx.core s.nextOp).st = none ∧
      (t.op s.ctx.core s.nextOp).eng = s.myEngine ∧ p (t.op s.ctx.core s.nextOp) ∧ t.nextOp = s.nextOp + 1 ∧ t.pool = s.pool ∧
      t.pend = s.pend ∧ Table.get [] t.me.copyQ s.myEngine = Table.get [] s.me.copyQ s.myEngine ++ [s.nextOp] := by
  have hadds := s.enqueue_adds o
  have hfiled := hadds.filed
  obtain ⟨l, hcore⟩ := hadds.core s.ctx.core
  have hme : (s.enqueue o).me = (s.enqueue o).core s.ctx.core := hfiled.me
  have hop : (s.enqueue o).op s.ctx.core s.nextOp = { o with src := s.src, eng := s.myEngine } := by
    rw [hadds.op, State.op, show (s.queueOp o).core s.ctx.core = _ from s.me_queueOp o, Table.get_put_same, Option.getD_some]
  refine ⟨_, rfl, ?_, ?_, ?_, ?_, hfiled.nextOp, hfiled.pool, hfiled.pend, ?_⟩
  · rw [hop, hi]
  · rw [hop, hst]
  · rw [hop]
  · rwa [hop]
  · rw [hme, hcore, show (s.queueOp o).core s.ctx.core = _ from s.me_queueOp o]
    exact Table.get_put_same _ _ _ _

/-- An engine with room takes the form. -/
theorem State.onEngine_room {s : State} (h : s.me.queued s.myEngine < 8) (i : Instr) (go : State → State) :
    s.onEngine i go = go s := if_neg (Nat.not_le.2 h)

/-- A full engine: a fault in a locked phase, a wait in an elastic one, whatever the form. -/
theorem State.onEngine_full {s : State} (h : 8 ≤ s.me.queued s.myEngine) (i : Instr) (go : State → State) :
    s.onEngine i go = if s.me.elastic then s.hold .room none (some i) else s.raise .sendqFull 0 0 := if_pos h

section
variable {s : State} (h : s.me.queued s.myEngine < 8)
include h

theorem State.issueCopy_queues {xa xb xc : XReg} {ss ds : Int} {n m cs cd : Nat} {rs rd : List Nat}
    (hs : s.rowsAt (s.xr xb) ss n m = .ok (cs, rs)) (hd : s.rowsAt (s.xr xa) ds n m = .ok (cd, rd)) (i : Instr)
    (fo : Option (BitVec 2)) : s.issueCopy i xa xb xc fo ss ds n m = s.enqueue
      { instr := i, cs := cs, cd := cd, hs := hops s.ctx.core cs, hd := hops cs cd, regs := rs, rowsD := rd,
        x0 := BitVec.ofNat 64 m, tag := bits (s.xr xc) 0 16, follow := s.followSyl fo, fut := rd.map fun d => (cd, d, m) } := by
  rw [State.issueCopy, State.onEngine_room h, hs, hd]

theorem State.issueDecode_queues {a : CplArgs} {cs cd o d : Nat} (hs : s.rowAt (s.xr a.xb) 1 = some (cs, o))
    (hd : s.rowAt (s.xr a.xa) a.n.toNat = some (cd, d)) (slot : BitVec 2) : s.issueDecode a slot = s.enqueue
      { instr := .cpl a, cs := cs, cd := cd, hs := hops s.ctx.core cs, hd := hops cs cd, as := o, ad := d, x0 := s.xr a.xb,
        x1 := slot.setWidth 64, mask := a.n.setWidth 256, tag := bits (s.xr a.xc) 0 16, follow := s.followSyl a.fo,
        fut := [(cd, d, a.n.toNat)] } := by
  rw [State.issueDecode, State.onEngine_room h, hs, hd]

end

theorem exec_cpl_rows {a : CplArgs} (h : a.dec = none) (s : State) :
    exec (.cpl a) s = ok (s.issueCopy (.cpl a) a.xa a.xb a.xc a.fo 0 0 1 a.n.toNat) := by
  change execCpl a s = _
  rw [execCpl, h]

theorem exec_cpl_decode {a : CplArgs} {d : BitVec 2} (h : a.dec = some d) (s : State) :
    exec (.cpl a) s = ok (s.issueDecode a d) := by
  change execCpl a s = _
  rw [execCpl, h]

theorem exec_cpv (v : CpvArgs) (s : State) : exec (.cpv v) s = ok (s.issueCopy (.cpv v) v.xa v.xb v.xc v.fo
    (s.ctx.lits.getD (2 * v.sp.toNat) 0).toInt (s.ctx.lits.getD (2 * v.sp.toNat + 1) 0).toInt (v.rows.toNat + 1) v.m.toNat) := rfl

theorem exec_cpi_queues {s : State} {xa : XReg} (h : s.me.queued s.myEngine < 8) (ha : (s.xr xa).toNat % 4 = 0)
    (hin : (s.xr xa).toNat + 16 ≤ s.me.carve.scrlim) :
    exec (.cpi xa) s = ok (s.enqueue { instr := .cpi xa, as := (s.xr xa).toNat, cs := s.ctx.core, x0 := s.xr xa }) := by
  have htest : ((s.xr xa).toNat % 4 = 0 && s.me.inScratch (s.xr xa) 16) = true := by
    rw [decide_eq_true ha, Core.inScratch, decide_eq_true hin, Bool.and_self]
  change execCpi xa s = _
  rw [execCpi, State.onEngine_room h]
  exact congrArg ok (if_pos htest)

theorem exec_dtab_queues {s : State} {xa : XReg} {slot : BitVec 2} (h : s.me.queued s.myEngine < 8)
    (hin : (s.xr xa).toNat + 288 ≤ s.me.carve.scrlim) : exec (.dtab xa slot) s =
      ok (s.enqueue { instr := .dtab xa slot, as := (s.xr xa).toNat, cs := s.ctx.core, x1 := slot.setWidth 64 }) := by
  change execDtab xa slot s = _
  rw [execDtab, State.onEngine_room h]
  exact congrArg ok (if_pos (decide_eq_true hin))

/-- Every copy form asks its engine for room before anything else. -/
theorem exec_onEngine (s : State) (a : CplArgs) (v : CpvArgs) (xa : XReg) (sl : BitVec 2) {i : Instr}
    (hi : i ∈ [Instr.cpl a, .cpv v, .cpi xa, .dtab xa sl]) : ∃ go, exec i s = ok (s.onEngine i go) := by
  simp only [List.mem_cons, List.not_mem_nil, or_false] at hi
  obtain rfl | rfl | rfl | rfl := hi
  · cases h : a.dec with
    | none => exact ⟨_, exec_cpl_rows h s⟩
    | some d => exact ⟨_, exec_cpl_decode h s⟩
  all_goals exact ⟨_, rfl⟩

/-! ## The beats of a copy -/

/-- Beat `t` of a copy writes in granule `g`, 09_pool.md R212. -/
def Op.hits (o : Op) (t g : Nat) : Prop :=
  (o.beat t).2.1 / 1024 ≤ g ∧ g ≤ ((o.beat t).2.1 + (o.beat t).2.2 - 1) / 1024

theorem Op.beatTouches_iff (o : Op) (t g : Nat) : o.beatTouches t g = true ↔ o.hits t g := by
  rw [Op.beatTouches, Bool.and_eq_true, decide_eq_true_eq, decide_eq_true_eq, Op.hits]

/-- A beat moves 1 to 128 bytes. -/
theorem Op.beat_length {o : Op} {t : Nat} (h : t < o.beats) : 0 < (o.beat t).2.2 ∧ (o.beat t).2.2 ≤ 128 := by
  have hb : 0 < ceilDiv o.x0.toNat 128 := Nat.pos_of_mul_pos_left (Nat.zero_lt_of_lt h)
  have hmod : t % ceilDiv o.x0.toNat 128 < ceilDiv o.x0.toNat 128 := Nat.mod_lt _ hb
  rw [Op.beat, max_eq_right hb]
  dsimp only
  generalize t % ceilDiv o.x0.toNat 128 = j at hmod
  rw [ceilDiv] at hmod
  omega

/-- The granules that a beat tags are those that it writes in and no later beat does. -/
theorem Op.mem_lastGranules {o : Op} {t : Nat} (h : t < o.beats) (g : Nat) :
    g ∈ o.lastGranules t ↔ o.hits t g ∧ ∀ i, t < i → i < o.beats → ¬ o.hits i g := by
  obtain ⟨hpos, hle⟩ := o.beat_length h
  have hspan : g = (o.beat t).2.1 / 1024 ∨ g = ((o.beat t).2.1 + (o.beat t).2.2 - 1) / 1024 ↔ o.hits t g := by
    rw [Op.hits]
    omega
  have hlater : (∀ k < o.beats - t - 1, ¬ o.hits (t + 1 + k) g) ↔ ∀ i, t < i → i < o.beats → ¬ o.hits i g := by
    constructor
    · intro hk i hti hi
      obtain ⟨k, rfl⟩ := Nat.exists_eq_add_of_le (Nat.succ_le_of_lt hti)
      exact hk k (by omega)
    · exact fun hi k hk => hi _ (by omega) (by omega)
  rw [← hspan, ← hlater]
  simp only [Op.lastGranules, List.mem_filter, List.mem_eraseDups, List.mem_cons, List.not_mem_nil, or_false, Bool.not_eq_true',
    List.any_map, List.any_eq_false, List.mem_range, Function.comp, Bool.and_eq_true, decide_eq_true_eq, Op.hits]

/-- The step of beat `i` of the copy in hand. -/
def State.beatStep (s : State) (i : Nat) : Work := { ctx := { core := s.ctx.core, op := s.ctx.op, idx := i }, instr := .copyBeat }

theorem execCopyBeat_start {s : State} (h : s.myOp.st = none) :
    let u := s.startOp s.ctx.core s.ctx.op s.myOp.beats s.myOp
    execCopyBeat s = .next (u.at s.ctx.core (u.me.cyc + s.myOp.hs) (s.beatStep 0)) :=
  if_pos (Option.isNone_iff_eq_none.2 h)

theorem execCopyBeat_finish {s : State} (h : s.myOp.st.isSome = true) (hb : s.myOp.beats ≤ s.ctx.idx) :
    execCopyBeat s = .next (s.finishOp s.ctx.core s.ctx.op s.myOp) :=
  (if_neg (Op.not_isNone_st h)).trans (if_pos hb)

/-- The operation of a copy after the beat in hand, sampled unless the SRAM rail is down. -/
def State.beatOp (s : State) : Op :=
  { s.myOp with fut := s.myOp.futAfter s.ctx.idx, outs := s.myOp.outs ++ [([], s.sramDown s.myOp.cs, false)] }

/-- The state in which the beat in hand is sampled. -/
def State.beatNoted (s : State) : State := s.setOp s.ctx.core s.ctx.op (some s.beatOp)

/-- The faults of the beat in hand, and its write. -/
def State.beatMoved (s : State) : State :=
  let o := s.myOp
  let (a, d, l) := o.beat s.ctx.idx
  let u := if s.beatNoted.earlyPool o.src o.cs a l then s.beatNoted.raiseOp .earlyRead o.src 0 else s.beatNoted
  if s.sramDown o.cs then u.raiseOp .railDown o.src 0
  else u.deferOp o.src (2 + o.hd) (.pool o.cd d (someBytes (u.poolRead o.cs a l)) false)

/-- The granules that take their tag with the beat in hand. -/
def State.beatGranules (s : State) : List Nat := (s.myOp.lastGranules s.ctx.idx).filter fun g =>
  s.beatOp.outs.zipIdx.any fun e => !e.1.2.1 && s.myOp.beatTouches e.2 g

/-- The state after the beat in hand, but for its next step. -/
def State.beatDone (s : State) : State := s.beatGranules.foldl
  (fun u g => u.deferOp s.myOp.src (2 + s.myOp.hd) (.tag s.myOp.cd g s.myOp.tag)) s.beatMoved

theorem execCopyBeat_beat {s : State} (h : s.myOp.st.isSome = true) (hb : s.ctx.idx < s.myOp.beats) :
    execCopyBeat s = .next (s.beatDone.at s.ctx.core
      (s.beatDone.me.cyc + if s.ctx.idx + 1 = s.myOp.beats then 2 + s.myOp.hd else 1) (s.beatStep (s.ctx.idx + 1))) := by
  have hgo : execCopyBeat s = ok (if s.ctx.idx + 1 = s.myOp.beats
      then s.beatDone.at s.ctx.core (s.beatDone.me.cyc + (2 + s.myOp.hd)) (s.beatStep (s.ctx.idx + 1))
      else s.beatDone.at s.ctx.core (s.beatDone.me.cyc + 1) (s.beatStep (s.ctx.idx + 1))) :=
    (if_neg (Op.not_isNone_st h)).trans (if_neg (Nat.not_le.2 hb))
  rw [hgo]
  split <;> rfl

/-- The tags that fall with the write of the beat in hand. -/
def State.beatTags (s : State) : List PWrite := (s.myOp.lastGranules s.ctx.idx).map fun g =>
  s.opWrite s.myOp.src (2 + s.myOp.hd) (.tag s.myOp.cd g s.myOp.tag)

/-- The write of the beat in hand, of the bytes as they stand now. -/
def State.beatWrite (s : State) : PWrite :=
  let (a, d, l) := s.myOp.beat s.ctx.idx
  s.opWrite s.myOp.src (2 + s.myOp.hd) (.pool s.myOp.cd d ((s.poolRead s.myOp.cs a l).map some) false)

section
variable {s : State} (hrail : (s.core s.myOp.cs).rails.getLsbD 2 = true)
include hrail

theorem State.sramDown_eq_false : s.sramDown s.myOp.cs = false := by rw [State.sramDown, hrail]; rfl

/-- A beat that is sampled has written in its granules, so that all of them take their tag. -/
theorem State.beatGranules_eq (hlen : s.myOp.outs.length = s.ctx.idx) (hb : s.ctx.idx < s.myOp.beats) :
    s.beatGranules = s.myOp.lastGranules s.ctx.idx := by
  have hlast : s.beatOp.outs[s.ctx.idx]? = some ([], false, false) := by
    rw [State.beatOp, State.sramDown_eq_false hrail, ← hlen, List.getElem?_concat_length]
  refine List.filter_eq_self.2 fun g hg => List.any_eq_true.2 ⟨(([], false, false), s.ctx.idx), ?_, ?_⟩
  · exact List.mem_zipIdx_iff_getElem?.2 hlast
  · exact (s.myOp.beatTouches_iff _ _).2 ((Op.mem_lastGranules hb g).1 hg).1

theorem State.beatMoved_defers (hearly : (s.core s.myOp.cs).early = false) (hsrc : (s.core s.myOp.src.core).early = false) :
    s.beatNoted.Defers [s.beatWrite] s.beatMoved := by
  have hkeep (d : Nat) : (s.beatNoted.core d).early = (s.core d).early := s.early_setOp _ _ _ _
  have hw : s.beatNoted.opWrite _ _ _ = s.beatWrite := State.opWrite_setOp _ _ _ _ _ _ _
  unfold State.beatMoved
  dsimp only
  rw [State.earlyPool_eq_false ((hkeep _).trans hearly) ((hkeep _).trans hsrc), if_neg Bool.false_ne_true,
    State.sramDown_eq_false hrail, if_neg Bool.false_ne_true, ← hw]
  exact State.deferOp_defers _ _ _ _

/-- A beat of a started copy whose bytes can be sampled leaves its write and its tags. -/
theorem State.beatDone_defers (hlen : s.myOp.outs.length = s.ctx.idx) (hb : s.ctx.idx < s.myOp.beats)
    (hearly : (s.core s.myOp.cs).early = false) (hsrc : (s.core s.myOp.src.core).early = false) :
    s.beatNoted.Defers (s.beatWrite :: s.beatTags) s.beatDone := by
  have hmoved := State.beatMoved_defers hrail hearly hsrc
  suffices htags : s.beatMoved.Defers s.beatTags s.beatDone from hmoved.trans htags
  rw [State.beatDone, State.beatGranules_eq hrail hlen hb, State.beatTags]
  refine State.foldl_defers (fun t ws g ht => ?_) _
  have hw := (hmoved.trans ht).opWrite s.myOp.src (2 + s.myOp.hd) (.tag s.myOp.cd g s.myOp.tag)
  rw [State.beatNoted, State.opWrite_setOp] at hw
  rw [← hw]
  exact State.deferOp_defers _ _ _ _

end

/-- A write of a tag tells the granule. -/
theorem State.opWrite_tag_inj {s : State} {p : Src} {d c g h : Nat} {v : BitVec 16} :
    s.opWrite p d (.tag c g v) = s.opWrite p d (.tag c h v) ↔ g = h := by
  simp [State.opWrite]

/-- Settles O20: the forms by the operation that they queue, COPY_BEAT by its three cases. -/
theorem copyEngines : Obligations.CopyEngines := by
  refine ⟨fun s a v xa sl hroom => ?_, fun s a v xa sl hfull i hi => ?_,
    fun s => ⟨fun hst hsub => ?_, fun hst hb hlen hearly hsrc hrail => ?_, fun hst hb => execCopyBeat_finish hst hb⟩⟩
  · intro queues
    have hqueues {o : Op} {i : Instr} {p : Op → Prop} (hi : o.instr = i) (hst : o.st = none)
        (hp : p { o with src := s.src, eng := s.myEngine }) : queues (ok (s.enqueue o)) i p := s.enqueue_queues hi hst hp
    clear_value queues
    refine ⟨fun cs cd rs rd hdec hs hd => ?_, fun d cs cd o1 d1 hdec hs hd => ?_, fun cs cd rs rd hs hd => ?_,
      fun ha hin => ?_, fun hin => ?_⟩
    · rw [exec_cpl_rows hdec, State.issueCopy_queues hroom hs hd]
      exact hqueues rfl rfl ⟨rfl, rfl, rfl, rfl, rfl, bits_low_eq_ofNat _ _⟩
    · rw [exec_cpl_decode hdec, State.issueDecode_queues hroom hs hd]
      exact hqueues rfl rfl ⟨rfl, rfl, rfl, rfl, rfl, bits_low_eq_ofNat _ _⟩
    · rw [exec_cpv, State.issueCopy_queues hroom hs hd]
      exact hqueues rfl rfl ⟨rfl, rfl, rfl, rfl, rfl, bits_low_eq_ofNat _ _⟩
    · rw [exec_cpi_queues hroom ha hin]
      exact hqueues rfl rfl rfl
    · rw [exec_dtab_queues hroom hin]
      exact hqueues rfl rfl ⟨rfl, rfl⟩
  · obtain ⟨go, hgo⟩ := exec_onEngine s a v xa sl hi
    rw [hgo, State.onEngine_full hfull]
    exact ⟨fun he => by rw [he]; rfl, fun he => by rw [he]; rfl⟩
  · obtain ⟨hop, hfree, hnext, hpool, hpend⟩ := s.startOp_next s.ctx.op s.myOp.beats s.myOp (.inl hsub) (s.beatStep 0)
    exact ⟨_, execCopyBeat_start hst, congrArg Op.st hop, hfree, ⟨_, hnext, rfl, rfl, rfl, rfl⟩, hpool, hpend⟩
  · have hdone := State.beatDone_defers hrail hlen hb hearly hsrc
    have hlater : 0 < if s.ctx.idx + 1 = s.myOp.beats then 2 + s.myOp.hd else 1 := by split <;> omega
    refine ⟨_, s.beatTags, execCopyBeat_beat hst hb, (State.at_pool _ _ _ _).trans hdone.pool,
      (State.at_pend _ _ _ _).trans hdone.pend, fun w hw => ?_, fun g => ?_,
      ⟨_, (hdone.inStep (s.inStep_setOp _ _ _)).mem_sched_next (.inr hlater) _, rfl, rfl, rfl, rfl⟩⟩
    · obtain ⟨g, -, rfl⟩ := List.mem_map.1 hw
      exact ⟨g, rfl⟩
    · simp only [State.beatTags, List.mem_map, State.opWrite_tag_inj, exists_eq_right]
      exact Op.mem_lastGranules hb g

end Sys2Proof.Machine
end

section
namespace Sys2Proof.Machine

/-! ## The decanter -/

/-- The step of container `i` of the decode copy in hand; plane 1 is its overrun, plane 2 the copy's end. -/
def State.containerStep (s : State) (i p : Nat) : Work :=
  { ctx := { core := s.ctx.core, op := s.ctx.op, idx := i, plane := p }, instr := .decodeContainer }

/-- The containers of the decode copy in hand. -/
def State.containers (s : State) : Nat := s.myOp.mask.toNat / 4096

/-- The table that a decode copy takes at its start. -/
def State.slotTable (s : State) : Option DecTab := Table.get none s.me.dectab s.myOp.x1.toNat

/-- The length of a container that a table decodes. -/
def containerSize (t : Option DecTab) : Nat := 64 * (t.map (·.z)).getD 0

theorem execDecodeContainer_start {s : State} (h : s.myOp.st = none)
    (ht : s.slotTable = none ∨ s.myOp.as + s.containers * containerSize s.slotTable ≤ (s.core s.myOp.cs).carve.scrlim) :
    let u := s.startOp s.ctx.core s.ctx.op (64 * s.containers) { s.myOp with tab := s.slotTable }
    execDecodeContainer s = .next (u.at s.ctx.core (u.me.cyc + s.myOp.hs) (s.containerStep 0 0)) := by
  have hlim : ¬ (s.slotTable.isSome &&
      decide ((s.core s.myOp.cs).carve.scrlim < s.myOp.as + s.containers * containerSize s.slotTable)) = true := by
    obtain ht | ht := ht
    · rw [ht]
      exact Bool.false_ne_true
    · rw [decide_eq_false (Nat.not_lt.2 ht), Bool.and_false]
      exact Bool.false_ne_true
  exact (if_pos (Option.isNone_iff_eq_none.2 h)).trans (if_neg hlim)

section
variable {s : State} (h : s.myOp.st.isSome = true)
include h

theorem execDecodeContainer_overrun (hp : s.ctx.plane = 1) :
    execDecodeContainer s = .next (s.raiseOp .decodeOverrun s.myOp.src 0) :=
  (if_neg (Op.not_isNone_st h)).trans (if_pos hp)

theorem execDecodeContainer_finish (hp : s.ctx.plane = 2) :
    execDecodeContainer s = .next (s.finishOp s.ctx.core s.ctx.op s.myOp) :=
  (if_neg (Op.not_isNone_st h)).trans ((if_neg (by rw [hp]; decide)).trans (if_pos hp))

end

/-- The container in hand, decoded. -/
def State.containerOut (s : State) : Option (List Byte) := decant s.myOp.tab
  (s.poolRead s.myOp.cs (s.myOp.as + containerSize s.myOp.tab * s.ctx.idx) (containerSize s.myOp.tab))

/-- The state after the check for EARLY_READ of the container in hand. -/
def State.containerEarly (s : State) : State :=
  let o := s.myOp
  let z := containerSize o.tab
  if z != 0 && s.earlyPool o.src o.cs (o.as + z * s.ctx.idx) z then s.raiseOp .earlyRead o.src 0 else s

/-- The container in hand is dropped, since the SRAM rail is down. -/
def State.containerDown (s : State) : Bool := s.myOp.tab.isSome && s.containerEarly.sramDown s.myOp.cs

/-- The state in which the container in hand is sampled. -/
def State.containerSampled (s : State) : State :=
  if s.containerDown then s.containerEarly.raiseOp .railDown s.myOp.src 0 else s.containerEarly

/-- The operation of a decode copy after the container in hand. -/
def State.containerOp (s : State) (bad : Bool) : Op :=
  { s.myOp with failed := bad
                fut := [(s.myOp.cd, s.myOp.ad + 4096 * (s.ctx.idx + 1), 4096 * (s.containers - s.ctx.idx - 1))] }

/-- The output of the container in hand, and the step of its overrun. -/
def State.containerDone (s : State) : State :=
  let o := s.myOp
  let k := s.ctx.idx
  let out := decant o.tab (s.containerSampled.poolRead o.cs (o.as + containerSize o.tab * k) (containerSize o.tab))
  let u := s.containerSampled.setOp s.ctx.core s.ctx.op (some (s.containerOp out.isNone))
  let u := if s.containerDown then u.dropContainer o (4 + o.hd) k
    else u.putContainer o (4 + o.hd) k s.containers (out.getD (List.replicate 4096 0)) out.isNone o.failed
  if out.isNone && !s.containerDown then u.at s.ctx.core (u.me.cyc + (4 + o.hd + 63)) (s.containerStep k 1) else u

/-- The cycles from the sample of the container in hand to the next one's, or to the copy's end after the last. -/
def State.containerGap (s : State) : Nat := if s.ctx.idx + 1 = s.containers then 4 + s.myOp.hd + 63 else 64

/-- The step after the container in hand. -/
def State.containerNext (s : State) : Work :=
  if s.ctx.idx + 1 = s.containers then s.containerStep s.ctx.idx 2 else s.containerStep (s.ctx.idx + 1) 0

theorem execDecodeContainer_container {s : State} (h : s.myOp.st.isSome = true) (hp : s.ctx.plane = 0) :
    execDecodeContainer s =
      .next (s.containerDone.at s.ctx.core (s.containerDone.me.cyc + s.containerGap) s.containerNext) := by
  have h1 : s.ctx.plane ≠ 1 := by omega
  have h2 : s.ctx.plane ≠ 2 := by omega
  refine (if_neg (Op.not_isNone_st h)).trans ((if_neg h1).trans ((if_neg h2).trans ?_))
  unfold State.containerGap State.containerNext
  by_cases hlast : s.ctx.idx + 1 = s.containers
  · rw [if_pos hlast, if_pos hlast]
    exact congrArg ok (if_pos hlast)
  · rw [if_neg hlast, if_neg hlast]
    exact congrArg ok (if_neg hlast)

/-! ## What a container leaves -/

/-- Group `q` of the output `bs` of container `k`, written `d + q` cycles on. -/
def State.groupWrite (s : State) (o : Op) (d k : Nat) (bs : List Byte) (q : Nat) : PWrite :=
  s.opWrite o.src (d + q) (.pool o.cd (o.ad + 4096 * k + 64 * q) (((bs.drop (64 * q)).take 64).map some) false)

/-- The granules that container `k` of `num` tags. -/
def Op.containerGranules (o : Op) (k num : Nat) : List Nat := (List.range 5).filterMap fun i =>
  let g := (o.ad + 4096 * k) / 1024 + i
  if 1024 * g < o.ad + 4096 * k + 4096 ∧ (k + 1 = num ∨ 1024 * (g + 1) ≤ o.ad + 4096 * k + 4096) then some g else none

/-- They are those that it ends, and with the last container also the one in which it ends. -/
theorem Op.mem_containerGranules (o : Op) (k num g : Nat) : g ∈ o.containerGranules k num ↔
    (o.ad + 4096 * k) / 1024 ≤ g ∧ 1024 * g < o.ad + 4096 * k + 4096 ∧
      (k + 1 = num ∨ 1024 * (g + 1) ≤ o.ad + 4096 * k + 4096) := by
  rw [Op.containerGranules, List.mem_filterMap]
  constructor
  · rintro ⟨i, -, hi⟩
    rw [Option.ite_none_right_eq_some] at hi
    obtain ⟨⟨hlt, hend⟩, hg⟩ := hi
    obtain rfl := Option.some.inj hg
    exact ⟨Nat.le_add_right _ _, hlt, hend⟩
  · rintro ⟨hle, hlt, hend⟩
    obtain ⟨i, rfl⟩ := Nat.exists_eq_add_of_le hle
    exact ⟨i, List.mem_range.2 (by omega), if_pos ⟨hlt, hend⟩⟩

/-- The tag of granule `g` after container `k`: it falls with the last write in the granule, and says whether data failed. -/
def State.containerTag (s : State) (o : Op) (d k : Nat) (bad prev : Bool) (g : Nat) : PWrite :=
  let base := o.ad + 4096 * k
  s.opWrite o.src (d + (min (1024 * (g + 1)) (base + 4096) - 1 - base) / 64)
    (.tag o.cd g (if bad || (prev && decide (1024 * g < base)) then 0xFFFF else o.tag))

theorem State.putContainer_defers (s : State) (o : Op) (d k num : Nat) (out : List Byte) (bad prev : Bool) :
    s.Defers ((List.range 64).map (s.groupWrite o d k out) ++ (o.containerGranules k num).map (s.containerTag o d k bad prev))
      (s.putContainer o d k num out bad prev) := by
  have hgroups : s.Defers ((List.range 64).map (s.groupWrite o d k out)) _ := State.foldl_defers (fun t ws q ht => by
    rw [State.groupWrite, ← ht.opWrite]
    exact State.deferOp_defers t _ _ _) _
  refine hgroups.trans (State.foldl_defers (fun t ws g ht => ?_) _)
  rw [State.containerTag, ← (hgroups.trans ht).opWrite]
  exact State.deferTag_defers t _ _ _ _ _ _

section
variable {s : State} (hearly : (s.core s.myOp.cs).early = false) (hsrc : (s.core s.myOp.src.core).early = false)
include hearly hsrc

theorem State.containerEarly_eq : s.containerEarly = s := by
  rw [State.containerEarly, State.earlyPool_eq_false hearly hsrc, Bool.and_false, if_neg Bool.false_ne_true]

variable (hrail : s.myOp.tab.isSome = true → (s.core s.myOp.cs).rails.getLsbD 2 = true)
include hrail

theorem State.containerDown_eq : s.containerDown = false := by
  rw [State.containerDown, State.containerEarly_eq hearly hsrc, State.sramDown]
  cases h : s.myOp.tab.isSome with
  | false => rfl
  | true => rw [hrail h]; rfl

theorem State.containerSampled_eq : s.containerSampled = s := by
  rw [State.containerSampled, State.containerDown_eq hearly hsrc hrail, if_neg Bool.false_ne_true,
    State.containerEarly_eq hearly hsrc]

end

/-- The state with the output of the container in hand, before its steps are filed. -/
def State.containerPut (s : State) : State :=
  (s.setOp s.ctx.core s.ctx.op (some (s.containerOp s.containerOut.isNone))).putContainer s.myOp (4 + s.myOp.hd) s.ctx.idx
    s.containers (s.containerOut.getD (List.replicate 4096 0)) s.containerOut.isNone s.myOp.failed

/-- The writes of the container in hand. -/
def State.containerWrites (s : State) : List PWrite := (List.range 64).map
  (s.groupWrite s.myOp (4 + s.myOp.hd) s.ctx.idx (s.containerOut.getD (List.replicate 4096 0)))

/-- The tags of the container in hand. -/
def State.containerTags (s : State) : List PWrite := (s.myOp.containerGranules s.ctx.idx s.containers).map
  (s.containerTag s.myOp (4 + s.myOp.hd) s.ctx.idx s.containerOut.isNone s.myOp.failed)

theorem State.length_containerWrites (s : State) : s.containerWrites.length = 64 := by
  rw [State.containerWrites, List.length_map, List.length_range]

theorem State.containerWrites_getD (s : State) {q : Nat} (hq : q < 64) (w : PWrite) : s.containerWrites.getD q w =
    s.groupWrite s.myOp (4 + s.myOp.hd) s.ctx.idx (s.containerOut.getD (List.replicate 4096 0)) q := by
  rw [State.containerWrites, List.getD_eq_getElem?_getD, List.getElem?_map, List.getElem?_range hq]
  rfl

theorem State.mem_containerTags (s : State) {w : PWrite} (hw : w ∈ s.containerTags) : ∃ g v,
    w = s.opWrite s.myOp.src (4 + s.myOp.hd + (min (1024 * (g + 1)) (s.myOp.ad + 4096 * s.ctx.idx + 4096) - 1 -
      (s.myOp.ad + 4096 * s.ctx.idx)) / 64) (.tag s.myOp.cd g v) ∧
    v = if s.containerOut = none ∨ (s.myOp.failed = true ∧ 1024 * g < s.myOp.ad + 4096 * s.ctx.idx) then 0xFFFF else s.myOp.tag := by
  obtain ⟨g, -, rfl⟩ := List.mem_map.1 hw
  refine ⟨g, _, rfl, if_congr ?_ rfl rfl⟩
  rw [Bool.or_eq_true, Bool.and_eq_true, decide_eq_true_eq, Option.isNone_iff_eq_none]

/-- The granules that the tags of a container name. -/
theorem State.containerTags_granule (s : State) (g : Nat) : (∃ w ∈ s.containerTags, ∃ v, w.upd = .tag s.myOp.cd g v) ↔
    g ∈ s.myOp.containerGranules s.ctx.idx s.containers := by
  constructor
  · rintro ⟨w, hw, v, hv⟩
    obtain ⟨h, hh, rfl⟩ := List.mem_map.1 hw
    obtain ⟨-, rfl, -⟩ := Upd.tag.inj hv
    exact hh
  · exact fun hg => ⟨_, List.mem_map_of_mem hg, _, rfl⟩

theorem State.groupWrite_setOp (s : State) (c n : Nat) (v : Option Op) (o : Op) (d k : Nat) (bs : List Byte) :
    (s.setOp c n v).groupWrite o d k bs = s.groupWrite o d k bs := funext fun _ => s.opWrite_setOp _ _ _ _ _ _

theorem State.containerTag_setOp (s : State) (c n : Nat) (v : Option Op) (o : Op) (d k : Nat) (bad prev : Bool) :
    (s.setOp c n v).containerTag o d k bad prev = s.containerTag o d k bad prev := funext fun _ => s.opWrite_setOp _ _ _ _ _ _

theorem State.containerPut_defers (s : State) : (s.setOp s.ctx.core s.ctx.op (some (s.containerOp s.containerOut.isNone))).Defers
    (s.containerWrites ++ s.containerTags) s.containerPut := by
  have h := State.putContainer_defers (s.setOp s.ctx.core s.ctx.op (some (s.containerOp s.containerOut.isNone))) s.myOp
    (4 + s.myOp.hd) s.ctx.idx s.containers (s.containerOut.getD (List.replicate 4096 0)) s.containerOut.isNone s.myOp.failed
  rwa [State.groupWrite_setOp, State.containerTag_setOp] at h

/-- A container whose bytes can be sampled leaves its output, and its overrun where it fails. -/
theorem State.containerDone_eq {s : State} (hearly : (s.core s.myOp.cs).early = false)
    (hsrc : (s.core s.myOp.src.core).early = false)
    (hrail : s.myOp.tab.isSome = true → (s.core s.myOp.cs).rails.getLsbD 2 = true) :
    s.containerDone = if s.containerOut.isNone then
      s.containerPut.at s.ctx.core (s.containerPut.me.cyc + (4 + s.myOp.hd + 63)) (s.containerStep s.ctx.idx 1)
      else s.containerPut := by
  unfold State.containerDone
  rw [State.containerSampled_eq hearly hsrc hrail, State.containerDown_eq hearly hsrc hrail]
  dsimp only
  rw [if_neg Bool.false_ne_true, Bool.not_false, Bool.and_true]
  rfl

/-- What a container whose bytes can be sampled leaves: its writes, its tags, and the steps to come. -/
theorem exec_decodeContainer_output {s : State} (hst : s.myOp.st.isSome = true) (hp : s.ctx.plane = 0)
    (hearly : (s.core s.myOp.cs).early = false) (hsrc : (s.core s.myOp.src.core).early = false)
    (hrail : s.myOp.tab.isSome = true → (s.core s.myOp.cs).rails.getLsbD 2 = true) :
    ∃ t, exec .decodeContainer s = .next t ∧ t.pool = s.pool ∧ t.pend = s.pend ++ s.containerWrites ++ s.containerTags ∧
      t.op s.ctx.core s.ctx.op = s.containerOp s.containerOut.isNone ∧
      (s.containerOut = none → ⟨s.me.cyc + (4 + s.myOp.hd + 63), s.containerStep s.ctx.idx 1⟩ ∈ t.me.sched) ∧
      ⟨s.me.cyc + s.containerGap, s.containerNext⟩ ∈ t.me.sched := by
  have hput := s.containerPut_defers
  have hdone := State.containerDone_eq hearly hsrc hrail
  have hadds : s.containerPut.AddsStep s.ctx.core s.containerDone := by
    rw [hdone]
    split
    · exact .inr ⟨_, _, rfl⟩
    · exact .inl rfl
  have hstep : s.InStep s.containerPut := hput.inStep (s.inStep_setOp _ _ _)
  have hgap : 0 < s.containerGap := by
    unfold State.containerGap
    split <;> omega
  refine ⟨_, execDecodeContainer_container hst hp, ?_, ?_, ?_, fun hout => ?_, ?_⟩
  · rw [State.at_pool, hadds.filed.pool, hput.pool]
    rfl
  · rw [State.at_pend, hadds.filed.pend, hput.pend, List.append_assoc]
    rfl
  · rw [State.op_at, hadds.op, hput.op, State.op_setOp_same]
  · have hover : s.containerDone = s.containerPut.at s.ctx.core (s.containerPut.me.cyc + (4 + s.myOp.hd + 63))
        (s.containerStep s.ctx.idx 1) := by
      rw [hdone, hout]
      rfl
    refine State.sched_subset_at _ _ _ _ ?_
    rw [hover]
    exact hstep.mem_sched_next (.inr (by omega)) _
  · exact (hstep.addsStep hadds).mem_sched_next (.inr hgap) _

end Sys2Proof.Machine
end

section
namespace Sys2Proof.Machine

/-! ## Decode tables -/

/-- The state in which a third of a decode table is sampled: the first one starts the operation. -/
def State.tableStarted (s : State) : State :=
  if s.myOp.st.isNone then s.startOp s.ctx.core s.ctx.op 3 s.myOp else s

/-- The operation of a DTAB after the sample in hand, of `l` bytes in state `u`. -/
def State.tableOp (s u : State) (l : Nat) : Op :=
  { s.myOp with st := some (s.myOp.st.getD u.me.cyc)
                buf := s.myOp.buf ++ u.poolRead s.ctx.core (s.myOp.as + 128 * s.ctx.idx) l }

/-- The step of third `i` of the table in hand. -/
def State.tableStep (s : State) (i : Nat) : Work :=
  { ctx := { core := s.ctx.core, op := s.ctx.op, idx := i }, instr := .decodeTableLoad }

/-- What DECODE_TABLE_LOAD does after the sample in state `u`. -/
def State.tableSampled (s u : State) (l : Nat) : Out :=
  let o := s.tableOp u l
  if s.ctx.idx = 2 then
    ok ((u.deferOp s.myOp.src 0 (.decTab s.ctx.core s.myOp.x1.toNat (decTabOf o.buf))).finishOp s.ctx.core s.ctx.op o)
  else ok ((u.setOp s.ctx.core s.ctx.op (some o)).at s.ctx.core (u.me.cyc + 1) (s.tableStep (s.ctx.idx + 1)))

theorem execDecodeTableLoad_eq {s : State} {l : Nat} (hl : (if s.ctx.idx = 2 then 32 else 128) = l) : execDecodeTableLoad s =
    s.tableSampled (if s.tableStarted.earlyPool s.myOp.src s.ctx.core (s.myOp.as + 128 * s.ctx.idx) l then
      s.tableStarted.raiseOp .earlyRead s.myOp.src 0 else s.tableStarted) l := by
  rw [← hl]
  rfl

theorem State.tableStarted_filed (s : State) : s.Filed s.tableStarted := by
  unfold State.tableStarted
  split
  · exact s.startOp_filed _ _ _ _
  · exact .refl s

theorem State.inStep_tableStarted (s : State) : s.InStep s.tableStarted := by
  unfold State.tableStarted
  split
  · exact s.inStep_startOp _ _ _ _
  · exact ⟨rfl, rfl⟩

theorem State.early_tableStarted (s : State) (c : Nat) : (s.tableStarted.core c).early = (s.core c).early := by
  unfold State.tableStarted
  split
  · exact s.early_startOp _ _ _ _ _
  · rfl

section
variable {s : State} (hearly : (s.core s.ctx.core).early = false) (hsrc : (s.core s.myOp.src.core).early = false)
include hearly hsrc

/-- EARLY clear, a third is sampled without a fault. -/
theorem State.tableEarly_eq (a n : Nat) : (if s.tableStarted.earlyPool s.myOp.src s.ctx.core a n then
    s.tableStarted.raiseOp .earlyRead s.myOp.src 0 else s.tableStarted) = s.tableStarted := by
  rw [State.earlyPool_eq_false ((s.early_tableStarted _).trans hearly) ((s.early_tableStarted _).trans hsrc)]
  exact if_neg Bool.false_ne_true

/-- The first two thirds of a table are kept, and the next one is sampled a cycle later. -/
theorem execDecodeTableLoad_third (hi : s.ctx.idx < 2) : ∃ t, execDecodeTableLoad s = .next t ∧ t.pool = s.pool ∧ t.pend = s.pend ∧
    (t.op s.ctx.core s.ctx.op).buf = s.myOp.buf ++ s.poolRead s.ctx.core (s.myOp.as + 128 * s.ctx.idx) 128 ∧
    ∃ q ∈ t.me.sched, q.due = s.me.cyc + 1 ∧ q.work.instr = .decodeTableLoad ∧ q.work.ctx.op = s.ctx.op ∧
      q.work.ctx.idx = s.ctx.idx + 1 := by
  have hi2 : s.ctx.idx ≠ 2 := by omega
  let u := s.tableStarted.setOp s.ctx.core s.ctx.op (some (s.tableOp s.tableStarted 128))
  have hfiled : s.Filed u := s.tableStarted_filed.trans (State.setOp_filed _ _ _ _)
  have hstep : s.InStep u := ⟨hfiled.ctx, (State.cyc_setOp _ _ _ _ _).trans s.inStep_tableStarted.2⟩
  have hgo : execDecodeTableLoad s = .next (u.at s.ctx.core (s.me.cyc + 1) (s.tableStep (s.ctx.idx + 1))) := by
    rw [execDecodeTableLoad_eq (if_neg hi2), State.tableEarly_eq hearly hsrc, ← s.inStep_tableStarted.me_cyc]
    exact if_neg hi2
  refine ⟨_, hgo, (State.at_pool _ _ _ _).trans hfiled.pool, (State.at_pend _ _ _ _).trans hfiled.pend, ?_,
    _, hstep.mem_sched_at (.inr (Nat.lt_succ_self _)) _, rfl, rfl, rfl, rfl⟩
  rw [State.op_at, State.op_setOp_same, State.tableOp, s.tableStarted_filed.poolRead]

/-- The last third loads the slot. -/
theorem execDecodeTableLoad_last (hst : s.myOp.st.isSome = true) (hi : s.ctx.idx = 2) :
    ∃ t, execDecodeTableLoad s = .next t ∧ t.pool = s.pool ∧ (t.op s.ctx.core s.ctx.op).fin = some s.me.cyc ∧
      t.pend = s.pend ++ [s.opWrite s.myOp.src 0 (.decTab s.ctx.core s.myOp.x1.toNat
        (decTabOf (s.myOp.buf ++ s.poolRead s.ctx.core (s.myOp.as + 256) 32)))] := by
  have hstarted : s.tableStarted = s := if_neg (Op.not_isNone_st hst)
  let u := s.deferOp s.myOp.src 0 (.decTab s.ctx.core s.myOp.x1.toNat (decTabOf (s.tableOp s 32).buf))
  have hgo : execDecodeTableLoad s = .next (u.finishOp s.ctx.core s.ctx.op (s.tableOp s 32)) := by
    rw [execDecodeTableLoad_eq (if_pos hi), State.tableEarly_eq hearly hsrc, hstarted]
    exact if_pos hi
  have hfiled := u.finishOp_filed s.ctx.core s.ctx.op (s.tableOp s 32)
  refine ⟨_, hgo, hfiled.pool, ?_, ?_⟩
  · rw [State.op_finishOp]
    rfl
  · rw [hfiled.pend, ← show 128 * s.ctx.idx = 256 by rw [hi]]
    rfl

end

/-! ## Code images -/

/-- The step of group `i` of the code image in hand. -/
def State.imageStep (s : State) (i : Nat) : Work :=
  { ctx := { core := s.ctx.core, op := s.ctx.op, idx := i }, instr := .codeImageLoad }

section
variable {s : State} (hearly : (s.core s.ctx.core).early = false) (hsrc : (s.core s.myOp.src.core).early = false)
include hearly hsrc

theorem execCodeImageLoad_badHeader (hst : s.myOp.st = none) (h : imageHeader (s.poolRead s.ctx.core s.myOp.as 16) = none) :
    execCodeImageLoad s = .next (s.failOp s.ctx.core s.ctx.op s.myOp .illegalEnc 0) := by
  unfold execCodeImageLoad
  dsimp only
  rw [if_pos (Option.isNone_iff_eq_none.2 hst), State.earlyPool_eq_false hearly hsrc, if_neg Bool.false_ne_true, h]
  rfl

/-- A good header of whole groups, all of the image in scratch: the groups follow. -/
theorem execCodeImageLoad_start {n a : Nat} (hst : s.myOp.st = none)
    (h : imageHeader (s.poolRead s.ctx.core s.myOp.as 16) = some (n, a)) (hn : n % 32 = 0)
    (hin : s.myOp.as + 16 + 4 * n + 4 * ceilDiv n 32 ≤ s.me.carve.scrlim) :
    let u := s.startOp s.ctx.core s.ctx.op (ceilDiv n 32 + 1) { s.myOp with hs := n, hd := a }
    execCodeImageLoad s = .next (u.at s.ctx.core (u.me.cyc + 1) (s.imageStep 0)) := by
  unfold execCodeImageLoad
  dsimp only
  rw [if_pos (Option.isNone_iff_eq_none.2 hst), State.earlyPool_eq_false hearly hsrc, if_neg Bool.false_ne_true, h]
  dsimp only
  rw [State.earlyPool_eq_false hearly hsrc, if_neg Bool.false_ne_true, if_neg (by simp [hn]), if_neg (Nat.not_lt.2 hin)]
  rfl

theorem execCodeImageLoad_group (hst : s.myOp.st.isSome = true) (hi : s.ctx.idx < ceilDiv s.myOp.hs 32) : execCodeImageLoad s =
    .next ((s.deferOp s.myOp.src 1 (.imem s.ctx.core (s.myOp.hd + 32 * s.ctx.idx)
      (s.imageGroup s.ctx.core s.myOp.as s.myOp.hs s.ctx.idx))).at s.ctx.core (s.me.cyc + 1) (s.imageStep (s.ctx.idx + 1))) := by
  unfold execCodeImageLoad
  dsimp only
  rw [if_neg (Op.not_isNone_st hst), if_neg (Nat.not_le.2 hi), State.earlyPool_eq_false hearly hsrc,
    State.earlyPool_eq_false hearly hsrc, Bool.or_self, if_neg Bool.false_ne_true]
  rfl

end

theorem execCodeImageLoad_finish {s : State} (hst : s.myOp.st.isSome = true) (hi : ceilDiv s.myOp.hs 32 ≤ s.ctx.idx) :
    execCodeImageLoad s = .next (s.finishOp s.ctx.core s.ctx.op s.myOp) :=
  (if_neg (Op.not_isNone_st hst)).trans (if_pos hi)

/-! ## The statement -/

/-- Settles O21: the decanter by its start, the output of a container and its two other planes, DTAB by its thirds, CPI by the
header and the groups. -/
theorem tableAndImageLoads : Obligations.TableAndImageLoads := by
  refine ⟨fun s => ⟨fun hst hsub ht => ?_, fun hst hp hearly hsrc hrail => ?_, execDecodeContainer_overrun,
      execDecodeContainer_finish⟩,
    fun s xa sl hearly hsrc => ⟨fun _ hi => ?_, fun _ hst hi => ?_, fun _ hst h => execCodeImageLoad_badHeader hearly hsrc hst h,
      fun n a _ hst h hn hin => ?_, fun _ hst hi => ?_, fun _ => execCodeImageLoad_finish⟩⟩
  · obtain ⟨hop, -, hnext, hpool, hpend⟩ := s.startOp_next s.ctx.op (64 * s.containers) { s.myOp with tab := s.slotTable }
      (.inl hsub) (s.containerStep 0 0)
    exact ⟨_, execDecodeContainer_start hst ht, congrArg Op.tab hop, congrArg Op.st hop, ⟨_, hnext, rfl, rfl, rfl, rfl, rfl⟩,
      hpool, hpend⟩
  · obtain ⟨t, ht, hpool, hpend, hop, hover, hnext⟩ := exec_decodeContainer_output hst hp hearly hsrc hrail
    have hdue : s.me.cyc + (4 + s.myOp.hd + 63) = s.me.cyc + 4 + s.myOp.hd + 63 := by omega
    refine ⟨t, s.containerWrites, s.containerTags, ht, hpool, hpend, fun q hq => s.containerWrites_getD hq _,
      s.length_containerWrites, fun w hw => s.mem_containerTags hw,
      fun g => (s.containerTags_granule g).trans (s.myOp.mem_containerGranules _ _ g),
      fun hout => ⟨_, hover hout, hdue, rfl, rfl, rfl, rfl⟩, ?_, ?_⟩
    · rw [hop]
      exact Option.isNone_iff_eq_none
    · by_cases hlast : s.ctx.idx + 1 = s.containers
      · rw [State.containerGap, State.containerNext, if_pos hlast, if_pos hlast] at hnext
        exact (if_pos hlast).mpr ⟨_, hnext, hdue, rfl, rfl, rfl, rfl⟩
      · rw [State.containerGap, State.containerNext, if_neg hlast, if_neg hlast] at hnext
        exact (if_neg hlast).mpr ⟨_, hnext, rfl, rfl, rfl, rfl, rfl⟩
  · exact execDecodeTableLoad_third hearly hsrc hi
  · exact execDecodeTableLoad_last hearly hsrc hst hi
  · obtain ⟨hop, -, hnext, hpool, hpend⟩ := s.startOp_next s.ctx.op (ceilDiv n 32 + 1) { s.myOp with hs := n, hd := a }
      (.inr Nat.one_pos) (s.imageStep 0)
    exact ⟨_, execCodeImageLoad_start hearly hsrc hst h hn hin, hpool, hpend, congrArg Op.hs hop, congrArg Op.hd hop,
      _, hnext, rfl, rfl, rfl, rfl⟩
  · have hstep : s.InStep (s.deferOp s.myOp.src 1 (.imem s.ctx.core (s.myOp.hd + 32 * s.ctx.idx)
        (s.imageGroup s.ctx.core s.myOp.as s.myOp.hs s.ctx.idx))) := ⟨rfl, rfl⟩
    exact ⟨_, execCodeImageLoad_group hearly hsrc hst hi, State.at_pool _ _ _ _, (State.at_filed _ _ _ _).imem,
      ⟨_, hstep.mem_sched_at (.inr (Nat.lt_succ_self _)) _, rfl, rfl, rfl, rfl⟩, State.at_pend _ _ _ _⟩

end Sys2Proof.Machine
end
